-- ==== Sys2Proof/Word.lean ====
section
/-! DEFINITION. Bytes of the serial links, and the keyed tables in which the part holds its records. -/

namespace Sys2Proof

/-- One character of a link (R167). -/
abbrev Byte := BitVec 8

/-- Records held "at most one for each number" (R4, R55): pairs of number and record, numbers strictly rising. -/
abbrev Tbl (α : Type) := List (Nat × α)

/-- The canonical form of a table: numbers strictly rising, so that equal tables are equal lists. -/
def Tbl.wf {α : Type} (t : Tbl α) : Prop := (t.map Prod.fst).Pairwise (· < ·)

end Sys2Proof
end

