-- ==== Sys2Proof/Config.lean ====
section
/-! DEFINITION. What the SD-724 fixes once, and the values the manual leaves open (free values, no body). -/

namespace Sys2Proof.Config

/-! ## Bounds (00 section 3, and the rules named) -/

/-- R55: the route table holds at most 16 entries. -/
def tableSlots : Nat := 16
/-- R56: the route store holds at most 8 waiting requests. -/
def storeSize : Nat := 8
/-- R111: an arrival queue holds at most 4 records. -/
def queueSize : Nat := 4
/-- R125: a siding stack holds at most 12 records. -/
def stackSize : Nat := 12
/-- R151: the roster holds at most 96 entries. -/
def rosterSize : Nat := 96
/-- R186: the alarm list holds at most 32 entries. -/
def alarmSize : Nat := 32
/-- R170: a receive queue holds at most 4 requests. -/
def receiveSize : Nat := 4
/-- R170: an answer path holds at most 4 BUSY answers. -/
def busySize : Nat := 4
/-- R175: a notice queue holds at most 16 notices. -/
def noticeSize : Nat := 16
/-- R150: the last yard minute. -/
def lastMinute : Nat := 2879
/-- R150: the minute timer, in ms. -/
def minuteMs : Nat := 60000

/-! ## Free values: nothing constrains them, and a claim holds whatever they are -/

/-- R130 breaks its ties by R129's keys, of which the slack d′ − d is not stated for an absent d with a present d′ =
the argument (log entry 30, DESIGN CHOICE: a free value). -/
opaque slackOfAbsentDue : Nat → Nat

/-- R93 gives the time remaining of a 0–120 s timer and does not say how a part of a second is given; the argument
is the time in ms (log entry 27, DESIGN CHOICE: a free value). -/
opaque partSecond : Nat → Nat

end Sys2Proof.Config
end

