-- ==== Sys2Proof/Syntax.lean ====
section
/-! DEFINITION. The commands of the SD-724: one constructor of `Instr` per row of spec/opcode_table.json, and the types
of their operands. A request carries its payload's fields as received: numbers, codes and set bytes unchecked. -/

namespace Sys2Proof

/-! ## Names of the manual -/

/-- The three control ports; a port's role is the port it is (09). -/
inductive Port where | desk | planner | line
  deriving DecidableEq, Repr

/-- The positions of a point (00 section 3). -/
inductive Position where | normal | reverse
  deriving DecidableEq, Repr

/-- What the detection inputs of a point show (R35). -/
inductive Reading where | normal | reverse | none | both
  deriving DecidableEq, Repr

/-- The states of a point (03 section 3.1). -/
inductive PointState where | normal | reverse | moving | lost | failed | outOfService
  deriving DecidableEq, Repr

/-- The causes of a point state change (R52). -/
inductive PointCause where
  | throwStart | reversal | throwEnd | limit | coolDownEnd | detection | block | restore | restart
  deriving DecidableEq, Repr

/-- CLEAR and OCCUPIED, of an input level or a confirmed state (02 section 2.1). -/
inductive Occ where | clear | occupied
  deriving DecidableEq, Repr

/-- The cause of a confirmed edge (R25). -/
inductive EdgeCause where | input | force | unforce
  deriving DecidableEq, Repr

/-- What an occupancy input shows electrically (R20): a tram, a free section, or one of three broken readings. -/
inductive LineSignal where | occupied | free | openCircuit | short | between
  deriving DecidableEq, Repr

/-- What one detection input shows (R35). -/
inductive DetectSignal where | detecting | notDetecting | broken
  deriving DecidableEq, Repr

/-- The kinds of section (00 section 3.1). -/
inductive SectionKind where | ladder | approach | reader | gateOut | mouth | body | headShunt
  deriving DecidableEq, Repr

/-- The edge-report selection of a section (R5). -/
inductive Selection where | none | occupy | clear | both
  deriving DecidableEq, Repr

/-- The kinds of route (00 section 3.2). -/
inductive RouteKind where | arrival | departure | shuntOut | shuntIn | yard
  deriving DecidableEq, Repr

/-- On whose behalf a route was requested (R55). -/
inductive Owner where | desk | planner | line | auto
  deriving DecidableEq, Repr

/-- What a route is for (R55, purpose link). -/
inductive Purpose where
  | gateArrival (gate fleet : Nat)
  | dutyDeparture (duty fleet : Nat)
  | fleetDeparture (fleet gate : Nat)
  | shuntEntry (entry fleet : Nat)
  | none
  deriving DecidableEq, Repr

/-- A yard object that a refusal or a FAILED event names (R60, R77). -/
inductive YardObject where
  | sect (number : Nat)
  | point (number : Nat)
  deriving DecidableEq, Repr

/-- The reason a FAILED event carries (R77). -/
inductive FailCause where
  | point (number : Nat)
  | unavailable (object : YardObject)
  deriving DecidableEq, Repr

/-- The progress events of a route (R77). -/
inductive Progress where
  | proceed | firstEntered
  | elementReleased (index : Nat)
  | complete
  | failed (why : FailCause)
  | expired | cancelled | forceReleased
  deriving DecidableEq, Repr

/-- A progress event with what every event carries (R76). -/
structure RouteEvent where
  event : Progress
  slot : Option Nat
  route : Nat
  kind : RouteKind
  owner : Owner
  purpose : Purpose
  tram : Option Nat
  deriving DecidableEq, Repr

/-- A point state change report (R52), with the state left behind, which R70 and R73 ask for. -/
structure PointReport where
  point : Nat
  old : PointState
  new : PointState
  reading : Reading
  cause : PointCause
  deriving DecidableEq, Repr

/-- What brought a stacking report about (R126). -/
inductive StackCause where
  | reserved | released | called | uncalled | leaving | left | removed | moved | stabled
  | census | abilities | blocked | unblocked | doubt | restart | doubtClaim | bodyMismatch | forceReleased
  deriving DecidableEq, Repr

/-- A stacking report as one gate takes it (R126): cause, the gate where the cause was a gate's release claim, and the free
capacity of each gate. -/
structure StackReport where
  cause : StackCause
  releaseGate : Option Nat
  capacity1 : Nat
  capacity2 : Nat
  deriving DecidableEq, Repr

/-- An alarm kind with its object (R185). -/
inductive Alarm where
  | unroutedOccupancy (sect : Nat)
  | pointLostUnderRoute (point : Nat)
  | pointOutOfService (point : Nat)
  | gateOverrun (gate : Nat)
  | passedAtStop (signal : Nat)
  | irregularClearance (route sect : Nat)
  | wrongTramOut (fleet : Nat)
  | bodyMismatch (siding : Nat)
  | stranded (siding : Nat)
  | departureAbandoned (fleet : Nat)
  deriving DecidableEq, Repr

/-- The blocks that take a restart (R190). -/
inductive Block where
  | occupancy | point | route
  | gate (number : Nat)
  | stabling | roster
  deriving DecidableEq, Repr

/-- A set over COVERED, SUPPLY, PIT and SAND (00 section 3.3). -/
structure Needs where
  covered : Bool
  supply : Bool
  pit : Bool
  sand : Bool
  deriving DecidableEq, Repr

/-! ## Catalogue routes (R10) -/

/-- A point lying in an element's section and the position the route requires of it. -/
structure Setting where
  point : Nat
  position : Position
  deriving DecidableEq, Repr

/-- One path element: a section with 0 to 3 point settings. -/
structure Element where
  sect : Nat
  settings : List Setting
  deriving DecidableEq, Repr

/-- A flank setting: the point, its flank position, and the index of the element it protects. -/
structure Flank where
  point : Nat
  position : Position
  protects : Nat
  deriving DecidableEq, Repr

/-- A catalogue route as loaded (R10). -/
structure RouteDef where
  kind : RouteKind
  origin : Nat
  fromObj : Option Nat
  toObj : Option Nat
  approach : Option Nat
  destination : Option Nat
  path : List Element
  flank : List Flank
  deriving DecidableEq, Repr

/-! ## Operands -/

/-- The port a request came in on and the TAG its master chose (09 section 9.7). -/
structure Req where
  port : Port
  tag : Byte
  deriving DecidableEq, Repr

/-- A received character and whether its stop bit read high (R167). -/
structure LineChar where
  byte : Byte
  stopHigh : Bool
  deriving DecidableEq, Repr

/-- The two rate straps of each port (R167). -/
structure Straps where
  desk : BitVec 2
  planner : BitVec 2
  line : BitVec 2
  deriving DecidableEq, Repr

/-- The fields of a YARD_PARAMS payload whose presence bit is set (R11, 09 section 9.7); the policy is its code. -/
structure ParamFields where
  occupyConfirm : Option Nat
  clearConfirm : Option Nat
  coolDown : Option Nat
  failureWindow : Option Nat
  timeRelease : Option Nat
  storeLimit : Option Nat
  readerWait : Option Nat
  spacing : Option Nat
  capacityReserve : Option Nat
  capacityBand : Option Nat
  queueHighMark : Option Nat
  callLead : Option Nat
  dueNoticeLead : Option Nat
  inversion : Option Nat
  deriving DecidableEq, Repr

/-- One entry of a CENSUS_SET list (R135); the needs are set bytes. -/
structure CensusEntry where
  fleet : Nat
  length : Nat
  mandatory : Byte
  wanted : Byte
  deriving DecidableEq, Repr

/-- The commands. Requests carry a `Req`; claims between blocks carry the claim. -/
inductive Instr where
  -- line and port
  | powerOnReset (straps : Straps)
  | controlFrame (p : Port) (chars : List LineChar)
  | frameGap (p : Port)
  | lineBreak (p : Port)
  | frameSent (p : Port)
  | status (r : Req)
  | subscribe (r : Req) (groups : Byte)
  | portReset (r : Req)
  | tableSelect (r : Req) (table qualifier index : Nat)
  | tableNext (r : Req)
  -- description store
  | sectionDef (r : Req) (number kind : Nat) (gate siding : Option Nat) (selection : Nat)
  | pointDef (r : Req) (number : Nat) (sect : Option Nat) (throwLimit : Nat)
  | sidingDef (r : Req) (number mouth body length : Nat) (abilities : Byte)
  | gateDef (r : Req) (number signal reader : Nat) (approach : List Nat) (gateOut : Nat)
  | headshuntDef (r : Req) (number sect : Nat)
  | routeDef (r : Req) (payload : List Byte)
  | yardParams (r : Req) (fields : ParamFields)
  | configCommit (r : Req)
  -- occupancy monitor
  | occupancyInputChange (sect : Nat) (signal : LineSignal)
  | confirmationTimerExpiry (sect : Nat)
  | sectionForceOn (r : Req) (sect : Nat)
  | sectionForceOff (r : Req) (sect : Nat)
  | sectionQuery (r : Req) (sect : Nat)
  | forceFlagReport (sect : Nat) (isSet : Bool)
  | routeOccupyEdge (sect : Nat) (cause : EdgeCause)
  | routeClearEdge (sect : Nat) (cause : EdgeCause)
  | readerOccupyEdge (gate : Nat) (cause : EdgeCause)
  | readerClearEdge (gate : Nat) (cause : EdgeCause)
  | bodyEdge (sect : Nat) (state : Occ) (cause : EdgeCause)
  -- point controller
  | detectionChange (point : Nat) (normal reverse : DetectSignal)
  | throwTimerExpiry (point : Nat)
  | coolDownExpiry (point : Nat)
  | pointThrow (r : Req) (point position : Nat)
  | pointBlock (r : Req) (point : Nat)
  | pointRestore (r : Req) (point : Nat)
  | pointQuery (r : Req) (point : Nat)
  | pointStateReport (report : PointReport)
  | withheldReply (slot point : Nat)
  -- route setter
  | routeSet (r : Req) (route : Nat)
  | routeCancel (r : Req) (route : Nat)
  | routeResume (r : Req) (route : Nat)
  | routeForceRelease (r : Req) (route : Nat)
  | storeTimerExpiry (route : Nat)
  | timeReleaseExpiry (slot : Nat)
  | routeHaltReport (isSet : Bool)
  -- gate controllers
  | inboundFrame (gate : Nat) (bytes : List Byte)
  | readerWaitExpiry (gate : Nat)
  | earlyReadExpiry (gate : Nat)
  | outboundFrame (gate : Nat) (bytes : List Byte)
  | stackingReport (gate : Nat) (report : StackReport)
  | arrivalIdentify (r : Req) (gate position fleet length : Nat) (mandatory wanted : Byte)
  | arrivalDiscard (r : Req) (gate position : Nat)
  | arrivalAdd (r : Req) (gate fleet length : Nat) (mandatory wanted : Byte)
  | arrivalResume (r : Req) (gate : Nat)
  | gateHold (r : Req) (gate : Nat)
  | gateRelease (r : Req) (gate : Nat)
  | gateClearOverrun (r : Req) (gate : Nat)
  | lineHold (r : Req) (gate : Nat)
  | lineRelease (r : Req) (gate : Nat)
  | gateHaltReport (gate : Nat) (isSet : Bool)
  | gateArrivalEvent (gate : Nat) (event : RouteEvent)
  | gateDepartureEvent (gate : Nat) (event : RouteEvent)
  -- stabling block
  | stablingArrivalEvent (event : RouteEvent)
  | stablingDepartureEvent (event : RouteEvent)
  | shuntOutEvent (event : RouteEvent)
  | shuntInEvent (event : RouteEvent)
  | censusSet (r : Req) (siding : Nat) (entries : List CensusEntry)
  | sidingAbilities (r : Req) (siding : Nat) (abilities : Byte)
  | sidingBlock (r : Req) (siding : Nat)
  | sidingUnblock (r : Req) (siding : Nat)
  | sidingDoubt (r : Req) (siding : Nat)
  | shunt (r : Req) (fleet target : Nat)
  | shuntCancel (r : Req) (entry : Nat)
  | shuntRetarget (r : Req) (entry target : Nat)
  -- roster block
  | clockSet (r : Req) (minute : Nat)
  | minuteTimerExpiry
  | rosterAdd (r : Req) (duty due gate : Nat) (fleet minLength : Option Nat)
  | rosterRemove (r : Req) (duty : Nat)
  | rosterClear (r : Req)
  | rosterAuto (r : Req) (gate setting : Nat)
  | depart (r : Req) (duty fleet gate : Option Nat)
  | rosterDepartureEvent (event : RouteEvent)
  | rosterHaltReport (isSet : Bool)
  -- supervision
  | halt (r : Req)
  | haltRelease (r : Req)
  | restart (r : Req)
  | restartTakenReport (block : Block)
  | occupancyRestart
  | pointRestart
  | routeRestart
  | gateRestart (gate : Nat)
  | stablingRestart
  | rosterRestart
  | alarmRaise (alarm : Alarm)
  | alarmConditionEnd (alarm : Alarm)
  | alarmAck (r : Req) (position kind object : Nat) (sect : Option Nat)
  | alarmAckAll (r : Req)
  deriving DecidableEq, Repr

end Sys2Proof
end

