-- ==== Sys2Proof/Decode.lean ====
section
/-! DEFINITION. From bytes to commands: the request kinds of R171, the codes of R173, R175, R177 and R181, the payload of each
kind, the ROUTE_DEF layout of 09 section 9.7 both ways, and the fields of a request that the port itself checks. -/

namespace Sys2Proof

/-! ## Request kinds (R171's kind table) -/

/-- The request kinds of the kind table. -/
inductive Kind where
  | status | subscribe | portReset | tableSelect | tableNext
  | sectionDef | pointDef | sidingDef | gateDef | headshuntDef | routeDef | yardParams | configCommit
  | sectionForce | sectionQuery
  | pointThrow | pointBlock | pointRestore | pointQuery
  | routeSet | routeCancel | routeResume | routeForceRelease
  | arrivalIdentify | arrivalDiscard | arrivalAdd | arrivalResume
  | gateHold | gateRelease | gateClearOverrun | lineHold | lineRelease
  | censusSet | sidingAbilities | sidingBlock | sidingUnblock | sidingDoubt
  | shunt | shuntCancel | shuntRetarget
  | clockSet | rosterAdd | rosterRemove | rosterClear | rosterAuto | depart
  | halt | haltRelease | restart | alarmAck | alarmAckAll
  deriving DecidableEq, Repr

/-- R171: the KIND byte of each request kind. -/
def Kind.code : Kind → Nat
  | .status => 0x01 | .subscribe => 0x02 | .portReset => 0x03 | .tableSelect => 0x04 | .tableNext => 0x05
  | .sectionDef => 0x08 | .pointDef => 0x09 | .sidingDef => 0x0A | .gateDef => 0x0B | .headshuntDef => 0x0C
  | .routeDef => 0x0D | .yardParams => 0x0E | .configCommit => 0x0F
  | .sectionForce => 0x10 | .sectionQuery => 0x11
  | .pointThrow => 0x12 | .pointBlock => 0x13 | .pointRestore => 0x14 | .pointQuery => 0x15
  | .routeSet => 0x18 | .routeCancel => 0x19 | .routeResume => 0x1A | .routeForceRelease => 0x1B
  | .arrivalIdentify => 0x20 | .arrivalDiscard => 0x21 | .arrivalAdd => 0x22 | .arrivalResume => 0x23
  | .gateHold => 0x24 | .gateRelease => 0x25 | .gateClearOverrun => 0x26 | .lineHold => 0x27 | .lineRelease => 0x28
  | .censusSet => 0x2A | .sidingAbilities => 0x2B | .sidingBlock => 0x2C | .sidingUnblock => 0x2D | .sidingDoubt => 0x2E
  | .shunt => 0x2F | .shuntCancel => 0x30 | .shuntRetarget => 0x31
  | .clockSet => 0x34 | .rosterAdd => 0x35 | .rosterRemove => 0x36 | .rosterClear => 0x37 | .rosterAuto => 0x38
  | .depart => 0x39 | .halt => 0x3A | .haltRelease => 0x3B | .restart => 0x3C | .alarmAck => 0x3D | .alarmAckAll => 0x3E

/-- Every kind, in the order of the kind table. -/
def Kind.all : List Kind :=
  [.status, .subscribe, .portReset, .tableSelect, .tableNext, .sectionDef, .pointDef, .sidingDef, .gateDef,
   .headshuntDef, .routeDef, .yardParams, .configCommit, .sectionForce, .sectionQuery, .pointThrow, .pointBlock,
   .pointRestore, .pointQuery, .routeSet, .routeCancel, .routeResume, .routeForceRelease] ++
  [.arrivalIdentify, .arrivalDiscard, .arrivalAdd, .arrivalResume, .gateHold, .gateRelease, .gateClearOverrun,
   .lineHold, .lineRelease, .censusSet, .sidingAbilities, .sidingBlock, .sidingUnblock, .sidingDoubt, .shunt,
   .shuntCancel, .shuntRetarget, .clockSet, .rosterAdd, .rosterRemove, .rosterClear, .rosterAuto, .depart,
   .halt, .haltRelease, .restart, .alarmAck, .alarmAckAll]

/-- R171: a KIND not in the table is no kind. -/
def Kind.ofCode? (n : Nat) : Option Kind := Kind.all.find? (fun k => k.code = n)

/-- R171's kind table: whether a port's role may make a request of this kind ("own" counts as yes here: the owner block
makes that refusal). -/
def Kind.permits (k : Kind) (p : Port) : Bool :=
  match k with
  | .status | .subscribe | .portReset | .tableSelect | .tableNext | .depart | .routeCancel => true
  | .sectionDef | .pointDef | .sidingDef | .gateDef | .headshuntDef | .routeDef | .yardParams | .configCommit
  | .censusSet | .sidingAbilities | .clockSet | .rosterAdd | .rosterRemove | .rosterClear | .rosterAuto => p = .planner
  | .lineHold | .lineRelease => p = .line
  | .shunt | .shuntCancel => p = .desk || p = .planner
  | .sectionForce | .sectionQuery | .pointThrow | .pointBlock | .pointRestore | .pointQuery
  | .routeSet | .routeResume | .routeForceRelease
  | .arrivalIdentify | .arrivalDiscard | .arrivalAdd | .arrivalResume | .gateHold | .gateRelease | .gateClearOverrun
  | .sidingBlock | .sidingUnblock | .sidingDoubt | .shuntRetarget
  | .halt | .haltRelease | .restart | .alarmAck | .alarmAckAll => p = .desk

/-- The requests the port answers itself (owner "Port" in the kind table). -/
def Kind.ownedByPort : Kind → Bool
  | .status | .subscribe | .portReset | .tableSelect | .tableNext => true
  | _ => false

/-- R2: the definition records and the commit, taken in CONFIG alone (R3 refuses them in RUN). -/
def Kind.loads : Kind → Bool
  | .sectionDef | .pointDef | .sidingDef | .gateDef | .headshuntDef | .routeDef | .yardParams | .configCommit => true
  | _ => false

/-! ## Codes of enumerated values (R181: the place, counted from 1, unless a table of 09 gives the code) -/

/-- Position codes (log entry 8). -/
def Position.code : Position → Nat | .normal => 1 | .reverse => 2
/-- The position a code names. -/
def Position.ofCode? (n : Nat) : Option Position := [.normal, .reverse].find? (fun x => x.code = n)

/-- Section kind codes (00 section 3.1). -/
def SectionKind.code : SectionKind → Nat
  | .ladder => 1 | .approach => 2 | .reader => 3 | .gateOut => 4 | .mouth => 5 | .body => 6 | .headShunt => 7
/-- The section kind a code names. -/
def SectionKind.ofCode? (n : Nat) : Option SectionKind :=
  [.ladder, .approach, .reader, .gateOut, .mouth, .body, .headShunt].find? (fun x => x.code = n)

/-- Edge-report selection codes (R5). -/
def Selection.code : Selection → Nat | .none => 1 | .occupy => 2 | .clear => 3 | .both => 4
/-- R5: an absent selection (code 0) is stored as NONE. -/
def Selection.ofCode? (n : Nat) : Option Selection :=
  if n = 0 then some .none else [.none, .occupy, .clear, .both].find? (fun x => x.code = n)

/-- Route kind codes (09 section 9.7, ROUTE_DEF payload). -/
def RouteKind.code : RouteKind → Nat
  | .arrival => 1 | .departure => 2 | .shuntOut => 3 | .shuntIn => 4 | .yard => 5
/-- The route kind a code names. -/
def RouteKind.ofCode? (n : Nat) : Option RouteKind :=
  [.arrival, .departure, .shuntOut, .shuntIn, .yard].find? (fun x => x.code = n)

/-- The code of a flag's value, "clear, set" (log entry 8). -/
def flagCode (b : Bool) : Nat := if b then 2 else 1

/-- R152, R28: a setting "on or off" (log entry 8). -/
def settingOfCode? (n : Nat) : Option Bool := if n = 1 then some true else if n = 2 then some false else none

/-- 09 section 9.7: bit 0 COVERED, bit 1 SUPPLY, bit 2 PIT, bit 3 SAND. -/
def Needs.ofLow (b : Byte) : Needs := ⟨b.getLsbD 0, b.getLsbD 1, b.getLsbD 2, b.getLsbD 3⟩
/-- The byte of a needs or abilities set. -/
def Needs.byte (n : Needs) : Nat :=
  (if n.covered then 1 else 0) + (if n.supply then 2 else 0) + (if n.pit then 4 else 0) + (if n.sand then 8 else 0)
/-- 09 section 9.7: bits 4–7 of a set byte are zero. -/
def Needs.ofByte? (b : Byte) : Option Needs := if b.toNat < 16 then some (Needs.ofLow b) else none

/-- The codes of the alarm kinds, in the order of R185's table. -/
def Alarm.kindCode : Alarm → Nat
  | .unroutedOccupancy _ => 1 | .pointLostUnderRoute _ => 2 | .pointOutOfService _ => 3 | .gateOverrun _ => 4
  | .passedAtStop _ => 5 | .irregularClearance _ _ => 6 | .wrongTramOut _ => 7 | .bodyMismatch _ => 8
  | .stranded _ => 9 | .departureAbandoned _ => 10

/-- The alarm that a kind code and an object name (R188); IRREGULAR_CLEARANCE has a route with a section. -/
def Alarm.ofFields? (kind object : Nat) (sect : Option Nat) : Option Alarm :=
  match kind, sect with
  | 1, none => some (.unroutedOccupancy object)
  | 2, none => some (.pointLostUnderRoute object)
  | 3, none => some (.pointOutOfService object)
  | 4, none => some (.gateOverrun object)
  | 5, none => some (.passedAtStop object)
  | 6, some n => some (.irregularClearance object n)
  | 7, none => some (.wrongTramOut object)
  | 8, none => some (.bodyMismatch object)
  | 9, none => some (.stranded object)
  | 10, none => some (.departureAbandoned object)
  | _, _ => none

/-! ## ROUTE_DEF payload (09 section 9.7, R180) -/

/-- The byte of a setting: bit 7 set, bit 6 clear, bit 5 position, bits 0–4 point number less 1. -/
def Setting.toByte (point : Nat) (pos : Position) : Byte :=
  BitVec.ofNat 8 (128 + (if pos = .reverse then 32 else 0) + (point - 1))

/-- The point and position of a setting byte; none where bit 7 is clear or bit 6 set. -/
def Setting.ofByte? (b : Byte) : Option Setting :=
  if b.getLsbD 7 && !b.getLsbD 6 then
    some ⟨b.toNat % 32 + 1, if b.getLsbD 5 then .reverse else .normal⟩
  else none

/-- R180: the path bytes, taken one by one onto the elements so far, latest first. A setting byte before the first section
byte, a fourth setting of one element, a setting byte with bit 6 set, or a section outside 1–64 is malformed. -/
def decodePath : List Byte → List Element → Option (List Element)
  | [], acc => some acc.reverse
  | b :: bs, acc =>
    if b.getLsbD 7 then
      match Setting.ofByte? b, acc with
      | some st, e :: es =>
        if e.settings.length < 3 then decodePath bs ({ e with settings := e.settings ++ [st] } :: es) else none
      | _, _ => none
    else if 1 ≤ b.toNat ∧ b.toNat ≤ 64 then decodePath bs (⟨b.toNat, []⟩ :: acc) else none

/-- The flank settings: a setting byte and the protected element index, 1–12, for each. -/
def decodeFlank : List Byte → Option (List Flank)
  | [] => some []
  | [_] => none
  | b :: i :: bs =>
    match Setting.ofByte? b, decodeFlank bs with
    | some st, some fs => if 1 ≤ i.toNat ∧ i.toNat ≤ 12 then some (⟨st.point, st.position, i.toNat⟩ :: fs) else none
    | _, _ => none

/-- An optional one-byte number: 0 is absent (09 section 9.7). -/
def opt8 (b : Byte) : Option Nat := if b.toNat = 0 then none else some b.toNat
/-- A two-byte number, high byte first. -/
def u16 (hi lo : Byte) : Nat := hi.toNat * 256 + lo.toNat
/-- An optional two-byte number: 0xFFFF is absent. -/
def opt16 (hi lo : Byte) : Option Nat := if u16 hi lo = 65535 then none else some (u16 hi lo)

/-- Whether an optional number lies in 1–top or is absent. -/
def inRange? (o : Option Nat) (top : Nat) : Bool := match o with | none => true | some n => 1 ≤ n ∧ n ≤ top

/-- The range of a from field by the route's kind (R10's table; a YARD route's from is absent at commit, log entry 39). -/
def RouteKind.fromTop : RouteKind → Nat | .arrival => 2 | .departure => 24 | .shuntOut => 24 | .shuntIn => 2 | .yard => 24
/-- The range of a to field by the route's kind. -/
def RouteKind.toTop : RouteKind → Nat | .arrival => 24 | .departure => 2 | .shuntOut => 2 | .shuntIn => 24 | .yard => 24

/-- R10's checks at load on the decoded record: every number in its range, the lists within their bounds. -/
def RouteDef.loadOk (number : Nat) (d : RouteDef) : Bool :=
  1 ≤ number ∧ number ≤ 128 ∧ 1 ≤ d.origin ∧ d.origin ≤ 48 ∧
  inRange? d.fromObj d.kind.fromTop ∧ inRange? d.toObj d.kind.toTop ∧
  inRange? d.approach 64 ∧ inRange? d.destination 64 ∧
  1 ≤ d.path.length ∧ d.path.length ≤ 12 ∧ d.flank.length ≤ 4

/-- R180: a ROUTE_DEF payload decodes to a route number and record, or is malformed. The last 2 × flank count bytes are the
flank settings, and the path must end where they begin. -/
def decodeRouteDef (payload : List Byte) : Option (Nat × RouteDef) :=
  match payload with
  | number :: kind :: origin :: fromB :: toB :: appr :: dest :: counts :: rest =>
    let n := counts.toNat % 16
    let m := counts.toNat / 16 % 8
    match RouteKind.ofCode? kind.toNat, decodePath (rest.take (rest.length - 2 * m)) [],
        decodeFlank (rest.drop (rest.length - 2 * m)) with
    | some k, some path, some flank =>
      let d : RouteDef := ⟨k, origin.toNat, opt8 fromB, opt8 toB, opt8 appr, opt8 dest, path, flank⟩
      if counts.toNat < 128 ∧ path.length = n ∧ flank.length = m ∧ 2 * m ≤ rest.length ∧ d.loadOk number.toNat then
        some (number.toNat, d)
      else none
    | _, _, _ => none
  | _ => none

/-- The bytes of one element. -/
def Element.bytes (e : Element) : List Byte :=
  BitVec.ofNat 8 e.sect :: e.settings.map (fun st => Setting.toByte st.point st.position)

/-- The ROUTE_DEF payload of a record (09 section 9.7), the form in which it is read back. -/
def encodeRouteDef (number : Nat) (d : RouteDef) : List Byte :=
  [BitVec.ofNat 8 number, BitVec.ofNat 8 d.kind.code, BitVec.ofNat 8 d.origin,
   BitVec.ofNat 8 (d.fromObj.getD 0), BitVec.ofNat 8 (d.toObj.getD 0),
   BitVec.ofNat 8 (d.approach.getD 0), BitVec.ofNat 8 (d.destination.getD 0),
   BitVec.ofNat 8 (d.path.length + 16 * d.flank.length)]
  ++ d.path.flatMap Element.bytes
  ++ d.flank.flatMap (fun f => [Setting.toByte f.point f.position, BitVec.ofNat 8 f.protects])

/-! ## Payloads of the other kinds (R181) -/

/-- A one-byte field whose presence bit is bit i of the mask; its bytes are ignored where the bit is clear. -/
def maskedField (mask i v : Nat) : Option Nat := if mask.testBit i then some v else none

/-- 09 section 9.7: the 20 bytes of YARD_PARAMS; bits 14–15 of the presence mask are zero. -/
def decodeParams (p : List Byte) : Option ParamFields :=
  match p with
  | [m1, m0, o1, o0, cc, cd, f1, f0, tr, s1, s0, rw, sp, r1, r0, cb, hm, cl, dl, ip] =>
    let m := u16 m1 m0
    if m < 16384 then
      some { occupyConfirm := maskedField m 0 (u16 o1 o0), clearConfirm := maskedField m 1 cc.toNat,
             coolDown := maskedField m 2 cd.toNat, failureWindow := maskedField m 3 (u16 f1 f0),
             timeRelease := maskedField m 4 tr.toNat, storeLimit := maskedField m 5 (u16 s1 s0),
             readerWait := maskedField m 6 rw.toNat, spacing := maskedField m 7 sp.toNat,
             capacityReserve := maskedField m 8 (u16 r1 r0), capacityBand := maskedField m 9 cb.toNat,
             queueHighMark := maskedField m 10 hm.toNat, callLead := maskedField m 11 cl.toNat,
             dueNoticeLead := maskedField m 12 dl.toNat, inversion := maskedField m 13 ip.toNat }
    else none
  | _ => none

/-- The entries of a CENSUS_SET list, five bytes each. -/
def decodeCensus : List Byte → Option (List CensusEntry)
  | [] => some []
  | f1 :: f0 :: len :: mand :: want :: rest =>
    (decodeCensus rest).map (fun es => ⟨u16 f1 f0, len.toNat, mand, want⟩ :: es)
  | _ => none

/-- The command a request frame of this kind and payload stands for; none where the payload's length lies outside the
kind's bounds (R171, R181), and also where a length within the bounds does not fit the payload's own count byte, or the object of
the alarm kind that an ALARM_ACK names: the port then refuses it BAD_ARGUMENT, in CONFIG and RUN alike (log entry 60, DESIGN
CHOICE). Field orders: log entries 8, 9 and 10. -/
def decodeRequest (k : Kind) (r : Req) (payload : List Byte) : Option Instr :=
  match k, payload with
  | .status, [] => some (.status r)
  | .subscribe, [g] => some (.subscribe r g)
  | .portReset, [] => some (.portReset r)
  | .tableSelect, [t, q, i] => some (.tableSelect r t.toNat q.toNat i.toNat)
  | .tableNext, [] => some (.tableNext r)
  | .sectionDef, [n, kd, g, sd, sel] => some (.sectionDef r n.toNat kd.toNat (opt8 g) (opt8 sd) sel.toNat)
  | .pointDef, [n, sc, lim] => some (.pointDef r n.toNat (opt8 sc) lim.toNat)
  | .sidingDef, [n, mo, bo, l1, l0, ab] => some (.sidingDef r n.toNat mo.toNat bo.toNat (u16 l1 l0) ab)
  | .gateDef, g :: sg :: rd :: cnt :: rest =>
    match rest.getLast? with
    | some out =>
      if rest.length = cnt.toNat + 1 ∧ 1 ≤ cnt.toNat ∧ cnt.toNat ≤ 4 then
        some (.gateDef r g.toNat sg.toNat rd.toNat (rest.dropLast.map BitVec.toNat) out.toNat)
      else none
    | none => none
  | .headshuntDef, [n, sc] => some (.headshuntDef r n.toNat sc.toNat)
  | .routeDef, p => if 9 ≤ p.length ∧ p.length ≤ 56 then some (.routeDef r p) else none
  | .yardParams, p => (decodeParams p).map (.yardParams r)
  | .configCommit, [] => some (.configCommit r)
  | .sectionForce, [st, sc] =>
    match settingOfCode? st.toNat with
    | some true => some (.sectionForceOn r sc.toNat)
    | some false => some (.sectionForceOff r sc.toNat)
    | none => none
  | .sectionQuery, [sc] => some (.sectionQuery r sc.toNat)
  | .pointThrow, [pt, pos] => some (.pointThrow r pt.toNat pos.toNat)
  | .pointBlock, [pt] => some (.pointBlock r pt.toNat)
  | .pointRestore, [pt] => some (.pointRestore r pt.toNat)
  | .pointQuery, [pt] => some (.pointQuery r pt.toNat)
  | .routeSet, [n] => some (.routeSet r n.toNat)
  | .routeCancel, [n] => some (.routeCancel r n.toNat)
  | .routeResume, [n] => some (.routeResume r n.toNat)
  | .routeForceRelease, [n] => some (.routeForceRelease r n.toNat)
  | .arrivalIdentify, [g, pos, f1, f0, len, ma, wa] =>
    some (.arrivalIdentify r g.toNat pos.toNat (u16 f1 f0) len.toNat ma wa)
  | .arrivalDiscard, [g, pos] => some (.arrivalDiscard r g.toNat pos.toNat)
  | .arrivalAdd, [g, f1, f0, len, ma, wa] => some (.arrivalAdd r g.toNat (u16 f1 f0) len.toNat ma wa)
  | .arrivalResume, [g] => some (.arrivalResume r g.toNat)
  | .gateHold, [g] => some (.gateHold r g.toNat)
  | .gateRelease, [g] => some (.gateRelease r g.toNat)
  | .gateClearOverrun, [g] => some (.gateClearOverrun r g.toNat)
  | .lineHold, [g] => some (.lineHold r g.toNat)
  | .lineRelease, [g] => some (.lineRelease r g.toNat)
  | .censusSet, sd :: cnt :: rest =>
    match decodeCensus rest with
    | some es => if es.length = cnt.toNat ∧ cnt.toNat ≤ 12 then some (.censusSet r sd.toNat es) else none
    | none => none
  | .sidingAbilities, [sd, ab] => some (.sidingAbilities r sd.toNat ab)
  | .sidingBlock, [sd] => some (.sidingBlock r sd.toNat)
  | .sidingUnblock, [sd] => some (.sidingUnblock r sd.toNat)
  | .sidingDoubt, [sd] => some (.sidingDoubt r sd.toNat)
  | .shunt, [f1, f0, tg] => some (.shunt r (u16 f1 f0) tg.toNat)
  | .shuntCancel, [e] => some (.shuntCancel r e.toNat)
  | .shuntRetarget, [e, tg] => some (.shuntRetarget r e.toNat tg.toNat)
  | .clockSet, [m1, m0] => some (.clockSet r (u16 m1 m0))
  | .rosterAdd, [d1, d0, u1, u0, g, f1, f0, ml] =>
    some (.rosterAdd r (u16 d1 d0) (u16 u1 u0) g.toNat (opt16 f1 f0) (opt8 ml))
  | .rosterRemove, [d1, d0] => some (.rosterRemove r (u16 d1 d0))
  | .rosterClear, [] => some (.rosterClear r)
  | .rosterAuto, [g, st] => some (.rosterAuto r g.toNat st.toNat)
  | .depart, [d1, d0, f1, f0, g] => some (.depart r (opt16 d1 d0) (opt16 f1 f0) (opt8 g))
  | .halt, [] => some (.halt r)
  | .haltRelease, [] => some (.haltRelease r)
  | .restart, [] => some (.restart r)
  | .alarmAck, [pos, kd, o] =>
    if kd.toNat = 6 ∨ kd.toNat = 7 ∨ kd.toNat = 10 then none
    else some (.alarmAck r pos.toNat kd.toNat o.toNat none)
  | .alarmAck, [pos, kd, o1, o0] =>
    if kd.toNat = 6 then some (.alarmAck r pos.toNat 6 o1.toNat (some o0.toNat))
    else if kd.toNat = 7 ∨ kd.toNat = 10 then some (.alarmAck r pos.toNat kd.toNat (u16 o1 o0) none)
    else none
  | .alarmAckAll, [] => some (.alarmAckAll r)
  | _, _ => none

/-! ## What the port checks of a request's payload, and the gate it names (R171) -/

/-- R171: the enumerated and set fields hold codes given in 09 section 9.7 (or by R181's rule). True of what has none. -/
def Instr.codesOk : Instr → Bool
  | .subscribe _ g => g.toNat < 128
  | .tableSelect _ t _ _ => 1 ≤ t ∧ t ≤ 10
  | .sectionDef _ _ k _ _ sel => (SectionKind.ofCode? k).isSome && (Selection.ofCode? sel).isSome
  | .sidingDef _ _ _ _ _ ab => (Needs.ofByte? ab).isSome
  | .routeDef _ p => match p with | _ :: k :: _ => (RouteKind.ofCode? k.toNat).isSome | _ => false
  | .yardParams _ f => match f.inversion with | none => true | some c => c = 1 ∨ c = 2
  | .pointThrow _ _ pos => (Position.ofCode? pos).isSome
  | .arrivalIdentify _ _ _ _ _ ma wa => (Needs.ofByte? ma).isSome && (Needs.ofByte? wa).isSome
  | .arrivalAdd _ _ _ _ ma wa => (Needs.ofByte? ma).isSome && (Needs.ofByte? wa).isSome
  | .censusSet _ _ es => es.all (fun e => (Needs.ofByte? e.mandatory).isSome && (Needs.ofByte? e.wanted).isSome)
  | .sidingAbilities _ _ ab => (Needs.ofByte? ab).isSome
  | .rosterAuto _ _ st => (settingOfCode? st).isSome
  | .alarmAck _ _ k o sc => (Alarm.ofFields? k o sc).isSome
  | _ => true

/-- R171: the gate a gate request (kinds 0x20 to 0x28) names. -/
def Instr.gateNamed : Instr → Option Nat
  | .arrivalIdentify _ g _ _ _ _ _ | .arrivalDiscard _ g _ | .arrivalAdd _ g _ _ _ _ | .arrivalResume _ g
  | .gateHold _ g | .gateRelease _ g | .gateClearOverrun _ g | .lineHold _ g | .lineRelease _ g => some g
  | _ => none

/-! ## The table's words -/

/-- The table gives no row any bits, so no word spells a command. -/
def decodeTableWord (_nbits _w : Nat) : Option Instr := none

end Sys2Proof
end

