-- ==== Sys2Proof/Machine/State.lean ====
section
/-! DEFINITION. The state of the SD-724, block by block, its reset value, and the (empty) ways a command can stop. -/

namespace Sys2Proof.Machine

/-! ## Outcomes -/

/-- Why the machine stops. The manual names no such state, so there is no constructor (log entry 41, safe). -/
inductive Fault where
  deriving DecidableEq, Repr

/-- Why a command has no meaning. -/
inductive Refusal where
  /-- Raised by an arm of `exec` whose command has no meaning yet; no arm uses it. Safe. -/
  | notModelled (mnemonic : String)
  deriving DecidableEq, Repr

/-! ## Description store (01) -/

/-- The operating states (01 section 1.1). -/
inductive OpState where | config | run
  deriving DecidableEq, Repr

/-- A SECTION_DEF record (R5). -/
structure SectionDef where
  kind : SectionKind
  gate : Option Nat
  siding : Option Nat
  selection : Selection
  deriving DecidableEq, Repr

/-- A POINT_DEF record (R6); the throw limit in seconds. -/
structure PointDef where
  sect : Option Nat
  throwLimit : Nat
  deriving DecidableEq, Repr

/-- A SIDING_DEF record (R7). -/
structure SidingDef where
  mouth : Nat
  body : Nat
  length : Nat
  abilities : Needs
  deriving DecidableEq, Repr

/-- A GATE_DEF record (R8). -/
structure GateDef where
  signal : Nat
  reader : Nat
  approach : List Nat
  gateOut : Nat
  deriving DecidableEq, Repr

/-- Inversion policy (R11, R130). -/
inductive Inversion where | hold | accept
  deriving DecidableEq, Repr

/-- A YARD_PARAMS record as stored: absent fields take their defaults, timer zeros are absent (R11). -/
structure ParamRec where
  occupyConfirm : Option Nat
  clearConfirm : Option Nat
  coolDown : Option Nat
  failureWindow : Option Nat
  timeRelease : Option Nat
  storeLimit : Option Nat
  readerWait : Option Nat
  spacing : Option Nat
  capacityReserve : Option Nat
  capacityBand : Option Nat
  queueHighMark : Option Nat
  callLead : Option Nat
  dueNoticeLead : Option Nat
  inversion : Option Inversion
  deriving DecidableEq, Repr

/-- The parameters in force (R11's table; occupy confirm time in ms, the other timers in s). -/
structure Params where
  occupyConfirm : Nat
  clearConfirm : Nat
  coolDown : Nat
  failureWindow : Nat
  timeRelease : Nat
  storeLimit : Nat
  readerWait : Nat
  spacing : Nat
  capacityReserve : Nat
  capacityBand : Nat
  queueHighMark : Nat
  callLead : Nat
  dueNoticeLead : Nat
  inversion : Inversion
  deriving DecidableEq, Repr

/-- The defaults of R11's table. -/
def Params.default : Params where
  occupyConfirm := 300
  clearConfirm := 3
  coolDown := 20
  failureWindow := 600
  timeRelease := 45
  storeLimit := 180
  readerWait := 2
  spacing := 2
  capacityReserve := 60
  capacityBand := 40
  queueHighMark := 3
  callLead := 4
  dueNoticeLead := 8
  inversion := .hold

/-- The description store: at most one record for each kind and number (R4). -/
structure Description where
  sections : Tbl SectionDef
  points : Tbl PointDef
  sidings : Tbl SidingDef
  gates : Tbl GateDef
  headShunts : Tbl Nat
  routes : Tbl RouteDef
  params : Option ParamRec
  deriving DecidableEq, Repr

/-- R1: emptied of every definition record. -/
def Description.empty : Description := ⟨[], [], [], [], [], [], none⟩

/-! ## Field lines (00 section 6) -/

/-- The levels that the outside holds on the part's inputs; position n − 1 is section or point n. -/
structure Pins where
  occupancy : List LineSignal
  normal : List DetectSignal
  reverse : List DetectSignal
  deriving DecidableEq, Repr

/-! ## Occupancy monitor (02) -/

/-- A pending change with the time left on its confirmation timer, in ms (R21). -/
structure Pending where
  toward : Occ
  left : Nat
  deriving DecidableEq, Repr

/-- A section record (02 section 2.1). -/
structure SectionRec where
  kind : SectionKind
  level : Occ
  confirmed : Occ
  pending : Option Pending
  noise : Bool
  forced : Bool
  reservedBy : Option Nat
  selection : Selection
  deriving DecidableEq, Repr

/-! ## Point controller (03) -/

/-- A point record (03 section 3.1); the drive output; and whether a POINT_LOST_UNDER_ROUTE condition stands (R47, log
entry 19). Timers in ms, the first-failure mark in seconds. -/
structure PointRec where
  sect : Nat
  throwLimit : Nat
  state : PointState
  reading : Reading
  commanded : Option Position
  lock : Option Nat
  drive : Option Position
  throwTimer : Option Nat
  coolTimer : Option Nat
  failures : Nat
  firstFailure : Option Nat
  lossLatch : Bool
  lossCondition : Bool
  deriving DecidableEq, Repr

/-! ## Route setter (04, 05) -/

/-- The states of a route table entry (R55). -/
inductive RouteState where | setting | proceed | occupied | timeRelease | degraded
  deriving DecidableEq, Repr

/-- The degraded causes of an entry, a set (R55, R97). -/
structure Causes where
  pointLost : Bool
  irregular : Bool
  unexpected : Bool
  deriving DecidableEq, Repr

/-- A route table entry (R55). The slot is its key. -/
structure RouteEntry where
  route : Nat
  kind : RouteKind
  owner : Owner
  state : RouteState
  tram : Option Nat
  front : Nat
  released : Nat
  causes : Causes
  irregular : List Nat
  withheld : List Nat
  timer : Option Nat
  purpose : Purpose
  deriving DecidableEq, Repr

/-- A route store entry (R56); the timer in ms. -/
structure StoreEntry where
  route : Nat
  owner : Owner
  purpose : Purpose
  tram : Option Nat
  timer : Nat
  deriving DecidableEq, Repr

/-- The route setter: table, store, its record of the halt flag (R190), and the route signals that show proceed. -/
structure RouteSetter where
  table : Tbl RouteEntry
  store : List StoreEntry
  halt : Bool
  proceed : List Nat
  deriving DecidableEq, Repr

/-! ## Gate controllers (06) -/

/-- The mark of an arrival record. -/
inductive Mark where | none | unread | conflict
  deriving DecidableEq, Repr

/-- The state of an arrival record. -/
inductive ArrivalState where | waiting | allocated | routed
  deriving DecidableEq, Repr

/-- An arrival record (06 section 6.1). `isWindow` says that the gate's window record is this record (log entry 32). -/
structure Arrival where
  fleet : Option Nat
  claimed : Option Nat
  length : Option Nat
  mandatory : Option Needs
  wanted : Option Needs
  mark : Mark
  state : ArrivalState
  siding : Option Nat
  slot : Option Nat
  paused : Bool
  readTime : Option Nat
  isWindow : Bool
  deriving DecidableEq, Repr

/-- The pass window (06 section 6.1). -/
inductive PassWindow where | closed | wait | read | unread | overrun | untimed
  deriving DecidableEq, Repr

/-- The reasons of NO_PLACE (R128, R130). -/
inductive PlaceReason where | needs | capacity | order
  deriving DecidableEq, Repr

/-- The held-reason set of a gate (06 section 6.1). -/
structure Held where
  queueHigh : Bool
  capacityLow : Bool
  unresolved : Bool
  overrun : Bool
  forced : Bool
  halt : Bool
  restart : Bool
  deriving DecidableEq, Repr

/-- A valid reader frame (R104). -/
structure ReaderFrame where
  toggle : Bool
  fleet : Nat
  length : Nat
  mandatory : Needs
  wanted : Needs
  deriving DecidableEq, Repr

/-- The early-read slot's frame with its timer, in ms (R110). -/
structure EarlyRead where
  frame : ReaderFrame
  left : Nat
  deriving DecidableEq, Repr

/-- The outbound read slot (R120). -/
structure OutRead where
  fleet : Nat
  route : Nat
  minute : Option Nat
  deriving DecidableEq, Repr

/-- A gate controller's state (06 section 6.1), its hold signal output, and its reader receivers (none: hunting).
`ownReport`: the report of a reservation that this gate's own taking has released again, not yet taken (log entry 47). -/
structure Gate where
  queue : List Arrival
  window : PassWindow
  waitTimer : Option Nat
  early : Option EarlyRead
  inToggle : Option Bool
  held : Held
  freeCapacity : Option Nat
  placeNone : Option PlaceReason
  lineHold : Bool
  outRead : Option OutRead
  outToggle : Option Bool
  holdProceed : Bool
  rxIn : Option (List Byte)
  rxOut : Option (List Byte)
  ownReport : Option StackReport
  deriving DecidableEq, Repr

/-! ## Stabling block (07) -/

/-- The state of a stack record. -/
inductive StackState where | reserved | stabled | called | leaving
  deriving DecidableEq, Repr

/-- The purpose of a stack record (07 section 7.1). -/
inductive StackPurpose where
  | gateArrival (gate : Nat)
  | shuntEntry (entry : Nat)
  | dutyDeparture (duty : Nat)
  | fleetDeparture (gate : Nat)
  deriving DecidableEq, Repr

/-- A stack record (07 section 7.1). `sinceRestart`: reserved or called by a claim taken after the restart was handed to
the stabling block and before it took it (R148, log entry 34). -/
structure StackRec where
  fleet : Nat
  length : Nat
  mandatory : Needs
  wanted : Needs
  state : StackState
  entered : Bool
  stabledAt : Option Nat
  purpose : Option StackPurpose
  sinceRestart : Bool
  deriving DecidableEq, Repr

/-- A siding's census. -/
inductive Census where | known | doubt
  deriving DecidableEq, Repr

/-- A siding record (07 section 7.1); the stack from the buffer stop outward, so the outermost record is the last. -/
structure SidingRec where
  mouth : Nat
  body : Nat
  length : Nat
  abilities : Needs
  census : Census
  blocked : Bool
  incoming : Option Nat
  stack : List StackRec
  deriving DecidableEq, Repr

/-- The phases of a shunt (07 section 7.6). -/
inductive ShuntPhase where | outWait | outMoving | inWait | inMoving
  deriving DecidableEq, Repr

/-- Where the stabling block knows the in route to stand. -/
inductive InStanding where | none | stored | table
  deriving DecidableEq, Repr

/-- A shunt table entry (07 section 7.6). The entry number, which is the head shunt's, is its key. -/
structure ShuntEntry where
  fleet : Nat
  source : Nat
  target : Nat
  owner : Owner
  phase : ShuntPhase
  outRoute : Nat
  inRoute : Option Nat
  standing : InStanding
  deriving DecidableEq, Repr

/-- The stabling block. `handed`: supervision has handed it a restart that it has not yet taken (R148, R190). -/
structure Stabling where
  sidings : Tbl SidingRec
  shunts : Tbl ShuntEntry
  handed : Bool
  deriving DecidableEq, Repr

/-! ## Roster block (08) -/

/-- Refusal reasons (R173). -/
inductive Reason where
  | notPermitted | wrongState | badArgument | unavailable | conflict | locked | occupied | inUse | bodyMismatch
  | duplicate | full | busy | blocked | doubt | noPlace | noTram | unknownTram | lineHeld
  deriving DecidableEq, Repr

/-- How far a departure has come (08 section 8.3). -/
inductive DepartProgress where | called | entered | pastMouth
  deriving DecidableEq, Repr

/-- A departure record (08 section 8.3). -/
structure Departure where
  fleet : Nat
  siding : Nat
  gate : Nat
  route : Nat
  owner : Owner
  slot : Option Nat
  progress : DepartProgress
  deriving DecidableEq, Repr

/-- A roster entry (08 section 8.3). Its state is CALLED exactly where it holds a departure record (`Duty.isCalled`). -/
structure Duty where
  duty : Nat
  due : Nat
  gate : Nat
  fleet : Option Nat
  minLength : Option Nat
  bound : Bool
  dueNotified : Bool
  lateNotified : Bool
  lastRefusal : Option Reason
  departure : Option Departure
  deriving DecidableEq, Repr

/-- The state field of a roster entry: CALLED, or else PLANNED. -/
def Duty.isCalled (d : Duty) : Bool := d.departure.isSome

/-- The roster block: clock (none is UNSET), minute timer in ms, roster, fleet departure list, auto-call flags of gates 1
and 2, copy of the halt flag. -/
structure Roster where
  clock : Option Nat
  minuteTimer : Option Nat
  duties : List Duty
  fleetDepartures : List Departure
  auto1 : Bool
  auto2 : Bool
  halt : Bool
  deriving DecidableEq, Repr

/-! ## Supervision (10) -/

/-- The state of an alarm entry. -/
inductive AlarmState where | raised | acked | cleared
  deriving DecidableEq, Repr

/-- An alarm list entry (10 section 10.1). -/
structure AlarmEntry where
  alarm : Alarm
  raiseTime : Option Nat
  count : Nat
  state : AlarmState
  deriving DecidableEq, Repr

/-- A restart in progress: the blocks that have not yet taken it, and the request it answers (log entry 38). -/
structure RestartProgress where
  waiting : List Block
  req : Req
  deriving DecidableEq, Repr

/-- Supervision (10 section 10.1). -/
structure Supervision where
  halt : Bool
  alarms : List AlarmEntry
  overflow : Bool
  output : Bool
  restart : Option RestartProgress
  deriving DecidableEq, Repr

/-! ## Control ports (09) -/

/-- Notice groups (R175). -/
inductive Group where | point | sect | route | gate | stabling | roster | alarm
  deriving DecidableEq, Repr

/-- A set of groups (R176). -/
structure Groups where
  point : Bool
  sect : Bool
  route : Bool
  gate : Bool
  stabling : Bool
  roster : Bool
  alarm : Bool
  deriving DecidableEq, Repr

/-- A number as an answer or a notice carries it: in one, two or four bytes (R181). -/
inductive Field where
  | u8 (n : Nat)
  | u16 (n : Nat)
  | u32 (n : Nat)
  deriving DecidableEq, Repr

/-- Answer statuses (R173). -/
inductive Status where | done | accepted | stored | refused
  deriving DecidableEq, Repr

/-- What an owner answers: status, reason, results (R173). -/
structure Ans where
  status : Status
  reason : Option Reason
  results : List Field
  deriving DecidableEq, Repr

/-- A request frame that passed its check (R168), as the receive queue holds it. -/
structure Frame where
  kind : Byte
  tag : Byte
  payload : List Byte
  deriving DecidableEq, Repr

/-- The request in hand (R171): its KIND and TAG, the operating state in which it was handed on (R14), whether its answer has
been formed, and whether a port reset has dropped that answer (R179). -/
structure InHand where
  kind : Byte
  tag : Byte
  handedIn : OpState
  answered : Bool
  dropped : Bool
  deriving DecidableEq, Repr

/-- A formed answer: the request's KIND and TAG, the answer, whether it is a BUSY answer, whether it belongs to the request
in hand, and whether a port reset has dropped it (R179). -/
structure Answer where
  kind : Byte
  tag : Byte
  ans : Ans
  busy : Bool
  ofHand : Bool
  dropped : Bool
  deriving DecidableEq, Repr

/-- A notice: group, notice code (R181), yard minute (none while UNSET), fields. -/
structure Notice where
  group : Group
  code : Nat
  minute : Option Nat
  fields : List Field
  deriving DecidableEq, Repr

/-- The frame a port is sending (R172). -/
inductive Outgoing where
  | answer (a : Answer)
  | notice (n : Notice)
  deriving DecidableEq, Repr

/-- The receiver (R168): hunting for SYNC, or the bytes taken since SYNC. -/
inductive Receiver where
  | hunt
  | frame (bytes : List Byte)
  deriving DecidableEq, Repr

/-- The tables of R177. -/
inductive TableName where
  | sections | points | routeTable | routeStore | stack | arrivals | roster | shunts | alarms | catalogue
  deriving DecidableEq, Repr

/-- The table cursor (R177). -/
structure Cursor where
  table : TableName
  qualifier : Nat
  index : Nat
  deriving DecidableEq, Repr

/-- The link rates (R167). -/
inductive LinkRate where | b38400 | b115200
  deriving DecidableEq, Repr

/-- A port's state (09 section 9.1), with the frame it is sending. -/
structure PortState where
  rate : LinkRate
  receiver : Receiver
  queue : List Frame
  inHand : Option InHand
  path : List Answer
  sending : Option Outgoing
  notices : List Notice
  subscription : Groups
  cursor : Option Cursor
  noticesLost : Bool
  lineError : Bool
  deriving DecidableEq, Repr

/-! ## The machine -/

/-- The whole state, one part for each block; `pending` is the queue of commands and `claims` the claims in flight between
blocks (log entry 1), both oldest first. `uptime` counts ms from power-on; the point controller's seconds count (R54) is
its whole seconds. -/
structure State where
  pending : List Instr
  claims : List Instr
  op : OpState
  uptime : Nat
  pins : Pins
  desc : Description
  inForce : Option Params
  sections : Tbl SectionRec
  points : Tbl PointRec
  route : RouteSetter
  gates : Tbl Gate
  stab : Stabling
  roster : Roster
  sup : Supervision
  desk : PortState
  planner : PortState
  line : PortState
  deriving DecidableEq, Repr

/-- R176: the power-on subscriptions. -/
def Groups.powerOn : Port → Groups
  | .desk => ⟨true, true, true, true, true, true, true⟩
  | .planner => ⟨false, false, false, false, true, true, true⟩
  | .line => ⟨false, false, false, true, false, true, false⟩

/-- R167: 38,400 bit/s for straps 00 and 01, 115,200 bit/s for 10 and 11. -/
def LinkRate.ofStraps (b : BitVec 2) : LinkRate := if b.getLsbD 1 then .b115200 else .b38400

/-- R179: a port after power-on reset. -/
def PortState.powerOn (p : Port) (straps : BitVec 2) : PortState where
  rate := LinkRate.ofStraps straps
  receiver := .hunt
  queue := []
  inHand := none
  path := []
  sending := none
  notices := []
  subscription := Groups.powerOn p
  cursor := none
  noticesLost := false
  lineError := false

/-- R82, R1: the route setter after power-on reset. -/
def RouteSetter.empty : RouteSetter := ⟨[], [], false, []⟩
/-- R148: the stabling block after power-on reset. -/
def Stabling.empty : Stabling := ⟨[], [], false⟩
/-- R166: the roster block after power-on reset. -/
def Roster.empty : Roster := ⟨none, none, [], [], false, false, false⟩
/-- R191: supervision after power-on reset. -/
def Supervision.empty : Supervision := ⟨false, [], false, false, none⟩

/-- Log entry 6 (DESIGN CHOICE, unsafe): until the outside changes them, every occupancy input shows its section free and
no detection input detects. -/
def Pins.idle : Pins := ⟨List.replicate 64 .free, List.replicate 32 .notDetecting, List.replicate 32 .notDetecting⟩

/-- R1: the part after a power-on reset that finds these pins and straps, with this queue of commands. -/
def State.afterPowerOn (pins : Pins) (straps : Straps) (pending : List Instr) : State where
  pending := pending
  claims := []
  op := .config
  uptime := 0
  pins := pins
  desc := .empty
  inForce := none
  sections := []
  points := []
  route := .empty
  gates := []
  stab := .empty
  roster := .empty
  sup := .empty
  desk := .powerOn .desk straps.desk
  planner := .powerOn .planner straps.planner
  line := .powerOn .line straps.line

/-- The machine right after reset; straps 00 and idle lines are log entry 6. -/
def State.reset : State := .afterPowerOn .idle ⟨0, 0, 0⟩ []

end Sys2Proof.Machine
end

