-- ==== Sys2Proof/Machine/Ops.lean ====
section
/-! DEFINITION. The named operations over tables and blocks: keyed tables, ports, claims in flight, notices (R175), alarm
reports (R182), the readings that every block takes of another (R17, R19). -/

namespace Sys2Proof

/-! ## Keyed tables -/

/-- The record held under a number. -/
def Tbl.find {α : Type} (k : Nat) : Tbl α → Option α
  | [] => none
  | (n, a) :: t => if n = k then some a else Tbl.find k t

/-- Store a record under a number, replacing as a whole any record held under it (R4). -/
def Tbl.put {α : Type} (k : Nat) (a : α) : Tbl α → Tbl α
  | [] => [(k, a)]
  | (n, b) :: t => if k < n then (k, a) :: (n, b) :: t else if k = n then (k, a) :: t else (n, b) :: Tbl.put k a t

/-- Remove the record held under a number. -/
def Tbl.del {α : Type} (k : Nat) (t : Tbl α) : Tbl α := t.filter (fun p => p.1 != k)

/-- Change the record held under a number; nothing where none is held. -/
def Tbl.adjust {α : Type} (k : Nat) (f : α → α) (t : Tbl α) : Tbl α :=
  t.map (fun p => if p.1 = k then (p.1, f p.2) else p)

/-- The record of lowest number at or above a number (R178). -/
def Tbl.fromIndex {α : Type} (k : Nat) (t : Tbl α) : Option (Nat × α) := t.find? (fun p => k ≤ p.1)

/-- The numbers under which records are held, rising. -/
def Tbl.keys {α : Type} (t : Tbl α) : List Nat := t.map Prod.fst

/-- The lowest of the numbers given under which no record is held (R63). -/
def Tbl.lowestFree {α : Type} (ks : List Nat) (t : Tbl α) : Option Nat := ks.find? (fun k => (Tbl.find k t).isNone)

namespace Machine

/-! ## Clock and parameters -/

/-- The yard minute as every block stamps it (R150); none while UNSET. -/
def State.minute (s : State) : Option Nat := s.roster.clock

/-- The point controller's seconds count (R54). -/
def State.seconds (s : State) : Nat := s.uptime / 1000

/-- The parameters in force (R11); the defaults stand in for the state in which none is in force, CONFIG. -/
def State.param (s : State) : Params := s.inForce.getD Params.default

/-! ## Updates, one for each part of the state -/

/-- Change the section record of a number. -/
def State.onSection (n : Nat) (f : SectionRec → SectionRec) (s : State) : State :=
  { s with sections := Tbl.adjust n f s.sections }

/-- Change the point record of a number. -/
def State.onPoint (n : Nat) (f : PointRec → PointRec) (s : State) : State :=
  { s with points := Tbl.adjust n f s.points }

/-- Change the route setter's state. -/
def State.onRoute (f : RouteSetter → RouteSetter) (s : State) : State := { s with route := f s.route }

/-- Change the route table entry of a slot. -/
def State.onEntry (slot : Nat) (f : RouteEntry → RouteEntry) (s : State) : State :=
  s.onRoute (fun r => { r with table := Tbl.adjust slot f r.table })

/-- Change a gate's state. -/
def State.onGate (g : Nat) (f : Gate → Gate) (s : State) : State := { s with gates := Tbl.adjust g f s.gates }

/-- Change the stabling block's state. -/
def State.onStab (f : Stabling → Stabling) (s : State) : State := { s with stab := f s.stab }

/-- Change a siding record. -/
def State.onSiding (n : Nat) (f : SidingRec → SidingRec) (s : State) : State :=
  s.onStab (fun b => { b with sidings := Tbl.adjust n f b.sidings })

/-- Change a shunt table entry. -/
def State.onShunt (h : Nat) (f : ShuntEntry → ShuntEntry) (s : State) : State :=
  s.onStab (fun b => { b with shunts := Tbl.adjust h f b.shunts })

/-- Change the roster block's state. -/
def State.onRoster (f : Roster → Roster) (s : State) : State := { s with roster := f s.roster }

/-- Change supervision's state. -/
def State.onSup (f : Supervision → Supervision) (s : State) : State := { s with sup := f s.sup }

/-- Change the description store. -/
def State.onDesc (f : Description → Description) (s : State) : State := { s with desc := f s.desc }

/-- Change what the outside holds on the input lines. -/
def State.onPins (f : Pins → Pins) (s : State) : State := { s with pins := f s.pins }

/-- A port's state. -/
def State.port (s : State) : Port → PortState
  | .desk => s.desk
  | .planner => s.planner
  | .line => s.line

/-- Change a port's state. -/
def State.onPort (p : Port) (f : PortState → PortState) (s : State) : State :=
  match p with
  | .desk => { s with desk := f s.desk }
  | .planner => { s with planner := f s.planner }
  | .line => { s with line := f s.line }

/-! ## Claims in flight -/

/-- Send a claim to the block that takes it in its own time (R24, R52, R76, R126, R183, R190). -/
def State.send (c : Instr) (s : State) : State := { s with claims := s.claims ++ [c] }

/-- A claim that is taken is no longer in flight: the oldest equal one leaves (log entry 1). -/
def State.take (c : Instr) (s : State) : State := { s with claims := s.claims.erase c }

/-- Raise an alarm: a claim on supervision (R182, R186). -/
def State.raise (a : Alarm) (s : State) : State := s.send (.alarmRaise a)

/-- Report that an alarm's condition has ended (R182, R187). -/
def State.endAlarm (a : Alarm) (s : State) : State := s.send (.alarmConditionEnd a)

/-! ## Notices -/

/-- Whether a subscription includes a group. -/
def Groups.has (g : Groups) : Group → Bool
  | .point => g.point
  | .sect => g.sect
  | .route => g.route
  | .gate => g.gate
  | .stabling => g.stabling
  | .roster => g.roster
  | .alarm => g.alarm

/-- R175: the copy of a notice to one port; `always` for the desk port and group ALARM. -/
def PortState.copyNotice (always : Bool) (n : Notice) (p : PortState) : PortState :=
  if p.subscription.has n.group || always then
    if p.notices.length < Config.noticeSize then { p with notices := p.notices ++ [n] }
    else { p with noticesLost := true }
  else p

/-- R175: post a notice with its group, its code (R181) and its fields, stamped with the yard minute (R150). -/
def State.post (g : Group) (code : Nat) (fields : List Field) (s : State) : State :=
  let n : Notice := ⟨g, code, s.minute, fields⟩
  { s with desk := s.desk.copyNotice (g = .alarm) n,
           planner := s.planner.copyNotice false n,
           line := s.line.copyNotice false n }

/-! ## Answers -/

/-- DONE with results. -/
def Ans.done (results : List Field := []) : Ans := ⟨.done, none, results⟩
/-- ACCEPTED with results. -/
def Ans.accepted (results : List Field := []) : Ans := ⟨.accepted, none, results⟩
/-- STORED with results. -/
def Ans.stored (results : List Field := []) : Ans := ⟨.stored, none, results⟩
/-- REFUSED with a reason and results. -/
def Ans.refused (r : Reason) (results : List Field := []) : Ans := ⟨.refused, some r, results⟩

/-- Whether the request in hand is the one of this kind and TAG, still unanswered. -/
def PortState.awaits (p : PortState) (kind tag : Byte) : Bool :=
  match p.inHand with
  | some h => h.kind = kind && h.tag = tag && !h.answered
  | none => false

/-- The answer an owner forms goes to the young end of the port's answer path (R172). Where it answers the request in
hand, that request is answered, and the answer is dropped if a port reset has said so (R179). A command that came with no
frame (log entry 5) is answered all the same. -/
def PortState.answer (kind tag : Byte) (a : Ans) (p : PortState) : PortState :=
  if p.awaits kind tag then
    { p with inHand := p.inHand.map (fun h => { h with answered := true }),
             path := p.path ++ [⟨kind, tag, a, false, true, (p.inHand.map InHand.dropped).getD false⟩] }
  else { p with path := p.path ++ [⟨kind, tag, a, false, false, false⟩] }

/-- The answer to a request of a kind. -/
def State.reply (k : Kind) (r : Req) (a : Ans) (s : State) : State :=
  s.onPort r.port (PortState.answer (BitVec.ofNat 8 k.code) r.tag a)

/-! ## What blocks read of each other -/

/-- R19: whether a section is confirmed OCCUPIED; a section with no record is read as not. -/
def State.isOccupied (s : State) (n : Nat) : Bool :=
  match Tbl.find n s.sections with
  | some r => r.confirmed = .occupied
  | none => false

/-- R19: whether a section is confirmed CLEAR. -/
def State.isClear (s : State) (n : Nat) : Bool :=
  match Tbl.find n s.sections with
  | some r => r.confirmed = .clear
  | none => false

/-- R19: the force flag of a section. -/
def State.isForced (s : State) (n : Nat) : Bool :=
  match Tbl.find n s.sections with
  | some r => r.forced
  | none => false

/-- R30: the slot that has reserved a section. -/
def State.reservedBy (s : State) (n : Nat) : Option Nat := (Tbl.find n s.sections).bind SectionRec.reservedBy

/-- R41: "section free", confirmed CLEAR and not forced. -/
def State.isFree (s : State) (n : Nat) : Bool := s.isClear n && !s.isForced n

/-- A point's state; none where the point is undefined. -/
def State.pointState (s : State) (n : Nat) : Option PointState := (Tbl.find n s.points).map PointRec.state

/-- Whether a point is OUT_OF_SERVICE. -/
def State.outOfService (s : State) (n : Nat) : Bool := s.pointState n = some .outOfService

/-- The state of a point detected in a position. -/
def posState : Position → PointState | .normal => .normal | .reverse => .reverse

/-- R66: a point counts as detected in a position when its state is NORMAL or REVERSE equal to it. -/
def State.detected (s : State) (n : Nat) (p : Position) : Bool := s.pointState n = some (posState p)

/-! ## Lookups of the description store (R17) -/

/-- The catalogue route of a number. -/
def State.routeDef (s : State) (n : Nat) : Option RouteDef := Tbl.find n s.desc.routes

/-- The route of a kind with these ends, at most one by the ROUTE_REPEATED check. -/
def State.lookup (s : State) (k : RouteKind) (fromObj toObj : Nat) : Option Nat :=
  (s.desc.routes.find? (fun p => p.2.kind = k && p.2.fromObj = some fromObj && p.2.toObj = some toObj)).map Prod.fst

/-- The section of the siding's or gate's own: the siding a section belongs to. -/
def State.sidingOf (s : State) (n : Nat) : Option Nat := (Tbl.find n s.desc.sections).bind SectionDef.siding

/-- The gate a section belongs to. -/
def State.gateOf (s : State) (n : Nat) : Option Nat := (Tbl.find n s.desc.sections).bind SectionDef.gate

end Machine

/-- The path and flank points of a route with the positions required, path in element order, then flank (R63). -/
def RouteDef.points (d : RouteDef) : List (Nat × Position) :=
  d.path.flatMap (fun e => e.settings.map (fun st => (st.point, st.position))) ++
  d.flank.map (fun f => (f.point, f.position))

/-- The path sections of a route in order. -/
def RouteDef.sections (d : RouteDef) : List Nat := d.path.map Element.sect

namespace Machine

/-- R60: the first forced path section or OUT_OF_SERVICE path or flank point, in the order in which R60 examines them. -/
def State.unavailableObject (s : State) (d : RouteDef) : Option YardObject :=
  (d.path.flatMap (fun e => YardObject.sect e.sect :: e.settings.map (fun st => YardObject.point st.point)) ++
    d.flank.map (fun f => YardObject.point f.point)).find?
    (fun o => match o with
      | .sect n => s.isForced n
      | .point n => s.outOfService n)


end Machine
end Sys2Proof
end

