-- ==== Sys2Proof/Machine/Operands.lean ====
section
/-! DEFINITION. The fields of answers and notices (R181), the codes of the values in them, the CRC (R168), and the bytes of a
frame on the line (09 section 9.7). -/

namespace Sys2Proof
namespace Machine

/-! ## Fields -/

/-- The bytes of a field, high byte first (09 section 9.7). -/
def Field.bytes : Field → List Byte
  | .u8 n => [BitVec.ofNat 8 n]
  | .u16 n => [BitVec.ofNat 8 (n / 256), BitVec.ofNat 8 n]
  | .u32 n => [BitVec.ofNat 8 (n / 16777216), BitVec.ofNat 8 (n / 65536), BitVec.ofNat 8 (n / 256), BitVec.ofNat 8 n]

/-- An optional one-byte number: absent is 0. -/
def f8 (o : Option Nat) : Field := .u8 (o.getD 0)
/-- An optional two-byte number: absent is 0xFFFF. -/
def f16 (o : Option Nat) : Field := .u16 (o.getD 65535)
/-- An optional four-byte number: absent is 0xFFFFFFFF. -/
def f32 (o : Option Nat) : Field := .u32 (o.getD 4294967295)
/-- A flag, "clear, set" (log entry 8). -/
def fFlag (b : Bool) : Field := .u8 (flagCode b)
/-- A needs or abilities set. -/
def fNeeds (n : Needs) : Field := .u8 n.byte
/-- An optional set; absent is 0, as an absent one-byte number (log entry 8). -/
def fNeeds? (n : Option Needs) : Field := .u8 ((n.map Needs.byte).getD 0)
/-- A list: a count byte followed by its entries. -/
def fList (l : List Field) : List Field := .u8 l.length :: l
/-- A list of one-byte numbers. -/
def fList8 (l : List Nat) : List Field := fList (l.map .u8)
/-- A list of fleet numbers. -/
def fList16 (l : List Nat) : List Field := fList (l.map .u16)

/-! ## Codes (R181: the place in the list of values, from 1; 0 for none or absent; log entry 8) -/

end Machine

open Machine

/-- Reading codes. -/
def Reading.code : Reading → Nat | .normal => 1 | .reverse => 2 | .none => 3 | .both => 4
/-- Point state codes. -/
def PointState.code : PointState → Nat
  | .normal => 1 | .reverse => 2 | .moving => 3 | .lost => 4 | .failed => 5 | .outOfService => 6
/-- Point cause codes. -/
def PointCause.code : PointCause → Nat
  | .throwStart => 1 | .reversal => 2 | .throwEnd => 3 | .limit => 4 | .coolDownEnd => 5 | .detection => 6
  | .block => 7 | .restore => 8 | .restart => 9
/-- CLEAR 1, OCCUPIED 2. -/
def Occ.code : Occ → Nat | .clear => 1 | .occupied => 2
/-- An OCCUPY edge 1, a CLEAR edge 2, by the state it leads to (R23). -/
def Occ.edgeCode : Occ → Nat | .occupied => 1 | .clear => 2
/-- Edge cause codes. -/
def EdgeCause.code : EdgeCause → Nat | .input => 1 | .force => 2 | .unforce => 3
/-- Owner codes. -/
def Owner.code : Owner → Nat | .desk => 1 | .planner => 2 | .line => 3 | .auto => 4
/-- Progress event codes, in the order of R77. -/
def Progress.code : Progress → Nat
  | .proceed => 1 | .firstEntered => 2 | .elementReleased _ => 3 | .complete => 4 | .failed _ => 5 | .expired => 6
  | .cancelled => 7 | .forceReleased => 8
/-- A purpose link: its kind by the table of 09 section 9.7 (NONE as absent, log entry 8), then its values in R55's order. -/
def Purpose.fields : Purpose → List Field
  | .gateArrival g f => [.u8 1, .u8 g, .u16 f]
  | .shuntEntry h f => [.u8 2, .u8 h, .u16 f]
  | .dutyDeparture d f => [.u8 3, .u16 d, .u16 f]
  | .fleetDeparture f g => [.u8 4, .u16 f, .u8 g]
  | .none => [.u8 0]
/-- Yard object: 1 a section, 2 a point, with its number. -/
def YardObject.fields : YardObject → List Field | .sect n => [.u8 1, .u8 n] | .point n => [.u8 2, .u8 n]
/-- The reason of a FAILED event with its object: UNAVAILABLE by R173's table, POINT by its place in R77's list. -/
def FailCause.fields : FailCause → List Field
  | .point n => [.u8 1, .u8 2, .u8 n]
  | .unavailable o => .u8 4 :: o.fields
/-- Stacking and siding causes (log entries 8 and 52). -/
def StackCause.code : StackCause → Nat
  | .reserved => 1 | .released => 2 | .called => 3 | .uncalled => 4 | .leaving => 5 | .left => 6 | .removed => 7
  | .moved => 8 | .stabled => 9 | .census => 10 | .abilities => 11 | .blocked => 12 | .unblocked => 13 | .doubt => 14
  | .restart => 15 | .doubtClaim => 16 | .bodyMismatch => 17 | .forceReleased => 18
/-- The object of an alarm (R185): a fleet takes two bytes, a route is followed by its section. -/
def Alarm.objectFields : Alarm → List Field
  | .unroutedOccupancy n => [.u8 n]
  | .pointLostUnderRoute n => [.u8 n]
  | .pointOutOfService n => [.u8 n]
  | .gateOverrun n => [.u8 n]
  | .passedAtStop n => [.u8 n]
  | .irregularClearance r n => [.u8 r, .u8 n]
  | .wrongTramOut f => [.u16 f]
  | .bodyMismatch n => [.u8 n]
  | .stranded n => [.u8 n]
  | .departureAbandoned f => [.u16 f]
/-- An alarm's kind and object. -/
def Alarm.fields (a : Alarm) : List Field := .u8 a.kindCode :: a.objectFields

namespace Machine

/-- Route state codes; REMOVED of ROUTE_STATE is 6, the place after them (log entry 59, DESIGN CHOICE). -/
def RouteState.code : RouteState → Nat
  | .setting => 1 | .proceed => 2 | .occupied => 3 | .timeRelease => 4 | .degraded => 5
/-- Purpose kind codes (09 section 9.7, siding-stack record). -/
def StackPurpose.kindCode : StackPurpose → Nat
  | .gateArrival _ => 1 | .shuntEntry _ => 2 | .dutyDeparture _ => 3 | .fleetDeparture _ => 4
/-- The gate, shunt entry, duty or gate number of a stack record's purpose. -/
def StackPurpose.value : StackPurpose → Nat
  | .gateArrival g => g | .shuntEntry h => h | .dutyDeparture d => d | .fleetDeparture g => g
/-- Degraded causes as a set byte: bit 0 POINT_LOST, bit 1 IRREGULAR, bit 2 UNEXPECTED_OCCUPANCY (R55's order). -/
def Causes.byte (c : Causes) : Nat :=
  (if c.pointLost then 1 else 0) + (if c.irregular then 2 else 0) + (if c.unexpected then 4 else 0)
/-- The held-reason set as a byte, bits in the order of the field table. -/
def Held.byte (h : Held) : Nat :=
  (if h.queueHigh then 1 else 0) + (if h.capacityLow then 2 else 0) + (if h.unresolved then 4 else 0) +
  (if h.overrun then 8 else 0) + (if h.forced then 16 else 0) + (if h.halt then 32 else 0) + (if h.restart then 64 else 0)
/-- Group codes (R175). -/
def Group.code : Group → Nat
  | .point => 0 | .sect => 1 | .route => 2 | .gate => 3 | .stabling => 4 | .roster => 5 | .alarm => 6
/-- A subscription as one bit per group code (R176). -/
def Groups.byte (g : Groups) : Nat :=
  (if g.point then 1 else 0) + (if g.sect then 2 else 0) + (if g.route then 4 else 0) + (if g.gate then 8 else 0) +
  (if g.stabling then 16 else 0) + (if g.roster then 32 else 0) + (if g.alarm then 64 else 0)
/-- The subscription a SUBSCRIBE byte stands for (R176). -/
def Groups.ofByte (b : Byte) : Groups :=
  ⟨b.getLsbD 0, b.getLsbD 1, b.getLsbD 2, b.getLsbD 3, b.getLsbD 4, b.getLsbD 5, b.getLsbD 6⟩
/-- Arrival mark codes. -/
def Mark.code : Mark → Nat | .none => 1 | .unread => 2 | .conflict => 3
/-- Arrival state codes. -/
def ArrivalState.code : ArrivalState → Nat | .waiting => 1 | .allocated => 2 | .routed => 3
/-- NO_PLACE reason codes. -/
def PlaceReason.code : PlaceReason → Nat | .needs => 1 | .capacity => 2 | .order => 3
/-- Stack state codes (09 section 9.7). -/
def StackState.code : StackState → Nat | .reserved => 1 | .stabled => 2 | .called => 3 | .leaving => 4
/-- Census codes. -/
def Census.code : Census → Nat | .known => 1 | .doubt => 2
/-- Shunt phase codes. -/
def ShuntPhase.code : ShuntPhase → Nat | .outWait => 1 | .outMoving => 2 | .inWait => 3 | .inMoving => 4
/-- In standing codes. -/
def InStanding.code : InStanding → Nat | .none => 1 | .stored => 2 | .table => 3
/-- Reason codes (R173). -/
def Reason.code : Reason → Nat
  | .notPermitted => 1 | .wrongState => 2 | .badArgument => 3 | .unavailable => 4 | .conflict => 5 | .locked => 6
  | .occupied => 7 | .inUse => 8 | .bodyMismatch => 9 | .duplicate => 10 | .full => 11 | .busy => 12 | .blocked => 13
  | .doubt => 14 | .noPlace => 15 | .noTram => 16 | .unknownTram => 17 | .lineHeld => 18
/-- Status codes (R173). -/
def Status.code : Status → Nat | .done => 0 | .accepted => 1 | .stored => 2 | .refused => 3
/-- Departure progress codes. -/
def DepartProgress.code : DepartProgress → Nat | .called => 1 | .entered => 2 | .pastMouth => 3
/-- Alarm state codes. -/
def AlarmState.code : AlarmState → Nat | .raised => 1 | .acked => 2 | .cleared => 3
/-- The code of REMOVED in ALARM_CLEARED and ALARM_ACKED (R187, R188): the place after the three alarm states (log entry 59,
DESIGN CHOICE). -/
def alarmRemovedCode : Nat := 4
/-- Table codes (R177). -/
def TableName.code : TableName → Nat
  | .sections => 1 | .points => 2 | .routeTable => 3 | .routeStore => 4 | .stack => 5 | .arrivals => 6 | .roster => 7
  | .shunts => 8 | .alarms => 9 | .catalogue => 10
/-- The table of a code. -/
def TableName.ofCode? (n : Nat) : Option TableName :=
  [.sections, .points, .routeTable, .routeStore, .stack, .arrivals, .roster, .shunts, .alarms, .catalogue].find?
    (fun x => x.code = n)

/-! ## Frames on the line -/

/-- One bit of R168's CRC: shift left, and take in the polynomial x^16+x^12+x^5+1 where a 1 falls out. -/
def crcBit (c : BitVec 16) : BitVec 16 := if c.getLsbD 15 then (c <<< 1) ^^^ 0x1021 else c <<< 1

/-- One byte of the CRC, not reflected. -/
def crcByte (c : BitVec 16) (b : Byte) : BitVec 16 :=
  crcBit (crcBit (crcBit (crcBit (crcBit (crcBit (crcBit (crcBit (c ^^^ (b.zeroExtend 16 <<< 8)))))))))

/-- R168: the CRC of a byte string, initial value 0xFFFF, no final inversion. -/
def crc16 (bs : List Byte) : BitVec 16 := bs.foldl crcByte 0xFFFF

/-- The CRC bytes, high byte first. -/
def crcBytes (bs : List Byte) : List Byte := [((crc16 bs) >>> 8).truncate 8, (crc16 bs).truncate 8]

/-- A frame: SYNC, LENGTH, the bytes from KIND on, and the CRC over LENGTH through the last of them (09 section 9.7). -/
def frameBytes (body : List Byte) : List Byte :=
  let l := BitVec.ofNat 8 body.length :: body
  0xA5 :: l ++ crcBytes l

/-- The bytes of an answer (09 section 9.7): KIND + 0x40, TAG, STATUS, REASON (0 with every status but REFUSED), results. For a
KIND of 0xC0 or more the sum is taken modulo 256 (log entry 51, DESIGN CHOICE). -/
def Answer.bytes (a : Answer) : List Byte :=
  frameBytes ([a.kind + 0x40, a.tag, BitVec.ofNat 8 a.ans.status.code,
    BitVec.ofNat 8 ((a.ans.reason.map Reason.code).getD 0)] ++ a.ans.results.flatMap Field.bytes)

/-- The bytes of a notice (09 section 9.7): KIND 0x80 plus the group code, notice code, yard minute, fields. -/
def Notice.bytes (n : Notice) : List Byte :=
  frameBytes ([BitVec.ofNat 8 (0x80 + n.group.code), BitVec.ofNat 8 n.code] ++ (f16 n.minute).bytes ++
    n.fields.flatMap Field.bytes)

/-- What a port sends on its line for the frame it is sending. -/
def Outgoing.bytes : Outgoing → List Byte
  | .answer a => a.bytes
  | .notice n => n.bytes

/-- A time left, in ms, as a one-byte number of seconds (R93, R94): whole seconds as they are, a part of a second as the
free value of log entry 27. -/
def secondsLeft (ms : Nat) : Field := .u8 (if ms % 1000 = 0 then ms / 1000 else Config.partSecond ms)

end Machine
end Sys2Proof
end

