-- ==== Sys2Proof/Machine/Flags.lean ====
section
/-! DEFINITION. The flags and output lines that are computed from the state: degraded causes and held reasons as sets, the
aspects of the signals (R71), the gate hold signals (R119), the alarm output (R189). -/

namespace Sys2Proof.Machine

/-! ## Sets of flags -/

/-- No degraded cause (R55). -/
def Causes.empty : Causes := ⟨false, false, false⟩
/-- Whether no cause is left (R99). -/
def Causes.isEmpty (c : Causes) : Bool := !c.pointLost && !c.irregular && !c.unexpected
/-- The union of two sets of causes: causes accumulate (R97). -/
def Causes.union (a b : Causes) : Causes :=
  ⟨a.pointLost || b.pointLost, a.irregular || b.irregular, a.unexpected || b.unexpected⟩
/-- Cause POINT_LOST alone. -/
def Causes.ofPointLost : Causes := ⟨true, false, false⟩
/-- Cause IRREGULAR alone. -/
def Causes.ofIrregular : Causes := ⟨false, true, false⟩
/-- Cause UNEXPECTED_OCCUPANCY alone. -/
def Causes.ofUnexpected : Causes := ⟨false, false, true⟩

/-- R14: the held-reason set at entry to RUN holds RESTART. -/
def Held.atEntry : Held := ⟨false, false, false, false, false, false, true⟩
/-- The empty held-reason set. -/
def Held.none : Held := ⟨false, false, false, false, false, false, false⟩
/-- Whether a held-reason set is empty (R119). -/
def Held.isEmpty (h : Held) : Bool :=
  !h.queueHigh && !h.capacityLow && !h.unresolved && !h.overrun && !h.forced && !h.halt && !h.restart

/-- R97's add: a set insertion on a rising list of element or point numbers (R55). -/
def insertNum (n : Nat) : List Nat → List Nat
  | [] => [n]
  | m :: l => if n < m then n :: m :: l else if n = m then m :: l else m :: insertNum n l

/-! ## Route signals -/

/-- Whether every path and flank point of a route is locked to a slot and detected in its required position, as the point records
stand (log entry 61, DEDUCED). -/
def State.pointsStand (s : State) (slot : Nat) (d : RouteDef) : Bool :=
  d.points.all (fun p => (Tbl.find p.1 s.points).bind PointRec.lock = some slot && s.detected p.1 p.2)

/-- R71: an entry with the origin in PROCEED, the halt flag clear as the route setter holds it, and every path and flank
point locked to it and detected in its required position. -/
def State.aspect (s : State) (signal : Nat) : Bool :=
  !s.route.halt && s.route.table.any (fun p =>
    decide (p.2.state = .proceed) &&
    match s.routeDef p.2.route with
    | some d => decide (d.origin = signal) && s.pointsStand p.1 d
    | none => false)

/-- The route signals that show proceed, of 48 (00 section 3). -/
def State.proceedSignals (s : State) : List Nat := (List.range' 1 48).filter s.aspect

/-- The aspect code: stop 1, proceed 2 (00 section 3). -/
def aspectCode (b : Bool) : Field := .u8 (if b then 2 else 1)

/-! ## Outputs, set at the end of every taking -/

/-- R119: the hold signal of a gate follows its held-reason set; a change posts GATE_OPEN or GATE_HELD with the set. -/
def State.setHoldSignal (g : Nat) (s : State) : State :=
  match Tbl.find g s.gates with
  | none => s
  | some x =>
    if x.held.isEmpty = x.holdProceed then s
    else
      let s := s.onGate g (fun x => { x with holdProceed := x.held.isEmpty })
      if x.held.isEmpty then s.post .gate 5 [.u8 g] else s.post .gate 4 [.u8 g, .u8 x.held.byte]

/-- R189: whether the alarm output is asserted. -/
def Supervision.asserts (v : Supervision) : Bool :=
  v.overflow || v.alarms.any (fun a => decide (a.state = .raised) || decide (a.state = .cleared))

/-- The output lines at the end of a taking: hold signals (R119), gate 1's notice first (log entry 65, DESIGN CHOICE), route signals
(R71), alarm output (R189). -/
def State.setOutputs (s : State) : State :=
  let s := (s.setHoldSignal 1).setHoldSignal 2
  { s with route := { s.route with proceed := s.proceedSignals }, sup := { s.sup with output := s.sup.asserts } }

end Sys2Proof.Machine
end

