-- ==== Sys2Proof/Machine/Tables.lean ====
section
/-! DEFINITION. The records of the ten tables as TABLE_NEXT and the queries return them (R31, R51, R80, R111, R147, R157, R178,
R182, 09 section 9.7). -/

namespace Sys2Proof.Machine

/-- A pending change and the time left on its timer, in ms (R31). -/
def pendingFields (p : Option Pending) : List Field :=
  [.u8 ((p.map (fun x => x.toward.code)).getD 0), f16 (p.map Pending.left)]

/-- The section record as SECTION_QUERY gives it (R31). -/
def sectionFields (n : Nat) (r : SectionRec) : List Field :=
  [.u8 n, .u8 r.kind.code, .u8 r.level.code, .u8 r.confirmed.code] ++ pendingFields r.pending ++
  [fFlag r.forced, f8 r.reservedBy, .u8 r.selection.code, fFlag r.noise]

/-- The time left on a point's throw or cool-down timer (R51). -/
def PointRec.timeLeft (r : PointRec) : Option Nat := r.throwTimer.orElse (fun _ => r.coolTimer)

/-- The point record as POINT_QUERY gives it (R51). -/
def pointFields (seconds n : Nat) (r : PointRec) : List Field :=
  [.u8 n, .u8 r.sect, .u8 r.throwLimit, .u8 r.state.code, .u8 r.reading.code, f8 (r.commanded.map Position.code),
   f8 r.lock, f16 r.timeLeft, .u8 r.failures, f32 (r.firstFailure.map (fun t => seconds - t)), fFlag r.lossLatch]

/-- A route table entry (R55, R80) with the aspect of its origin signal. The sets of numbers are lists in rising order with a
count byte (log entry 8). -/
def entryFields (slot : Nat) (e : RouteEntry) (aspect : Bool) : List Field :=
  [.u8 slot, .u8 e.route, .u8 e.kind.code, .u8 e.owner.code, .u8 e.state.code, f16 e.tram, .u8 e.front, .u8 e.released,
   .u8 e.causes.byte] ++ fList8 e.irregular ++ fList8 e.withheld ++
  [(e.timer.map secondsLeft).getD (.u8 0)] ++ e.purpose.fields ++ [aspectCode aspect]

/-- The aspect shown with an entry: that of its origin signal. -/
def State.entryAspect (s : State) (e : RouteEntry) : Bool :=
  match s.routeDef e.route with
  | some d => s.aspect d.origin
  | none => false

/-- A route store entry (R80). -/
def storeFields (pos : Nat) (e : StoreEntry) : List Field :=
  [.u8 pos, .u8 e.route, .u8 e.owner.code] ++ e.purpose.fields ++ [f16 e.tram, .u32 e.timer]

/-- The sum of length plus spacing over a stack (R125). -/
def stackLength (spacing : Nat) (stack : List StackRec) : Nat := (stack.map (fun r => r.length + spacing)).sum

/-- The free length of a siding (00 section 4). -/
def State.freeLength (s : State) (r : SidingRec) : Nat := r.length - stackLength s.param.spacing r.stack

/-- A siding's fields (07 section 7.1), the record of index 0. -/
def sidingFields (free n : Nat) (r : SidingRec) : List Field :=
  [.u8 n, .u8 r.mouth, .u8 r.body, .u16 r.length, fNeeds r.abilities, .u8 r.census.code, fFlag r.blocked, f8 r.incoming,
   .u16 free]

/-- The siding-stack record of 09 section 9.7. -/
def stackFields (pos : Nat) (r : StackRec) : List Field :=
  [.u8 pos, .u16 r.fleet, .u8 r.length, fNeeds r.mandatory, fNeeds r.wanted, .u8 r.state.code,
   .u8 (if r.entered then 1 else 0), f16 r.stabledAt, .u8 ((r.purpose.map StackPurpose.kindCode).getD 0),
   f16 (r.purpose.map StackPurpose.value)]

/-- The fields of an arrival record (06 section 6.1). -/
def arrivalFields (pos : Nat) (a : Arrival) : List Field :=
  [.u8 pos, f16 a.fleet, f16 a.claimed, f8 a.length, fNeeds? a.mandatory, fNeeds? a.wanted, .u8 a.mark.code,
   .u8 a.state.code, f8 a.siding, f8 a.slot, fFlag a.paused, f16 a.readTime]

/-- A departure record (08 section 8.3). -/
def departureFields (d : Departure) : List Field :=
  [.u16 d.fleet, .u8 d.siding, .u8 d.gate, .u8 d.route, .u8 d.owner.code, f8 d.slot, .u8 d.progress.code]

/-- PLANNED 1, CALLED 2. -/
def Duty.stateField (d : Duty) : Field := .u8 (if d.isCalled then 2 else 1)

/-- A roster entry with its departure record where present (R157). -/
def dutyFields (d : Duty) : List Field :=
  [.u16 d.duty, .u16 d.due, .u8 d.gate, f16 d.fleet, f8 d.minLength, d.stateField, fFlag d.bound, fFlag d.dueNotified,
   fFlag d.lateNotified, .u8 ((d.lastRefusal.map Reason.code).getD 0)] ++ (d.departure.map departureFields).getD []

/-- A shunt entry's owner by its place in 07 section 7.6's Value column, PLANNER then DESK (R181); no other master owns one. -/
def shuntOwnerCode : Owner → Nat | .planner => 1 | _ => 2

/-- A shunt table entry (07 section 7.6). -/
def shuntFields (h : Nat) (e : ShuntEntry) : List Field :=
  [.u8 h, .u16 e.fleet, .u8 e.source, .u8 e.target, .u8 (shuntOwnerCode e.owner), .u8 e.phase.code, .u8 e.outRoute, f8 e.inRoute,
   .u8 e.standing.code]

/-- An alarm list entry with its position (R182). -/
def alarmFields (pos : Nat) (a : AlarmEntry) : List Field :=
  [.u8 pos] ++ a.alarm.fields ++ [f16 a.raiseTime, .u8 a.count, .u8 a.state.code]

/-- A record of a list at its position, counted from 1. -/
def listRecord {α : Type} (f : Nat → α → List Field) (l : List α) (pos : Nat) : Option (Nat × List Field) :=
  if pos = 0 then none else (l[pos - 1]?).map (fun a => (pos, f pos a))

/-- A section table record: in CONFIG the loaded fields alone (R2), in RUN the section record with its gate and siding (R3,
R31; log entry 37, also for the run-time fields left out in CONFIG). -/
def State.sectionRecord (s : State) (n : Nat) (d : SectionDef) : List Field :=
  match Tbl.find n s.sections with
  | some r => sectionFields n r ++ [f8 d.gate, f8 d.siding]
  | none => [.u8 n, .u8 d.kind.code, f8 d.gate, f8 d.siding, .u8 d.selection.code]

/-- A point table record (R51, R2); in CONFIG the loaded fields alone, the run-time fields left out (log entry 37). -/
def State.pointRecord (s : State) (n : Nat) (d : PointDef) : List Field :=
  match Tbl.find n s.points with
  | some r => pointFields s.seconds n r
  | none => [.u8 n, f8 d.sect, .u8 d.throwLimit]

/-- R178: the first record of a cursor's table at or after its index, with the record's index. -/
def State.readTable (s : State) (c : Cursor) : Option (Nat × List Field) :=
  match c.table with
  | .sections => (Tbl.fromIndex c.index s.desc.sections).map (fun p => (p.1, s.sectionRecord p.1 p.2))
  | .points => (Tbl.fromIndex c.index s.desc.points).map (fun p => (p.1, s.pointRecord p.1 p.2))
  | .routeTable => (Tbl.fromIndex c.index s.route.table).map (fun p => (p.1, entryFields p.1 p.2 (s.entryAspect p.2)))
  | .routeStore => listRecord storeFields s.route.store c.index
  | .stack =>
    match Tbl.find c.qualifier s.stab.sidings with
    | some r => if c.index = 0 then some (0, sidingFields (s.freeLength r) c.qualifier r) else listRecord stackFields r.stack c.index
    | none => none
  | .arrivals =>
    match Tbl.find c.qualifier s.gates with
    | some g => listRecord arrivalFields g.queue c.index
    | none => none
  | .roster =>
    if c.index ≤ s.roster.duties.length then listRecord (fun _ d => dutyFields d) s.roster.duties c.index
    else (s.roster.fleetDepartures[c.index - s.roster.duties.length - 1]?).map (fun d => (c.index, departureFields d))
  | .shunts => (Tbl.fromIndex c.index s.stab.shunts).map (fun p => (p.1, shuntFields p.1 p.2))
  | .alarms => listRecord alarmFields s.sup.alarms c.index
  | .catalogue =>
    if c.index ≤ 1 then
      (s.routeDef c.qualifier).map (fun d => (1, (encodeRouteDef c.qualifier d).map (fun b => .u8 b.toNat)))
    else none

end Sys2Proof.Machine
end

