-- ==== Sys2Proof/Machine/Ports.lean ====
section
/-! DEFINITION. The control ports (09): receiver, receive queue, the checks and the hand-over of a request, the answers a port
forms itself, sending; how every taking ends (`State.settle`) and how every request is taken (`takeRequest`); and the meanings
of the line and port commands. -/

namespace Sys2Proof.Machine

/-- How a taking answers. -/
abbrev Result := Host.Outcome State Fault Refusal

/-! ## Requests the port answers itself (R174, R176–R179) -/

/-- A gate's held-reason set as STATUS gives it; empty in CONFIG and for an undefined gate (R2). -/
def State.heldByte (s : State) (g : Nat) : Nat := ((Tbl.find g s.gates).map (fun x => x.held.byte)).getD 0

/-- CONFIG 1, RUN 2. -/
def OpState.code : OpState → Nat | .config => 1 | .run => 2

/-- R174: operating state, halt flag, held-reason sets, alarm count and overflow, the port's own flags, clock; the port's
flags are cleared in the same taking. -/
def takeStatus (p : Port) (s : State) : State × Ans :=
  (s.onPort p (fun q => { q with noticesLost := false, lineError := false }),
   .done [.u8 s.op.code, fFlag s.sup.halt, .u8 (s.heldByte 1), .u8 (s.heldByte 2), .u8 s.sup.alarms.length,
          fFlag s.sup.overflow, fFlag (s.port p).noticesLost, fFlag (s.port p).lineError, f16 s.minute])

/-- R176: the set replaces the subscription; the answer gives the set now in force. -/
def takeSubscribe (p : Port) (groups : Byte) (s : State) : State × Ans :=
  (s.onPort p (fun q => { q with subscription := Groups.ofByte groups }), .done [.u8 (Groups.ofByte groups).byte])

/-- R179: what a port reset does to the port, by request or by break. The answer of the request in hand is dropped, formed
or not, unless it is the PORT_RESET itself (`ownRequest`). -/
def PortState.reset (ownRequest : Bool) (q : PortState) : PortState :=
  { q with
    queue := []
    notices := []
    path := (q.path.filter (fun a => !a.busy)).map (fun a => if a.ofHand then { a with dropped := true } else a)
    inHand := q.inHand.map (fun h => if ownRequest then h else { h with dropped := true })
    cursor := none
    noticesLost := false
    lineError := false }

/-- R179: PORT_RESET, answered DONE. -/
def takePortReset (r : Req) (s : State) : State × Ans :=
  (s.onPort r.port (fun q => q.reset (q.awaits (BitVec.ofNat 8 Kind.portReset.code) r.tag)), .done)

/-- R177: whether a table may be selected in CONFIG. -/
def TableName.inConfig : TableName → Bool
  | .sections | .points | .catalogue => true
  | _ => false

/-- R177: TABLE_SELECT. A start index of 0 is refused before the operating state is looked at (log entry 48, DESIGN CHOICE). -/
def takeTableSelect (p : Port) (table qualifier index : Nat) (s : State) : State × Ans :=
  match TableName.ofCode? table with
  | none => (s, .refused .badArgument)
  | some t =>
    if index = 0 ∧ t ≠ .stack then (s, .refused .badArgument)
    else if s.op = .config ∧ !t.inConfig then (s, .refused .wrongState)
    else if (t = .stack ∧ (Tbl.find qualifier s.desc.sidings).isNone) ∨
        (t = .arrivals ∧ (Tbl.find qualifier s.desc.gates).isNone) then (s, .refused .badArgument)
    else (s.onPort p (fun q => { q with cursor := some ⟨t, qualifier, index⟩ }), .done)

/-- R178: TABLE_NEXT. -/
def takeTableNext (p : Port) (s : State) : State × Ans :=
  match (s.port p).cursor with
  | none => (s, .refused .wrongState)
  | some c =>
    match s.readTable c with
    | none => (s, .done [.u8 0])
    | some (i, fields) =>
      (s.onPort p (fun q => { q with cursor := some { c with index := i + 1 } }),
       .done (.u8 c.table.code :: .u8 i :: fields))

/-- The port-owned requests, taken as the port takes them from its queue (log entry 17). -/
def takePortOwned (i : Instr) (s : State) : State × Ans :=
  match i with
  | .status r => takeStatus r.port s
  | .subscribe r g => takeSubscribe r.port g s
  | .portReset r => takePortReset r s
  | .tableSelect r t q n => takeTableSelect r.port t q n s
  | .tableNext r => takeTableNext r.port s
  | _ => (s, .refused .badArgument)

/-! ## Checks and hand-over (R171) -/

/-- R171's checks by the port, after the kind, in an operating state: permission, codes, and in RUN the gate named. -/
def State.portCheck (s : State) (op : OpState) (k : Kind) (p : Port) (i : Instr) : Option Reason :=
  if !k.permits p then some .notPermitted
  else if !i.codesOk then some .badArgument
  else match i.gateNamed with
    | some g => if op = .run ∧ (Tbl.find g s.desc.gates).isNone then some .badArgument else none
    | none => none

/-- R14: the operating state in which a request is taken: that in which its port handed it on, so a request handed on before a
commit is answered is taken in CONFIG; the present state for a command that came with no frame (log entry 5). -/
def State.takenIn (s : State) (k : Kind) (r : Req) : OpState :=
  match s.op, (s.port r.port).inHand with
  | .run, some h => if (s.port r.port).awaits (BitVec.ofNat 8 k.code) r.tag then h.handedIn else .run
  | op, _ => op

/-- R2, R3: the owner's WRONG_STATE: a definition record or a commit once the part is in RUN, any other owner's request where
it is taken in CONFIG. -/
def State.stateCheck (s : State) (k : Kind) (r : Req) : Option Reason :=
  if k.loads then if s.op = .run then some .wrongState else none
  else if k.ownedByPort then none
  else if s.takenIn k r = .config then some .wrongState else none

/-- R171: with no request in hand, the oldest request is taken from the queue, checked, and handed to its owner (a claim in
flight) or answered by the port. -/
def State.handOver (p : Port) (s : State) : State :=
  match (s.port p).inHand, (s.port p).queue with
  | none, f :: rest =>
    let s := s.onPort p (fun q => { q with queue := rest, inHand := some ⟨f.kind, f.tag, s.op, false, false⟩ })
    let refuse (r : Reason) := s.onPort p (PortState.answer f.kind f.tag (.refused r))
    match Kind.ofCode? f.kind.toNat with
    | none => refuse .badArgument
    | some k =>
      if !k.permits p then refuse .notPermitted
      else match decodeRequest k ⟨p, f.tag⟩ f.payload with
        | none => refuse .badArgument
        | some i =>
          match s.portCheck s.op k p i with
          | some r => refuse r
          | none =>
            if k.ownedByPort then
              (takePortOwned i s).1.onPort p (PortState.answer f.kind f.tag (takePortOwned i s).2)
            else s.send i
  | _, _ => s

/-! ## Sending (R172) -/

/-- R172: an idle line takes the oldest answer, or failing that the oldest notice. An answer that a port reset has dropped
is passed over at its turn, and the request in hand ends with it (R179, log entry 15). -/
def State.pump (p : Port) : Nat → State → State
  | 0, s => s
  | fuel + 1, s =>
    let s := s.handOver p
    match (s.port p).sending, (s.port p).path, (s.port p).notices with
    | none, a :: rest, _ =>
      if a.dropped then
        State.pump p fuel (s.onPort p (fun q => { q with path := rest, inHand := if a.ofHand then none else q.inHand }))
      else s.onPort p (fun q => { q with path := rest, sending := some (.answer a) })
    | none, [], n :: rest => s.onPort p (fun q => { q with notices := rest, sending := some (.notice n) })
    | _, _, _ => s

/-- A port goes on as far as it can: each pass but the last takes an answer or a queued request away. An answer that the taking formed
goes before a notice that it posted earlier (log entry 68, DESIGN CHOICE). -/
def State.goOn (p : Port) (s : State) : State := s.pump p ((s.port p).path.length + (s.port p).queue.length + 1)

/-- How every taking ends: the output lines are set, and the ports go on sending, the desk's, the planner's, the line's (log entry 65,
DESIGN CHOICE). An idle line begins to send here, after all that the taking posts and answers, and not at the first of it (R172; log
entry 68, DESIGN CHOICE). -/
def State.settle (s : State) : State := ((s.setOutputs.goOn .desk).goOn .planner).goOn .line

/-- A taking that ends in a state. -/
def done (s : State) : Result := .next s.settle

/-- The taking of a request by its owner: the port's checks (R171) stand before the owner's state check (R2, R3, R14) and the
owner's own decision. The request leaves the claims in flight, and its answer goes to its port. -/
def takeRequest (i : Instr) (k : Kind) (r : Req) (s : State) (owner : State → State × Ans) : Result :=
  let s := s.take i
  match s.portCheck (s.takenIn k r) k r.port i with
  | some why => done (s.reply k r (.refused why))
  | none =>
    match s.stateCheck k r with
    | some why => done (s.reply k r (.refused why))
    | none => done ((owner s).1.reply k r (owner s).2)

/-! ## The receiver (R167, R168, R170) -/

/-- The BUSY answers of a port, the one being sent included (log entry 14). -/
def PortState.busyCount (q : PortState) : Nat :=
  (q.path.filter Answer.busy).length + (match q.sending with | some (.answer a) => if a.busy then 1 else 0 | _ => 0)

/-- R170: a valid frame joins the receive queue; with the queue full it is answered BUSY, or discarded with the line-error
flag where that would be a fifth BUSY answer. -/
def PortState.acceptFrame (f : Frame) (q : PortState) : PortState :=
  if q.queue.length < Config.receiveSize then { q with queue := q.queue ++ [f] }
  else if q.busyCount < Config.busySize then
    { q with path := q.path ++ [⟨f.kind, f.tag, .refused .busy, true, false, false⟩] }
  else { q with lineError := true }

/-- The frame that LENGTH, LENGTH further bytes and two CRC bytes make, where its CRC matches (R168). -/
def checkFrame (bytes : List Byte) : Option Frame :=
  let body := bytes.take (bytes.length - 2)
  if bytes.drop (bytes.length - 2) = crcBytes body then
    match body with
    | _ :: kind :: tag :: payload => some ⟨kind, tag, payload⟩
    | _ => none
  else none

/-- One character at the receiver (R167, R168). -/
def PortState.receive (c : LineChar) (q : PortState) : PortState :=
  match q.receiver with
  | .hunt => if c.stopHigh ∧ c.byte = 0xA5 then { q with receiver := .frame [] } else q
  | .frame bs =>
    if !c.stopHigh then { q with receiver := .hunt, lineError := true }
    else
      let bytes := bs ++ [c.byte]
      let len := (bytes.headD 0).toNat
      if bytes.length = 1 ∧ (len < 2 ∨ 58 < len) then { q with receiver := .hunt, lineError := true }
      else if bytes.length = len + 3 then
        match checkFrame bytes with
        | some f => ({ q with receiver := .hunt }).acceptFrame f
        | none => { q with receiver := .hunt, lineError := true }
      else { q with receiver := .frame bytes }

/-! ## Meanings -/

/-- POWER_ON_RESET (R1, R54, R82, R124, R148, R166, R179, R191): everything but the outside's pins and commands. -/
def execPowerOnReset (straps : Straps) (s : State) : Result :=
  done (.afterPowerOn s.pins straps s.pending)

/-- CONTROL_FRAME (R167, R168, R170, R171): the characters of a port's line, one after another, in one taking, at whose end the port
sends (log entry 68, DESIGN CHOICE). -/
def execControlFrame (p : Port) (chars : List LineChar) (s : State) : Result :=
  done (chars.foldl (fun s c => (s.onPort p (PortState.receive c)).handOver p) s)

/-- FRAME_GAP (R168): a frame being assembled is discarded. -/
def execFrameGap (p : Port) (s : State) : Result :=
  done (s.onPort p (fun q =>
    match q.receiver with
    | .hunt => q
    | .frame _ => { q with receiver := .hunt, lineError := true }))

/-- BREAK (R169): a port reset with the receiver in HUNT; a break is not answered. -/
def execLineBreak (p : Port) (s : State) : Result :=
  done (s.onPort p (fun q => { q.reset false with receiver := .hunt }))

/-- FRAME_SENT (R172, R171): the frame being sent has ended; where it was the answer of the request in hand, the next
request may be taken. -/
def execFrameSent (p : Port) (s : State) : Result :=
  done (s.onPort p (fun q =>
    match q.sending with
    | none => q
    | some (.notice _) => { q with sending := none }
    | some (.answer a) => { q with sending := none, inHand := if a.ofHand then none else q.inHand }))

/-- STATUS (R174). -/
def execStatus (r : Req) (s : State) : Result := takeRequest (.status r) .status r s (takeStatus r.port)

/-- SUBSCRIBE (R176). -/
def execSubscribe (r : Req) (groups : Byte) (s : State) : Result :=
  takeRequest (.subscribe r groups) .subscribe r s (takeSubscribe r.port groups)

/-- PORT_RESET (R179). -/
def execPortReset (r : Req) (s : State) : Result := takeRequest (.portReset r) .portReset r s (takePortReset r)

/-- TABLE_SELECT (R177). -/
def execTableSelect (r : Req) (table qualifier index : Nat) (s : State) : Result :=
  takeRequest (.tableSelect r table qualifier index) .tableSelect r s (takeTableSelect r.port table qualifier index)

/-- TABLE_NEXT (R178). -/
def execTableNext (r : Req) (s : State) : Result := takeRequest (.tableNext r) .tableNext r s (takeTableNext r.port)

end Sys2Proof.Machine
end

