-- ==== Sys2Proof/Machine/Store.lean ====
section
/-! DEFINITION. The description store (01): loading (R4–R11), the commit checks (R12, R13), entry to RUN (R14). -/

namespace Sys2Proof.Machine

/-! ## Loading -/

/-- Whether a number lies in 1–top. -/
def within (n top : Nat) : Bool := 1 ≤ n && n ≤ top

/-- R4: a record that passes its field checks is stored and answered DONE, any other is refused BAD_ARGUMENT. -/
def load (ok : Bool) (store : Description → Description) (s : State) : State × Ans :=
  if ok then (s.onDesc store, .done) else (s, .refused .badArgument)

/-- SECTION_DEF (R5). -/
def takeSectionDef (number kind : Nat) (gate siding : Option Nat) (selection : Nat) (s : State) : State × Ans :=
  match SectionKind.ofCode? kind, Selection.ofCode? selection with
  | some k, some sel =>
    load (within number 64 && inRange? gate 2 && inRange? siding 24)
      (fun d => { d with sections := Tbl.put number ⟨k, gate, siding, sel⟩ d.sections }) s
  | _, _ => (s, .refused .badArgument)

/-- POINT_DEF (R6): a throw limit of 0 is stored as 6 s, and one outside 2–15 s refuses the record. -/
def takePointDef (number : Nat) (sect : Option Nat) (throwLimit : Nat) (s : State) : State × Ans :=
  load (within number 32 && inRange? sect 64 && (throwLimit = 0 || (2 ≤ throwLimit && throwLimit ≤ 15)))
    (fun d => { d with points := Tbl.put number ⟨sect, if throwLimit = 0 then 6 else throwLimit⟩ d.points }) s

/-- SIDING_DEF (R7): the usable length is loaded as sent. -/
def takeSidingDef (number mouth body length : Nat) (abilities : Byte) (s : State) : State × Ans :=
  match Needs.ofByte? abilities with
  | some ab =>
    load (within number 24 && within mouth 64 && within body 64 && length ≤ 65535)
      (fun d => { d with sidings := Tbl.put number ⟨mouth, body, length, ab⟩ d.sidings }) s
  | none => (s, .refused .badArgument)

/-- GATE_DEF (R8): 1 to 4 approach sections. -/
def takeGateDef (number signal reader : Nat) (approach : List Nat) (gateOut : Nat) (s : State) : State × Ans :=
  load (within number 2 && within signal 48 && within reader 64 && within approach.length 4 &&
      approach.all (fun n => within n 64) && within gateOut 64)
    (fun d => { d with gates := Tbl.put number ⟨signal, reader, approach, gateOut⟩ d.gates }) s

/-- HEADSHUNT_DEF (R9). -/
def takeHeadshuntDef (number sect : Nat) (s : State) : State × Ans :=
  load (within number 2 && within sect 64) (fun d => { d with headShunts := Tbl.put number sect d.headShunts }) s

/-- ROUTE_DEF (R10, R180). -/
def takeRouteDef (payload : List Byte) (s : State) : State × Ans :=
  match decodeRouteDef payload with
  | some (n, r) => load true (fun d => { d with routes := Tbl.put n r d.routes }) s
  | none => (s, .refused .badArgument)

/-- R11: a timer field's zero is taken as absent. -/
def timerField (o : Option Nat) : Option Nat := if o = some 0 then none else o

/-- R11: a present field lies in its range. -/
def fieldIn (o : Option Nat) (lo hi : Nat) : Bool := match o with | none => true | some n => lo ≤ n && n ≤ hi

/-- R11: the record a YARD_PARAMS payload stands for. -/
def ParamRec.ofFields (f : ParamFields) : ParamRec where
  occupyConfirm := timerField f.occupyConfirm
  clearConfirm := timerField f.clearConfirm
  coolDown := timerField f.coolDown
  failureWindow := timerField f.failureWindow
  timeRelease := timerField f.timeRelease
  storeLimit := timerField f.storeLimit
  readerWait := timerField f.readerWait
  spacing := f.spacing
  capacityReserve := f.capacityReserve
  capacityBand := f.capacityBand
  queueHighMark := f.queueHighMark
  callLead := f.callLead
  dueNoticeLead := f.dueNoticeLead
  inversion := f.inversion.map (fun c => if c = 2 then .accept else .hold)

/-- The parameters a record puts in force: each absent field takes its default (R11). -/
def ParamRec.inForce (r : ParamRec) : Params where
  occupyConfirm := r.occupyConfirm.getD Params.default.occupyConfirm
  clearConfirm := r.clearConfirm.getD Params.default.clearConfirm
  coolDown := r.coolDown.getD Params.default.coolDown
  failureWindow := r.failureWindow.getD Params.default.failureWindow
  timeRelease := r.timeRelease.getD Params.default.timeRelease
  storeLimit := r.storeLimit.getD Params.default.storeLimit
  readerWait := r.readerWait.getD Params.default.readerWait
  spacing := r.spacing.getD Params.default.spacing
  capacityReserve := r.capacityReserve.getD Params.default.capacityReserve
  capacityBand := r.capacityBand.getD Params.default.capacityBand
  queueHighMark := r.queueHighMark.getD Params.default.queueHighMark
  callLead := r.callLead.getD Params.default.callLead
  dueNoticeLead := r.dueNoticeLead.getD Params.default.dueNoticeLead
  inversion := r.inversion.getD Params.default.inversion

/-- R11: ranges, and a clear confirm time longer than the occupy confirm time. -/
def ParamRec.ok (r : ParamRec) : Bool :=
  fieldIn r.occupyConfirm 100 2000 && fieldIn r.clearConfirm 1 10 && fieldIn r.coolDown 10 60 &&
  fieldIn r.failureWindow 60 3600 && fieldIn r.timeRelease 10 120 && fieldIn r.storeLimit 30 600 &&
  fieldIn r.readerWait 1 5 && fieldIn r.spacing 1 5 && fieldIn r.capacityReserve 0 400 &&
  fieldIn r.capacityBand 0 200 && fieldIn r.queueHighMark 1 4 && fieldIn r.callLead 0 30 &&
  fieldIn r.dueNoticeLead 0 30 && r.inForce.occupyConfirm < r.inForce.clearConfirm * 1000

/-- YARD_PARAMS (R11). -/
def takeYardParams (f : ParamFields) (s : State) : State × Ans :=
  load (ParamRec.ofFields f).ok (fun d => { d with params := some (ParamRec.ofFields f) }) s

/-! ## Commit checks (R13) -/

/-- The fault codes (R181). -/
inductive CommitFault where
  | fieldForKind | undefinedRef | ownerMismatch | pointNoSection | kindMismatch | lengthRange | sectionRepeated
  | pointNotInSection | pointRepeated | pathKind | endInPath | flankIndex | originMismatch | arrivalEnd | arrivalDest
  | departureStart | departureEnd | shuntOutEnd | yardSection | routeRepeated | noGate
  deriving DecidableEq, Repr

/-- R181's fault codes. -/
def CommitFault.code : CommitFault → Nat
  | .fieldForKind => 1 | .undefinedRef => 2 | .ownerMismatch => 3 | .pointNoSection => 4 | .kindMismatch => 5
  | .lengthRange => 6 | .sectionRepeated => 7 | .pointNotInSection => 8 | .pointRepeated => 9 | .pathKind => 10
  | .endInPath => 11 | .flankIndex => 12 | .originMismatch => 13 | .arrivalEnd => 14 | .arrivalDest => 15
  | .departureStart => 16 | .departureEnd => 17 | .shuntOutEnd => 18 | .yardSection => 19 | .routeRepeated => 20
  | .noGate => 21

/-- The first check of a list that fails, with its fault. -/
def firstFault (checks : List (Bool × CommitFault)) : Option CommitFault :=
  (checks.find? (fun c => !c.1)).map Prod.snd

/-- The kind of a section, by its SECTION_DEF. -/
def Description.kindOf (d : Description) (n : Nat) : Option SectionKind := (Tbl.find n d.sections).map SectionDef.kind

/-- Whether a section has the kind. -/
def Description.isKind (d : Description) (k : SectionKind) (n : Nat) : Bool := d.kindOf n = some k

/-- Whether a section is defined. -/
def Description.hasSection (d : Description) (n : Nat) : Bool := (Tbl.find n d.sections).isSome

/-- Whether a kind's sections belong to a gate (R5). -/
def SectionKind.ofGate : SectionKind → Bool | .approach => true | .reader => true | .gateOut => true | _ => false
/-- Whether a kind's sections belong to a siding (R5). -/
def SectionKind.ofSiding : SectionKind → Bool | .mouth => true | .body => true | _ => false

/-- R13's checks of a SECTION_DEF. -/
def Description.sectionChecks (d : Description) (n : Nat) (r : SectionDef) : List (Bool × CommitFault) :=
  [(r.gate.isSome == SectionKind.ofGate r.kind && r.siding.isSome == SectionKind.ofSiding r.kind, .fieldForKind),
   (r.gate.all (fun g => (Tbl.find g d.gates).isSome) && r.siding.all (fun x => (Tbl.find x d.sidings).isSome), .undefinedRef),
   (match r.kind with
    | .reader => (r.gate.bind (fun g => Tbl.find g d.gates)).any (fun g => g.reader = n)
    | .approach => (r.gate.bind (fun g => Tbl.find g d.gates)).any (fun g => g.approach.contains n)
    | .gateOut => (r.gate.bind (fun g => Tbl.find g d.gates)).any (fun g => g.gateOut = n)
    | .mouth => (r.siding.bind (fun x => Tbl.find x d.sidings)).any (fun x => x.mouth = n)
    | .body => (r.siding.bind (fun x => Tbl.find x d.sidings)).any (fun x => x.body = n)
    | _ => true, .ownerMismatch)]

/-- R13's checks of a POINT_DEF. -/
def Description.pointChecks (d : Description) (_n : Nat) (r : PointDef) : List (Bool × CommitFault) :=
  [(r.sect.isSome, .pointNoSection), (r.sect.all d.hasSection, .undefinedRef),
   (r.sect.all (d.isKind .ladder), .kindMismatch)]

/-- R13's checks of a SIDING_DEF. -/
def Description.sidingChecks (d : Description) (n : Nat) (r : SidingDef) : List (Bool × CommitFault) :=
  [(d.hasSection r.mouth && d.hasSection r.body, .undefinedRef),
   (d.isKind .mouth r.mouth && d.isKind .body r.body, .kindMismatch),
   ([r.mouth, r.body].all (fun x => (Tbl.find x d.sections).bind SectionDef.siding = some n), .ownerMismatch),
   (20 ≤ r.length && r.length ≤ 400, .lengthRange)]

/-- R13's checks of a GATE_DEF. -/
def Description.gateChecks (d : Description) (n : Nat) (r : GateDef) : List (Bool × CommitFault) :=
  let all := r.reader :: r.approach ++ [r.gateOut]
  [(all.all d.hasSection, .undefinedRef),
   (d.isKind .reader r.reader && r.approach.all (d.isKind .approach) && d.isKind .gateOut r.gateOut, .kindMismatch),
   (decide r.approach.Nodup, .sectionRepeated),
   (all.all (fun x => (Tbl.find x d.sections).bind SectionDef.gate = some n), .ownerMismatch)]

/-- R13's checks of a HEADSHUNT_DEF. -/
def Description.headShuntChecks (d : Description) (n sect : Nat) : List (Bool × CommitFault) :=
  [(d.hasSection sect, .undefinedRef), (d.isKind .headShunt sect, .kindMismatch),
   (d.headShunts.all (fun p => !(p.1 < n && p.2 = sect)), .ownerMismatch)]

/-- R10's table: whether from, to and destination are present or absent as the kind requires. -/
def fieldsForKind (r : RouteDef) : Bool :=
  match r.kind with
  | .arrival | .shuntOut | .shuntIn => r.fromObj.isSome && r.toObj.isSome && r.destination.isSome
  | .departure => r.fromObj.isSome && r.toObj.isSome && r.destination.isNone
  | .yard => r.fromObj.isNone && r.toObj.isNone

/-- Whether the gate, siding or head shunt that from and to name are defined, by kind. -/
def Description.endsDefined (d : Description) (r : RouteDef) : Bool :=
  let gate (o : Option Nat) := o.all (fun g => (Tbl.find g d.gates).isSome)
  let siding (o : Option Nat) := o.all (fun x => (Tbl.find x d.sidings).isSome)
  let shunt (o : Option Nat) := o.all (fun h => (Tbl.find h d.headShunts).isSome)
  match r.kind with
  | .arrival => gate r.fromObj && siding r.toObj
  | .departure => siding r.fromObj && gate r.toObj
  | .shuntOut => siding r.fromObj && shunt r.toObj
  | .shuntIn => shunt r.fromObj && siding r.toObj
  | .yard => true

/-- R13's checks of a ROUTE_DEF, in order. -/
def Description.routeChecks (d : Description) (n : Nat) (r : RouteDef) : List (Bool × CommitFault) :=
  let sects := r.sections
  let siding (o : Option Nat) := o.bind (fun x => Tbl.find x d.sidings)
  let gate (o : Option Nat) := o.bind (fun x => Tbl.find x d.gates)
  [(fieldsForKind r, .fieldForKind),
   (d.endsDefined r && sects.all d.hasSection && r.approach.all d.hasSection && r.destination.all d.hasSection &&
      r.points.all (fun p => (Tbl.find p.1 d.points).isSome), .undefinedRef),
   (r.path.all (fun e => e.settings.all (fun st => (Tbl.find st.point d.points).bind PointDef.sect = some e.sect)),
      .pointNotInSection),
   (decide sects.Nodup, .sectionRepeated),
   (decide (r.points.map Prod.fst).Nodup, .pointRepeated),
   (sects.all (fun x => !(d.isKind .body x || d.isKind .headShunt x || d.isKind .approach x || d.isKind .reader x)), .pathKind),
   (r.approach.all (fun x => !sects.contains x) && r.destination.all (fun x => !sects.contains x), .endInPath),
   (r.flank.all (fun f => within f.protects r.path.length), .flankIndex),
   (!(r.kind = .arrival) || (gate r.fromObj).any (fun g => g.signal = r.origin), .originMismatch),
   (!(r.kind = .arrival || r.kind = .shuntIn) || (siding r.toObj).any (fun x => sects.getLast? = some x.mouth), .arrivalEnd),
   (!(r.kind = .arrival || r.kind = .shuntIn) || (siding r.toObj).any (fun x => r.destination = some x.body), .arrivalDest),
   (!(r.kind = .departure || r.kind = .shuntOut) || (siding r.fromObj).any (fun x => sects.head? = some x.mouth),
      .departureStart),
   (!(r.kind = .departure) || (gate r.toObj).any (fun g => sects.getLast? = some g.gateOut), .departureEnd),
   (!(r.kind = .shuntOut) || (r.toObj.bind (fun h => Tbl.find h d.headShunts)).any (fun x => r.destination = some x),
      .shuntOutEnd),
   (!(r.kind = .yard) || sects.all (fun x => !(d.isKind .mouth x || d.isKind .body x || d.isKind .gateOut x)), .yardSection),
   (r.kind = .yard || d.routes.all (fun p => !(p.1 < n && p.2.kind = r.kind && p.2.fromObj = r.fromObj && p.2.toObj = r.toObj)),
      .routeRepeated)]

/-- The first record of a kind that fails a check: kind, number, fault. -/
def faultIn {α : Type} (k : Kind) (checks : Nat → α → List (Bool × CommitFault)) : Tbl α → Option (Kind × Nat × CommitFault)
  | [] => none
  | (n, r) :: t =>
    match firstFault (checks n r) with
    | some f => some (k, n, f)
    | none => faultIn k checks t

/-- R12: the records by kind in order, within a kind by number, then NO_GATE. -/
def Description.commitFault (d : Description) : Option (Kind × Nat × CommitFault) :=
  (faultIn .sectionDef d.sectionChecks d.sections).or <|
  (faultIn .pointDef d.pointChecks d.points).or <|
  (faultIn .sidingDef d.sidingChecks d.sidings).or <|
  (faultIn .gateDef d.gateChecks d.gates).or <|
  (faultIn .headshuntDef d.headShuntChecks d.headShunts).or <|
  (faultIn .routeDef d.routeChecks d.routes).or <|
  if d.gates.isEmpty then some (.gateDef, 1, .noGate) else none

/-! ## Entry to RUN (R14) -/

/-- R20: the input level an occupancy input gives; a broken input gives OCCUPIED. -/
def levelOf : LineSignal → Occ
  | .free => .clear
  | _ => .occupied

/-- R35: the detection reading of two inputs; a broken input reads as not detecting. -/
def readingOf (normal reverse : DetectSignal) : Reading :=
  match normal, reverse with
  | .detecting, .detecting => .both
  | .detecting, _ => .normal
  | _, .detecting => .reverse
  | _, _ => .none

/-- The level of a section's input. -/
def Pins.level (p : Pins) (n : Nat) : Occ := levelOf (p.occupancy.getD (n - 1) .free)

/-- The reading of a point's inputs. -/
def Pins.reading (p : Pins) (n : Nat) : Reading :=
  readingOf (p.normal.getD (n - 1) .notDetecting) (p.reverse.getD (n - 1) .notDetecting)

/-- The state a point stands in by its detection alone: LOST for NONE or BOTH (R14, R46, R50, R53). -/
def settledState : Reading → PointState
  | .normal => .normal
  | .reverse => .reverse
  | _ => .lost

/-- R14, R33: a section record at entry to RUN. -/
def SectionRec.atEntry (pins : Pins) (n : Nat) (d : SectionDef) : SectionRec where
  kind := d.kind
  level := pins.level n
  confirmed := pins.level n
  pending := none
  noise := false
  forced := false
  reservedBy := none
  selection := d.selection

/-- R14, R54: a point record at entry to RUN. -/
def PointRec.atEntry (pins : Pins) (n : Nat) (d : PointDef) : PointRec where
  sect := d.sect.getD 0
  throwLimit := d.throwLimit
  state := settledState (pins.reading n)
  reading := pins.reading n
  commanded := none
  lock := none
  drive := none
  throwTimer := none
  coolTimer := none
  failures := 0
  firstFailure := none
  lossLatch := false
  lossCondition := false

/-- R14, R124: a gate at entry to RUN. -/
def Gate.atEntry (pins : Pins) (d : GateDef) : Gate where
  queue := []
  window := if pins.level d.reader = .occupied then .untimed else .closed
  waitTimer := none
  early := none
  inToggle := none
  held := .atEntry
  freeCapacity := none
  placeNone := none
  lineHold := false
  outRead := none
  outToggle := none
  holdProceed := false
  rxIn := none
  rxOut := none
  ownReport := none

/-- R14, R148: a siding at entry to RUN. -/
def SidingRec.atEntry (d : SidingDef) : SidingRec where
  mouth := d.mouth
  body := d.body
  length := d.length
  abilities := d.abilities
  census := .doubt
  blocked := false
  incoming := none
  stack := []

/-- R14: the passage to RUN, every block at its starting state. The ports keep theirs. -/
def State.enterRun (s : State) : State :=
  { s with
    op := .run
    inForce := some ((s.desc.params.map ParamRec.inForce).getD Params.default)
    sections := s.desc.sections.map (fun p => (p.1, SectionRec.atEntry s.pins p.1 p.2))
    points := s.desc.points.map (fun p => (p.1, PointRec.atEntry s.pins p.1 p.2))
    route := .empty
    gates := s.desc.gates.map (fun p => (p.1, Gate.atEntry s.pins p.2))
    stab := { Stabling.empty with sidings := s.desc.sidings.map (fun p => (p.1, SidingRec.atEntry p.2)) }
    roster := .empty
    sup := .empty }

/-- CONFIG_COMMIT (R12, R14): the first fault refuses it with record kind, number and fault code; else the part enters RUN. -/
def takeCommit (s : State) : State × Ans :=
  match s.desc.commitFault with
  | some (k, n, f) => (s, .refused .badArgument [.u8 k.code, .u8 n, .u8 f.code])
  | none => (s.enterRun, .done)

/-! ## Meanings -/

/-- SECTION_DEF (R4, R5). -/
def execSectionDef (r : Req) (number kind : Nat) (gate siding : Option Nat) (selection : Nat) (s : State) : Result :=
  takeRequest (.sectionDef r number kind gate siding selection) .sectionDef r s
    (takeSectionDef number kind gate siding selection)

/-- POINT_DEF (R4, R6). -/
def execPointDef (r : Req) (number : Nat) (sect : Option Nat) (throwLimit : Nat) (s : State) : Result :=
  takeRequest (.pointDef r number sect throwLimit) .pointDef r s (takePointDef number sect throwLimit)

/-- SIDING_DEF (R4, R7). -/
def execSidingDef (r : Req) (number mouth body length : Nat) (abilities : Byte) (s : State) : Result :=
  takeRequest (.sidingDef r number mouth body length abilities) .sidingDef r s
    (takeSidingDef number mouth body length abilities)

/-- GATE_DEF (R4, R8). -/
def execGateDef (r : Req) (number signal reader : Nat) (approach : List Nat) (gateOut : Nat) (s : State) : Result :=
  takeRequest (.gateDef r number signal reader approach gateOut) .gateDef r s
    (takeGateDef number signal reader approach gateOut)

/-- HEADSHUNT_DEF (R4, R9). -/
def execHeadshuntDef (r : Req) (number sect : Nat) (s : State) : Result :=
  takeRequest (.headshuntDef r number sect) .headshuntDef r s (takeHeadshuntDef number sect)

/-- ROUTE_DEF (R4, R10, R180). -/
def execRouteDef (r : Req) (payload : List Byte) (s : State) : Result :=
  takeRequest (.routeDef r payload) .routeDef r s (takeRouteDef payload)

/-- YARD_PARAMS (R4, R11). -/
def execYardParams (r : Req) (fields : ParamFields) (s : State) : Result :=
  takeRequest (.yardParams r fields) .yardParams r s (takeYardParams fields)

/-- CONFIG_COMMIT (R12–R14). -/
def execConfigCommit (r : Req) (s : State) : Result := takeRequest (.configCommit r) .configCommit r s takeCommit

end Sys2Proof.Machine
end

