-- ==== Sys2Proof/Machine/Occupancy.lean ====
section
/-! DEFINITION. The occupancy monitor (02): input levels, confirmation, edges and their delivery, the desk's force, queries. -/

namespace Sys2Proof.Machine

/-! ## Edges -/

/-- R26: the kinds of section watched for unrouted occupancy. -/
def watched : SectionKind → Bool | .ladder => true | .gateOut => true | .mouth => true | _ => false

/-- R5: whether a selection includes the edge that leads to a state. -/
def selects (sel : Selection) (toward : Occ) : Bool :=
  match sel, toward with
  | .both, _ => true
  | .occupy, .occupied => true
  | .clear, .clear => true
  | _, _ => false

/-- R24: the claim by which the route setter takes an edge. -/
def edgeClaim (n : Nat) (state : Occ) (cause : EdgeCause) : Instr :=
  match state with
  | .occupied => .routeOccupyEdge n cause
  | .clear => .routeClearEdge n cause

/-- R24: every edge goes to the route setter; a READER section's also to its gate's controller, a BODY section's also to the
stabling block. -/
def State.deliverEdge (n : Nat) (kind : SectionKind) (state : Occ) (cause : EdgeCause) (s : State) : State :=
  let s := s.send (edgeClaim n state cause)
  match kind with
  | .reader =>
    match s.gateOf n with
    | some g => s.send (match state with | .occupied => .readerOccupyEdge g cause | .clear => .readerClearEdge g cause)
    | none => s
  | .body => s.send (.bodyEdge n state cause)
  | _ => s

/-- R22: a section takes a confirmed state as an edge: the record first, then delivery (R24), notice (R25), alarm (R26, R27). -/
def State.confirm (n : Nat) (r : SectionRec) (state : Occ) (cause : EdgeCause) (s : State) : State :=
  let s := s.onSection n (fun x => { x with confirmed := state, pending := none })
  let s := s.deliverEdge n r.kind state cause
  let s := if selects r.selection state then
      s.post .sect 1 [.u8 n, .u8 state.code, .u8 cause.code, f8 r.reservedBy] else s
  if watched r.kind then
    match state with
    | .occupied => if r.reservedBy.isNone then s.raise (.unroutedOccupancy n) else s
    | .clear => s.endAlarm (.unroutedOccupancy n)
  else s

/-- The confirm time toward a state, in ms (R21). -/
def State.confirmTime (s : State) : Occ → Nat
  | .occupied => s.param.occupyConfirm
  | .clear => s.param.clearConfirm * 1000

/-- R20, R21, R23, R28: what the monitor does with the level its input now shows. -/
def State.takeLevel (n : Nat) (r : SectionRec) (level : Occ) (s : State) : State :=
  let s' := s.onSection n (fun x => { x with level := level })
  if r.forced then s'
  else match r.pending with
    | some p =>
      if level = r.confirmed then
        let s' := s'.onSection n (fun x => { x with pending := none, noise := true })
        if !r.noise && selects r.selection p.toward then s'.post .sect 2 [.u8 n, .u8 p.toward.edgeCode] else s'
      else s'
    | none =>
      if level = r.confirmed then s'
      else s'.onSection n (fun x => { x with pending := some ⟨level, s.confirmTime level⟩ })

/-! ## Meanings -/

/-- OCCUPANCY_INPUT_CHANGE (R20, R21, R23): the line shows its new signal; the monitor takes the input of a defined section in
RUN. -/
def execOccupancyInputChange (n : Nat) (signal : LineSignal) (s : State) : Result :=
  let s := s.onPins (fun x => { x with occupancy := x.occupancy.set (n - 1) signal })
  match Tbl.find n s.sections with
  | some r => done (s.takeLevel n r (levelOf signal))
  | none => done s

/-- CONFIRMATION_TIMER_EXPIRY (R22). -/
def execConfirmationTimerExpiry (n : Nat) (s : State) : Result :=
  match Tbl.find n s.sections with
  | some r =>
    match r.pending with
    | some p => done (s.confirm n r p.toward .input)
    | none => done s
  | none => done s

/-- R28: SECTION_FORCE with the setting on. -/
def takeForceOn (n : Nat) (s : State) : State × Ans :=
  match Tbl.find n s.sections with
  | none => (s, .refused .badArgument)
  | some r =>
    if r.reservedBy.isSome then (s, .refused .locked)
    else if r.forced then (s, .done)
    else
      let s := s.onSection n (fun x => { x with forced := true, pending := none })
      let s := if r.confirmed = .clear then s.confirm n r .occupied .force else s
      (s.send (.forceFlagReport n true), .done)

/-- R29: SECTION_FORCE with the setting off. -/
def takeForceOff (n : Nat) (s : State) : State × Ans :=
  match Tbl.find n s.sections with
  | none => (s, .refused .badArgument)
  | some r =>
    if !r.forced then (s, .done)
    else
      let s := s.onSection n (fun x => { x with forced := false })
      let s := if r.level = .clear then s.confirm n r .clear .unforce else s
      (s.send (.forceFlagReport n false), .done)

/-- R31: SECTION_QUERY gives the record and clears its noise latch. -/
def takeSectionQuery (n : Nat) (s : State) : State × Ans :=
  match Tbl.find n s.sections with
  | none => (s, .refused .badArgument)
  | some r => (s.onSection n (fun x => { x with noise := false }), .done (sectionFields n r))

/-- SECTION_FORCE on (R28). -/
def execSectionForceOn (r : Req) (n : Nat) (s : State) : Result :=
  takeRequest (.sectionForceOn r n) .sectionForce r s (takeForceOn n)

/-- SECTION_FORCE off (R29). -/
def execSectionForceOff (r : Req) (n : Nat) (s : State) : Result :=
  takeRequest (.sectionForceOff r n) .sectionForce r s (takeForceOff n)

/-- SECTION_QUERY (R31). -/
def execSectionQuery (r : Req) (n : Nat) (s : State) : Result :=
  takeRequest (.sectionQuery r n) .sectionQuery r s (takeSectionQuery n)

/-- OCCUPANCY_RESTART (R33, R190): everything the monitor holds is kept, and the restart is reported as taken. -/
def execOccupancyRestart (s : State) : Result :=
  done ((s.take .occupancyRestart).send (.restartTakenReport .occupancy))

end Sys2Proof.Machine
end

