-- ==== Sys2Proof/Machine/Points.lean ====
section
/-! DEFINITION. The point controller (03): detection, locks, commands, throws, failures, the desk's requests, restart. -/

namespace Sys2Proof.Machine

/-! ## State changes -/

/-- R47: a standing POINT_LOST_UNDER_ROUTE condition ends when the point, still locked, is detected in its commanded
position. -/
def State.endLossIfDetected (n : Nat) (s : State) : State :=
  match Tbl.find n s.points with
  | some r =>
    if r.lossCondition && r.lock.isSome && (r.commanded.map posState == some r.state) then
      (s.onPoint n (fun x => { x with lossCondition := false })).endAlarm (.pointLostUnderRoute n)
    else s
  | none => s

/-- R52: the POINT_STATE notice of a point as it stands. -/
def State.postPoint (n : Nat) (cause : PointCause) (s : State) : State :=
  match Tbl.find n s.points with
  | some r =>
    s.post .point 1 [.u8 n, .u8 r.state.code, .u8 r.reading.code, f8 (r.commanded.map Position.code), f8 r.lock, .u8 cause.code]
  | none => s

/-- R34, R52: a point takes a state, with whatever else changes in the taking; the change is reported to the route setter
and noticed, and may end a loss condition (R47), whose end is reported after the change (log entry 73, DESIGN CHOICE). -/
def State.setPointState (n : Nat) (new : PointState) (cause : PointCause) (also : PointRec → PointRec) (s : State) : State :=
  match Tbl.find n s.points with
  | none => s
  | some r =>
    let s := s.onPoint n (fun x => { also x with state := new })
    let s := s.send (.pointStateReport ⟨n, r.state, new, (also r).reading, cause⟩)
    (s.postPoint n cause).endLossIfDetected n

/-- Drive off and no timer running. -/
def PointRec.atRest (r : PointRec) : PointRec := { r with drive := none, throwTimer := none, coolTimer := none }

/-- The count and first-failure time of a point with no failure counted (R42, R50). -/
def PointRec.noFailures (r : PointRec) : PointRec := { r with failures := 0, firstFailure := none }

/-! ## Throws -/

/-- The opposite position. -/
def Position.other : Position → Position | .normal => .reverse | .reverse => .normal

/-- R41: the throw starts: MOVING, drive on, throw timer set. -/
def State.startThrow (n : Nat) (pos : Position) (s : State) : State :=
  s.setPointState n .moving .throwStart (fun r =>
    { r with commanded := some pos, drive := some pos, throwTimer := some (r.throwLimit * 1000) })

/-- R43: a moving point is turned round; no state change is reported, a notice of cause REVERSAL is posted. -/
def State.reverseThrow (n : Nat) (pos : Position) (s : State) : State :=
  (s.onPoint n (fun r =>
    { r with commanded := some pos, drive := some pos, throwTimer := some (r.throwLimit * 1000) })).postPoint n .reversal

/-- R41: whether a throw of the point may start: its section confirmed CLEAR and not forced. -/
def State.throwAllowed (s : State) (r : PointRec) : Bool := s.isFree r.sect

/-! ## Claims of the route setter, taken within its taking -/

/-- R38: the lock claim; the reason of its refusal, or the state with the point locked. -/
def State.lockPoint (n slot : Nat) (pos : Position) (s : State) : Except Reason State :=
  match Tbl.find n s.points with
  | none => .error .unavailable
  | some r =>
    if r.lock.any (fun x => x ≠ slot) then .error .locked
    else if r.state = .failed ∨ r.state = .outOfService then .error .unavailable
    else .ok (s.onPoint n (fun x => { x with lock := some slot, commanded := some pos }))

/-- R39: the unlock claim; a standing loss condition ends (R47). -/
def State.unlockPoint (n slot : Nat) (s : State) : State :=
  match Tbl.find n s.points with
  | none => s
  | some r =>
    if r.lock = some slot then
      let s := s.onPoint n (fun x => { x with lock := none, lossCondition := false })
      if r.lossCondition then s.endAlarm (.pointLostUnderRoute n) else s
    else s

/-- R40: the command claim on a point locked to the commanding slot; a throw that its section forbids is withheld, of which
the route setter is told (WITHHELD_REPLY). -/
def State.commandPoint (n slot : Nat) (pos : Position) (s : State) : State :=
  match Tbl.find n s.points with
  | none => s
  | some r =>
    if r.lock ≠ some slot then s
    else match r.state with
      | .failed | .outOfService => s
      | .moving => if r.drive = some pos then s else s.reverseThrow n pos
      | _ =>
        let s := s.onPoint n (fun x => { x with commanded := some pos })
        if r.state = posState pos then s
        else if s.throwAllowed r then s.startThrow n pos
        else s.send (.withheldReply slot n)

/-! ## Detection and timers -/

/-- R36, R37: what a reading does in each state of the point. -/
def State.takeReading (n : Nat) (r : PointRec) (reading : Reading) (s : State) : State :=
  let s := s.onPoint n (fun x => { x with reading := reading })
  match r.state with
  | .normal | .reverse =>
    if settledState reading = r.state then s
    else
      let lost := r.lock.isSome && (r.commanded.map posState == some r.state)
      let s := s.setPointState n (settledState reading) .detection
        (fun x => { x with lossLatch := true, lossCondition := x.lossCondition || lost })
      if lost then s.raise (.pointLostUnderRoute n) else s
  | .lost => if settledState reading = .lost then s else s.setPointState n (settledState reading) .detection id
  | .moving =>
    if r.commanded.map posState = some (settledState reading) then
      s.setPointState n (settledState reading) .throwEnd (fun x => x.atRest.noFailures)
    else s
  | .failed | .outOfService => s

/-- DETECTION_CHANGE (R35–R37, R42, R47): the inputs show their new signals; the controller takes those of a defined point
in RUN. -/
def execDetectionChange (n : Nat) (normal reverse : DetectSignal) (s : State) : Result :=
  let s := s.onPins (fun x =>
    { x with normal := x.normal.set (n - 1) normal, reverse := x.reverse.set (n - 1) reverse })
  match Tbl.find n s.points with
  | some r => done (s.takeReading n r (readingOf normal reverse))
  | none => done s

/-- R45: the failure count advances against the failure window. -/
def PointRec.countFailure (now window : Nat) (r : PointRec) : PointRec :=
  match r.failures, r.firstFailure with
  | 0, _ => { r with failures := 1, firstFailure := some now }
  | _, some t => if now - t ≤ window then { r with failures := 2 } else { r with failures := 1, firstFailure := some now }
  | _, none => { r with failures := 1, firstFailure := some now }

/-- THROW_TIMER_EXPIRY (R45). -/
def execThrowTimerExpiry (n : Nat) (s : State) : Result :=
  match Tbl.find n s.points with
  | some r =>
    if r.state = .moving then
      done (s.setPointState n .failed .limit (fun x =>
        { x.atRest.countFailure s.seconds s.param.failureWindow with coolTimer := some (s.param.coolDown * 1000) }))
    else done s
  | none => done s

/-- COOL_DOWN_EXPIRY (R46): out of service at a count of 2, else the state that detection shows. The report of the change goes to the
route setter before the alarm is raised (log entry 73, DESIGN CHOICE). -/
def execCoolDownExpiry (n : Nat) (s : State) : Result :=
  match Tbl.find n s.points with
  | some r =>
    if r.state = .failed then
      if r.failures = 2 then
        done ((s.setPointState n .outOfService .coolDownEnd PointRec.atRest).raise (.pointOutOfService n))
      else done (s.setPointState n (settledState r.reading) .coolDownEnd PointRec.atRest)
    else done s
  | none => done s

/-! ## Desk requests -/

/-- R48: POINT_THROW, the first matching row. -/
def takePointThrow (n position : Nat) (s : State) : State × Ans :=
  match Tbl.find n s.points, Position.ofCode? position with
  | some r, some pos =>
    if r.lock.isSome then (s, .refused .locked)
    else match r.state with
      | .outOfService => (s, .refused .unavailable)
      | .failed => (s, .refused .wrongState)
      | .moving => if r.drive = some pos then (s, .accepted) else (s.reverseThrow n pos, .accepted)
      | _ =>
        if r.state = posState pos then (s.onPoint n (fun x => { x with commanded := some pos }), .done)
        else if s.throwAllowed r then (s.startThrow n pos, .accepted)
        else (s, .refused .occupied)
  | _, _ => (s, .refused .badArgument)

/-- R49: POINT_BLOCK. -/
def takePointBlock (n : Nat) (s : State) : State × Ans :=
  match Tbl.find n s.points with
  | none => (s, .refused .badArgument)
  | some r =>
    if r.lock.isSome then (s, .refused .locked)
    else if r.state = .outOfService then (s, .done)
    else (s.setPointState n .outOfService .block PointRec.atRest, .done)

/-- R50: POINT_RESTORE. The report of the change goes to the route setter before the end of POINT_OUT_OF_SERVICE goes to supervision
(log entry 73, DESIGN CHOICE). -/
def takePointRestore (n : Nat) (s : State) : State × Ans :=
  match Tbl.find n s.points with
  | none => (s, .refused .badArgument)
  | some r =>
    if r.state = .outOfService then
      ((s.setPointState n (settledState r.reading) .restore PointRec.noFailures).endAlarm (.pointOutOfService n), .done)
    else (s, .refused .wrongState)

/-- R51: POINT_QUERY gives the record and clears its loss latch. -/
def takePointQuery (n : Nat) (s : State) : State × Ans :=
  match Tbl.find n s.points with
  | none => (s, .refused .badArgument)
  | some r => (s.onPoint n (fun x => { x with lossLatch := false }), .done (pointFields s.seconds n r))

/-- POINT_THROW (R48). -/
def execPointThrow (r : Req) (n position : Nat) (s : State) : Result :=
  takeRequest (.pointThrow r n position) .pointThrow r s (takePointThrow n position)

/-- POINT_BLOCK (R49). -/
def execPointBlock (r : Req) (n : Nat) (s : State) : Result :=
  takeRequest (.pointBlock r n) .pointBlock r s (takePointBlock n)

/-- POINT_RESTORE (R50). -/
def execPointRestore (r : Req) (n : Nat) (s : State) : Result :=
  takeRequest (.pointRestore r n) .pointRestore r s (takePointRestore n)

/-- POINT_QUERY (R51). -/
def execPointQuery (r : Req) (n : Nat) (s : State) : Result :=
  takeRequest (.pointQuery r n) .pointQuery r s (takePointQuery n)

/-! ## Restart -/

/-- R53: the restart on one point; a locked point is left as it is. -/
def State.restartPoint (s : State) (n : Nat) : State :=
  match Tbl.find n s.points with
  | none => s
  | some r =>
    if r.lock.isSome then s
    else
      let s := s.onPoint n (fun x =>
        { x with drive := none, throwTimer := none, commanded := if x.state = .failed then x.commanded else none })
      if r.state = .moving then s.setPointState n (settledState r.reading) .restart id else s

/-- POINT_RESTART (R53, R190): every point in one taking, by rising number (log entry 65, DESIGN CHOICE), then the restart is
reported as taken. -/
def execPointRestart (s : State) : Result :=
  let s := s.take .pointRestart
  done (((Tbl.keys s.points).foldl State.restartPoint s).send (.restartTakenReport .point))

end Sys2Proof.Machine
end

