-- ==== Sys2Proof/Machine/RouteOps.lean ====
section
/-! DEFINITION. The route setter's shared operations (04, 05): notices, progress events, reserving and freeing, the taking of a
request, the store scan, degrading, cancellation. -/

namespace Sys2Proof.Machine

/-! ## Notices and events -/

/-- R79: the ROUTE_STATE notice of an entry, with its state or REMOVED (6: log entry 59, DESIGN CHOICE) and the aspect its origin
signal now shows. -/
def State.postEntry (slot : Nat) (e : RouteEntry) (state : Nat) (s : State) : State :=
  s.post .route 2 ([.u8 slot, .u8 e.route, .u8 e.kind.code, .u8 e.owner.code, .u8 state, .u8 e.front, .u8 e.released,
    .u8 e.causes.byte] ++ fList8 e.irregular ++ [f16 e.tram, aspectCode (s.entryAspect e)])

/-- ROUTE_STATE of the entry that stands in a slot. -/
def State.postSlot (slot : Nat) (s : State) : State :=
  match Tbl.find slot s.route.table with
  | some e => s.postEntry slot e e.state.code
  | none => s

/-- R79: the ROUTE_FAILED notice. -/
def State.postFailed (slot : Option Nat) (route : Nat) (owner : Owner) (purpose : Purpose) (why : FailCause) (s : State) :
    State :=
  s.post .route 3 ([.u8 route, f8 slot, .u8 owner.code] ++ purpose.fields ++ why.fields)

/-- R101: the modes of a removal. -/
inductive CancelMode where | cancel | timeRelease | force
  deriving DecidableEq, Repr

/-- R181's codes of the modes. -/
def CancelMode.code : CancelMode → Nat | .cancel => 1 | .timeRelease => 2 | .force => 3

/-- R101: the ROUTE_CANCELLED notice. -/
def State.postCancelled (slot : Option Nat) (route : Nat) (owner : Owner) (purpose : Purpose) (m : CancelMode) (s : State) :
    State :=
  s.post .route 5 ([.u8 route, f8 slot, .u8 owner.code] ++ purpose.fields ++ [.u8 m.code])

/-- R101: the claims that drop a cancellation. -/
inductive OvertakeClaim where | entry | unexpected | pointLost
  deriving DecidableEq, Repr

/-- R181's codes of these claims. -/
def OvertakeClaim.code : OvertakeClaim → Nat | .entry => 1 | .unexpected => 2 | .pointLost => 3

/-- R76: an event goes to the recipients its purpose link gives. -/
def State.sendEvent (ev : RouteEvent) (s : State) : State :=
  match ev.purpose with
  | .gateArrival g _ => (s.send (.gateArrivalEvent g ev)).send (.stablingArrivalEvent ev)
  | .dutyDeparture _ _ | .fleetDeparture _ _ =>
    let s := (s.send (.rosterDepartureEvent ev)).send (.stablingDepartureEvent ev)
    match (s.routeDef ev.route).bind RouteDef.toObj with
    | some g => s.send (.gateDepartureEvent g ev)
    | none => s
  | .shuntEntry _ _ => s.send (if ev.kind = .shuntIn then .shuntInEvent ev else .shuntOutEvent ev)
  | .none => s

/-- An event of a table entry (R76). -/
def RouteEntry.event (slot : Nat) (e : RouteEntry) (p : Progress) : RouteEvent :=
  ⟨p, some slot, e.route, e.kind, e.owner, e.purpose, e.tram⟩

/-- An event of a store entry: slot absent (R76). -/
def StoreEntry.event (e : StoreEntry) (kind : RouteKind) (p : Progress) : RouteEvent :=
  ⟨p, none, e.route, kind, e.owner, e.purpose, e.tram⟩

/-- An event of the entry that stands in a slot. -/
def State.slotEvent (slot : Nat) (p : Progress) (s : State) : State :=
  match Tbl.find slot s.route.table with
  | some e => s.sendEvent (e.event slot p)
  | none => s

/-! ## Sections and points of an entry -/

/-- R63: every path section is reserved for a slot. -/
def State.reserve (slot : Nat) (sections : List Nat) (s : State) : State :=
  sections.foldl (fun s n => s.onSection n (fun r => { r with reservedBy := some slot })) s

/-- R30: every one of these sections still reserved by a slot is released. -/
def State.unreserve (slot : Nat) (sections : List Nat) (s : State) : State :=
  sections.foldl (fun s n => s.onSection n (fun r =>
    if r.reservedBy = some slot then { r with reservedBy := none } else r)) s

/-- R39: unlock claims on these points, in the order of the list: for a whole entry the order of its lock claims, path points and then
flank points (R63; log entry 65, DESIGN CHOICE). -/
def State.unlockAll (slot : Nat) (points : List Nat) (s : State) : State :=
  points.foldl (fun s n => s.unlockPoint n slot) s

/-- R63: lock claims in order, up to the first that is refused, which is named. -/
def State.lockAll (slot : Nat) : List (Nat × Position) → State → State × Option Nat
  | [], s => (s, none)
  | (n, pos) :: ps, s =>
    match s.lockPoint n slot pos with
    | .error _ => (s, some n)
    | .ok s' => State.lockAll slot ps s'

/-- R64: commands on the points not detected in their required positions, in the order of the lock claims (R63; log entry 65, DESIGN
CHOICE). -/
def State.commandAll (slot : Nat) (points : List (Nat × Position)) (s : State) : State :=
  points.foldl (fun s p => if s.detected p.1 p.2 then s else s.commandPoint p.1 slot p.2) s

/-- The entry of a slot leaves the table: its sections unreserved, its points unlocked, the slot empty (R69, R90, R92). -/
def State.removeEntry (slot : Nat) (e : RouteEntry) (s : State) : State :=
  let d := s.routeDef e.route
  let s := s.unreserve slot ((d.map RouteDef.sections).getD [])
  let s := s.unlockAll slot (((d.map RouteDef.points).getD []).map Prod.fst)
  s.onRoute (fun r => { r with table := Tbl.del slot r.table })

/-! ## PROCEED -/

/-- R66: whether every point stands and the path is clear. -/
def State.mayProceed (s : State) (slot : Nat) (d : RouteDef) : Bool :=
  s.pointsStand slot d && d.sections.all s.isClear

/-- R66: the test of an entry in SETTING. It reads the point records as they stand (R57), at a report too, and not as the report
gives them (R52; log entry 61, DEDUCED). -/
def State.testProceed (slot : Nat) (s : State) : State :=
  match Tbl.find slot s.route.table with
  | none => s
  | some e =>
    match s.routeDef e.route with
    | none => s
    | some d =>
      if e.state = .setting ∧ s.mayProceed slot d then
        let s := s.onEntry slot (fun x => { x with state := .proceed, withheld := [] })
        (s.slotEvent slot .proceed).postSlot slot
      else s

/-! ## Requests (R58–R65) -/

/-- The owner that a master's requests carry (R58). -/
def portOwner : Port → Owner | .desk => .desk | .planner => .planner | .line => .line

/-- A route request (R58). -/
structure RouteRequest where
  route : Nat
  owner : Owner
  purpose : Purpose
  tram : Option Nat
  deriving DecidableEq, Repr

/-- The answer to a route request (R58). -/
inductive Granted where
  | accepted (slot : Nat)
  | stored (position : Nat)
  | refused (why : Reason) (object : List Field)
  deriving DecidableEq, Repr

/-- The answer passed on to a master. -/
def Granted.ans : Granted → Ans
  | .accepted slot => .accepted [.u8 slot]
  | .stored pos => .stored [.u8 pos]
  | .refused why object => .refused why object

/-- R62: two routes share a section of both paths or a point of the settings of both. -/
def sharing (a b : RouteDef) : Bool :=
  a.sections.any (fun n => b.sections.contains n) || a.points.any (fun p => (b.points.map Prod.fst).contains p.1)

/-- R62: whether a route is available now, with these requests waiting in front of it. -/
def State.available (s : State) (d : RouteDef) (older : List StoreEntry) : Bool :=
  d.sections.all (fun n => (s.reservedBy n).isNone && s.isClear n) &&
  d.points.all (fun p => match Tbl.find p.1 s.points with
    | some r => r.lock.isNone && decide (r.state ≠ .failed)
    | none => false) &&
  older.all (fun e => match s.routeDef e.route with | some o => !sharing d o | none => true)

/-- R63: the lowest-numbered empty slot. -/
def State.freeSlot (s : State) : Option Nat := Tbl.lowestFree (List.range' 1 Config.tableSlots) s.route.table

/-- What came of taking an available request into a slot. -/
inductive Taking where | taken | undone (point : Nat)
  deriving DecidableEq, Repr

/-- R63, R64: sections reserved, points locked, entry created in SETTING, points commanded, PROCEED tested; or the taking
undone at a refused lock (log entry 25). -/
def State.takeInto (slot : Nat) (q : RouteRequest) (d : RouteDef) (s : State) : State × Taking :=
  let s1 := s.reserve slot d.sections
  match s1.lockAll slot d.points with
  | (s2, some n) => ((s2.unreserve slot d.sections).unlockAll slot (d.points.map Prod.fst), .undone n)
  | (s2, none) =>
    let e : RouteEntry :=
      { route := q.route, kind := d.kind, owner := q.owner, state := .setting, tram := q.tram, front := 0, released := 0,
        causes := .empty, irregular := [], withheld := [], timer := none, purpose := q.purpose }
    let s3 := s2.onRoute (fun r => { r with table := Tbl.put slot e r.table })
    (((s3.commandAll slot d.points).postSlot slot).testProceed slot, .taken)

/-- R65: stored at the young end, or refused FULL. -/
def State.storeRequest (q : RouteRequest) (s : State) : State × Granted :=
  if s.route.store.length < Config.storeSize then
    let pos := s.route.store.length + 1
    let e : StoreEntry := ⟨q.route, q.owner, q.purpose, q.tram, s.param.storeLimit * 1000⟩
    ((s.onRoute (fun r => { r with store := r.store ++ [e] })).post .route 1
      ([.u8 q.route, .u8 q.owner.code] ++ q.purpose.fields ++ [.u8 pos]), .stored pos)
  else (s, .refused .full [])

/-- The slot of a catalogue route in the table. -/
def State.slotOf (s : State) (route : Nat) : Option Nat :=
  (s.route.table.find? (fun p => p.2.route = route)).map Prod.fst

/-- The position, from 1, of a catalogue route in the store. -/
def State.storePosition (s : State) (route : Nat) : Option Nat :=
  (s.route.store.findIdx? (fun e => e.route = route)).map (· + 1)

/-- R62–R65: a request that is neither unavailable nor a duplicate. -/
def State.takeOrStore (q : RouteRequest) (d : RouteDef) (s : State) : State × Granted :=
  match s.available d s.route.store, s.freeSlot with
  | true, some slot =>
    match s.takeInto slot q d with
    | (s', .taken) => (s', .accepted slot)
    | (s', .undone n) =>
      if s'.outOfService n then (s', .refused .unavailable (YardObject.point n).fields) else s'.storeRequest q
  | _, _ => s.storeRequest q

/-- R58, R60–R65: the request of a block that may request these kinds. -/
def State.requestRoute (kinds : List RouteKind) (q : RouteRequest) (s : State) : State × Granted :=
  match s.routeDef q.route with
  | none => (s, .refused .badArgument [])
  | some d =>
    if !kinds.contains d.kind then (s, .refused .notPermitted [])
    else match s.unavailableObject d with
    | some o => (s, .refused .unavailable o.fields)
    | none =>
      match s.slotOf q.route, s.storePosition q.route with
      | some slot, _ => (s, .refused .duplicate [.u8 slot])
      | none, some pos => (s, .refused .duplicate [.u8 pos])
      | none, none => s.takeOrStore q d

/-! ## The store scan (R73, R74) -/

/-- A stored request as a request. -/
def StoreEntry.request (e : StoreEntry) : RouteRequest := ⟨e.route, e.owner, e.purpose, e.tram⟩

/-- R74: a stored entry found unavailable is removed with event FAILED and a ROUTE_FAILED notice. -/
def State.failStored (e : StoreEntry) (d : RouteDef) (o : YardObject) (s : State) : State :=
  (s.sendEvent (e.event d.kind (.failed (.unavailable o)))).postFailed none e.route e.owner e.purpose (.unavailable o)

/-- R74: one stored entry is decided, with the older ones still in the store; whether it stays. -/
def State.scanOne (kept : List StoreEntry) (e : StoreEntry) (s : State) : State × Bool :=
  match s.routeDef e.route with
  | none => (s, true)
  | some d =>
    match s.unavailableObject d with
    | some o => (s.failStored e d o, false)
    | none =>
      match s.available d kept, s.freeSlot with
      | true, some slot =>
        match s.takeInto slot e.request d with
        | (s', .taken) => (s', false)
        | (s', .undone n) => if s'.outOfService n then (s'.failStored e d (.point n), false) else (s', true)
      | _, _ => (s, true)

/-- R74: the walk from the oldest entry to the youngest; `kept` are those that stay. -/
def State.scanFrom (kept : List StoreEntry) : List StoreEntry → State → State
  | [], s => s.onRoute (fun r => { r with store := kept })
  | e :: rest, s =>
    match s.scanOne kept e with
    | (s', true) => State.scanFrom (kept ++ [e]) rest s'
    | (s', false) => State.scanFrom kept rest s'

/-- R73: a scan of the store. -/
def State.scan (s : State) : State := State.scanFrom [] s.route.store s

/-! ## Degrading (R97) -/

/-- R97: an entry goes DEGRADED, or adds causes: timer stopped, withheld points empty. -/
def RouteEntry.degrade (c : Causes) (e : RouteEntry) : RouteEntry :=
  { e with state := .degraded, causes := e.causes.union c, withheld := [], timer := none }

/-- R95, R101: a cancellation in TIME_RELEASE that a claim drops. -/
def State.overtaken (slot : Nat) (e : RouteEntry) (claim : OvertakeClaim) (s : State) : State :=
  if e.state = .timeRelease then s.post .route 6 [.u8 e.route, .u8 slot, .u8 e.owner.code, .u8 claim.code] else s

/-- R97: causes are added to an entry; a notice is posted where the entry changes, and after it that of a cancellation dropped (log
entry 64, DESIGN CHOICE). -/
def State.goDegraded (slot : Nat) (e : RouteEntry) (c : Causes) (claim : OvertakeClaim) (s : State) : State :=
  if e.degrade c = e then s
  else ((s.onEntry slot (RouteEntry.degrade c)).postSlot slot).overtaken slot e claim

/-! ## Cancellation (R91–R96, R100) -/

/-- R92, R94, R95, R100: a table entry is removed by a cancellation, with its event and notices, and the store is scanned. -/
def State.releaseEntry (slot : Nat) (e : RouteEntry) (ev : Progress) (m : CancelMode) (s : State) : State :=
  let s := (s.removeEntry slot e).sendEvent (e.event slot ev)
  ((s.postEntry slot e 6).postCancelled (some slot) e.route e.owner e.purpose m).scan

/-- R92, R100: a stored entry is removed by a cancellation, and the store is scanned. -/
def State.releaseStored (e : StoreEntry) (m : CancelMode) (s : State) : State :=
  let kind := ((s.routeDef e.route).map RouteDef.kind).getD .yard
  let s := s.onRoute (fun r => { r with store := r.store.filter (fun x => x.route ≠ e.route) })
  ((s.sendEvent (e.event kind .cancelled)).postCancelled none e.route e.owner e.purpose m).scan

/-- R92–R94: a cancellation of a table entry by its state. -/
def State.cancelEntry (slot : Nat) (e : RouteEntry) (s : State) : State × Ans :=
  match e.state with
  | .setting => (s.releaseEntry slot e .cancelled .cancel, .done)
  | .occupied => (s, .refused .inUse)
  | .degraded => (s, .refused .wrongState [.u8 e.causes.byte])
  | .timeRelease => (s, .accepted [(e.timer.map secondsLeft).getD (.u8 0)])
  | .proceed =>
    if ((s.routeDef e.route).bind RouteDef.approach).any (fun a => !s.isClear a) then
      let s := s.onEntry slot (fun x => { x with state := .timeRelease, timer := some (s.param.timeRelease * 1000) })
      (s.postSlot slot, .accepted [.u8 s.param.timeRelease])
    else (s.releaseEntry slot e .cancelled .cancel, .done)

/-- The store entry of a catalogue route. -/
def State.stored (s : State) (route : Nat) : Option StoreEntry := s.route.store.find? (fun e => e.route = route)

/-- The table entry of a catalogue route, with its slot. -/
def State.active (s : State) (route : Nat) : Option (Nat × RouteEntry) := s.route.table.find? (fun p => p.2.route = route)

/-- R91: "REFUSED WRONG_STATE, with state none". -/
def noEntry : Ans := .refused .wrongState [.u8 0]

/-- R92–R95: the cancellation of a route wherever it stands, for a claimant that the check passes. -/
def State.cancelRoute (route : Nat) (check : Owner → Purpose → Bool) (s : State) : State × Ans :=
  match s.active route, s.stored route with
  | some (slot, e), _ => if check e.owner e.purpose then s.cancelEntry slot e else (s, .refused .notPermitted)
  | none, some e => if check e.owner e.purpose then (s.releaseStored e .cancel, .done) else (s, .refused .notPermitted)
  | none, none => (s, noEntry)

/-- Whether a purpose link is SHUNT_ENTRY. -/
def isShunt : Purpose → Bool | .shuntEntry _ _ => true | _ => false

/-- R96: the stabling block's cancel claim on a SHUNT_ENTRY route. -/
def State.cancelShuntRoute (route : Nat) (s : State) : State × Ans := s.cancelRoute route (fun _ p => isShunt p)

end Sys2Proof.Machine
end

