-- ==== Sys2Proof/Machine/Routes.lean ====
section
/-! DEFINITION. The route setter's commands (04, 05): edges, point reports, requests, cancellation, resumption, force release,
expiries, halt, restart. -/

namespace Sys2Proof.Machine

/-! ## Edges -/

/-- The table entry that has reserved a section, with the index of the section among its path elements. -/
def State.elementAt (s : State) (n : Nat) : Option (Nat × RouteEntry × RouteDef × Nat) :=
  match s.reservedBy n with
  | none => none
  | some slot =>
    match Tbl.find slot s.route.table with
    | none => none
    | some e =>
      match s.routeDef e.route with
      | none => none
      | some d => (d.sections.findIdx? (fun x => x = n)).map (fun i => (slot, e, d, i + 1))

/-- R78: at FIRST-ENTERED an ARRIVAL entry takes the fleet of its purpose link as its tram. -/
def RouteEntry.enter (e : RouteEntry) : RouteEntry :=
  { e with front := 1, tram := match e.purpose with | .gateArrival _ f => some f | _ => e.tram }

/-- R83: the tram's entry on a route in PROCEED. -/
def State.enterRoute (slot : Nat) (s : State) : State :=
  let s := s.onEntry slot (fun x => { x.enter with state := .occupied })
  (s.slotEvent slot .firstEntered).postSlot slot

/-- R84: the state an entry takes at a passage of its origin signal at stop, before any further degrading. -/
def State.passed (s : State) (e : RouteEntry) (d : RouteDef) : RouteEntry :=
  match e.state with
  | .proceed | .timeRelease | .occupied => { e.enter with state := .occupied, timer := none }
  | .setting =>
    if d.points.all (fun p => s.detected p.1 p.2) then
      { e.enter with state := .occupied, withheld := [] }
    else e.enter.degrade (Causes.ofUnexpected.union Causes.ofPointLost)
  | .degraded => e.enter.degrade Causes.ofUnexpected

/-- R84: a passage of the origin signal at stop. -/
def State.passAtStop (slot : Nat) (e : RouteEntry) (d : RouteDef) (s : State) : State :=
  let s := (s.raise (.passedAtStop d.origin)).onEntry slot (fun _ => s.passed e d)
  let s := ((s.slotEvent slot .firstEntered).postSlot slot).overtaken slot e .entry
  match Tbl.find slot s.route.table with
  | some x =>
    if e.state = .setting ∧ x.state = .occupied ∧ (d.sections.drop 2).any s.isOccupied then
      s.goDegraded slot x .ofUnexpected .unexpected
    else s
  | none => s

/-- R85, R86: an occupation that the tram should not have made. -/
def State.unexpected (slot : Nat) (e : RouteEntry) (n : Nat) (s : State) : State :=
  (s.goDegraded slot e .ofUnexpected .unexpected).raise (.unroutedOccupancy n)

/-- R68, R83–R86: an OCCUPY edge on element i of an entry. -/
def State.takeOccupy (slot : Nat) (e : RouteEntry) (d : RouteDef) (i n : Nat) (s : State) : State :=
  if e.front = 0 then
    if i = 1 then
      if e.state = .proceed ∧ s.route.halt = false then s.enterRoute slot else s.passAtStop slot e d
    else if e.state = .setting then s.raise (.unroutedOccupancy n)
    else s.unexpected slot e n
  else if i = e.front + 1 then (s.onEntry slot (fun x => { x with front := i })).postSlot slot
  else if e.front + 1 < i then s.unexpected slot e n
  else if e.irregular.contains i then s.unexpected slot e n
  else s

/-- ROUTE_OCCUPY_EDGE (R68, R83–R86). -/
def execRouteOccupyEdge (n : Nat) (cause : EdgeCause) (s : State) : Result :=
  let s := s.take (.routeOccupyEdge n cause)
  match s.elementAt n with
  | some (slot, e, d, i) => done (s.takeOccupy slot e d i n)
  | none => done s

/-- The points given back with element i (R87): its settings, and the flank points that protect it. -/
def elementPoints (d : RouteDef) (i : Nat) : List Nat :=
  ((d.path[i - 1]?).map (fun e => e.settings.map Setting.point)).getD [] ++
  (d.flank.filter (fun f => f.protects = i)).map Flank.point

/-- R87: element i is released. -/
def State.releaseElement (slot : Nat) (d : RouteDef) (i n : Nat) (s : State) : State :=
  let s := (s.unreserve slot [n]).unlockAll slot (elementPoints d i)
  let s := s.onEntry slot (fun x => { x with released := x.released + 1 })
  (s.slotEvent slot (.elementReleased i)).postSlot slot

/-- R88: an irregular clearance of element i (one ROUTE_STATE notice, log entry 26). -/
def State.irregularClearance (slot : Nat) (e : RouteEntry) (i n : Nat) (s : State) : State :=
  let s := s.onEntry slot (fun x => { x.degrade .ofIrregular with irregular := insertNum i x.irregular })
  (s.postSlot slot).raise (.irregularClearance e.route n)

/-- R89: the completion condition, by the kind and the destination section. -/
def State.mayComplete (s : State) (d : RouteDef) : Bool :=
  match d.kind, d.destination with
  | .departure, _ => true
  | .yard, none => true
  | _, some x => s.isOccupied x
  | _, none => false

/-- R90: the route completes and leaves the table. -/
def State.completeRoute (slot : Nat) (e : RouteEntry) (s : State) : State :=
  ((s.removeEntry slot e).sendEvent (e.event slot .complete)).postEntry slot e 6

/-- R66, R87–R90: a CLEAR edge on element i of an entry. -/
def State.takeClear (slot : Nat) (e : RouteEntry) (d : RouteDef) (i n : Nat) (s : State) : State :=
  if e.front < i then s.testProceed slot
  else if e.irregular.contains i then s
  else if i < d.path.length then
    if (d.sections[i]?).any s.isOccupied then s.releaseElement slot d i n else s.irregularClearance slot e i n
  else if s.mayComplete d then
    if e.causes.irregular then s.releaseElement slot d i n else s.completeRoute slot e
  else s.irregularClearance slot e i n

/-- R67: the withheld commands of an entry on points in a section are renewed, path points before flank points (log entry 66, DESIGN
CHOICE). -/
def State.renewEntry (sect : Nat) (s : State) (slot : Nat) : State :=
  match Tbl.find slot s.route.table with
  | none => s
  | some e =>
    match s.routeDef e.route with
    | none => s
    | some d =>
      let inSection (n : Nat) : Bool := (Tbl.find n s.points).any (fun r => r.sect = sect)
      if e.state = .setting then
        let renewed := d.points.filter (fun p => e.withheld.contains p.1 && inSection p.1)
        (s.onEntry slot (fun x => { x with withheld := x.withheld.filter (fun n => !inSection n) })).commandAll slot renewed
      else s

/-- R67: at a CLEAR edge, for every entry: by rising slot, and in each entry its path points before its flank points (log entry 66,
DESIGN CHOICE). -/
def State.renewWithheld (sect : Nat) (s : State) : State := (Tbl.keys s.route.table).foldl (State.renewEntry sect) s

/-- ROUTE_CLEAR_EDGE (R66, R67, R73, R87–R90): the entry of the element first, then the withheld commands (log entry 66, DESIGN
CHOICE), then the store (R73). -/
def execRouteClearEdge (n : Nat) (cause : EdgeCause) (s : State) : Result :=
  let s := s.take (.routeClearEdge n cause)
  let s := match s.elementAt n with
    | some (slot, e, d, i) => s.takeClear slot e d i n
    | none => s
  done ((s.renewWithheld n).scan)

/-- FORCE_FLAG_REPORT (R28, R29, R73): a cleared flag is an occasion for a scan. -/
def execForceFlagReport (n : Nat) (isSet : Bool) (s : State) : Result :=
  let s := s.take (.forceFlagReport n isSet)
  done (if isSet then s else s.scan)

/-! ## Reports of the point controller -/

/-- R69: a locked point has failed under an entry in SETTING. -/
def State.failEntry (slot : Nat) (e : RouteEntry) (n : Nat) (s : State) : State :=
  let s := (s.removeEntry slot e).sendEvent (e.event slot (.failed (.point n)))
  (s.postEntry slot e 6).postFailed (some slot) e.route e.owner e.purpose (.point n)

/-- R70, R97: whether a report is of a stationary locked point that lost or changed its detection. -/
def isLoss (r : PointReport) : Bool :=
  r.cause = .detection && (r.old = .normal || r.old = .reverse)

/-- R66, R69, R70, R97: a report on a point locked to an entry. -/
def State.takeReport (slot : Nat) (e : RouteEntry) (r : PointReport) (s : State) : State :=
  if r.new = .failed then
    match e.state with
    | .setting => s.failEntry slot e r.point
    | .degraded => s.goDegraded slot e .ofPointLost .pointLost
    | _ => s
  else if isLoss r then s.goDegraded slot e .ofPointLost .pointLost
  else s.testProceed slot

/-- R73: the reports that are occasions for a scan. -/
def leavesService (r : PointReport) : Bool := r.old = .failed || r.old = .outOfService

/-- POINT_STATE_REPORT (R66, R69, R70, R73, R97): for the entry to which the point is locked (log entry 20), and the store; the
test for PROCEED reads the records (log entry 61, DEDUCED). -/
def execPointStateReport (r : PointReport) (s : State) : Result :=
  let s := s.take (.pointStateReport r)
  match (Tbl.find r.point s.points).bind PointRec.lock with
  | none => done (if leavesService r then s.scan else s)
  | some slot =>
    match Tbl.find slot s.route.table with
    | none => done (if leavesService r then s.scan else s)
    | some e =>
      let removed := r.new = .failed ∧ e.state = .setting
      let s := s.takeReport slot e r
      done (if leavesService r ∨ removed then s.scan else s)

/-- WITHHELD_REPLY (R67): the point joins the withheld points of an entry in SETTING; where its section has been cleared
meanwhile, the command is renewed at once (log entry 18). The entry is the one that holds the slot, and the point's lock, when the
reply is taken, also where the entry whose command was withheld has gone (log entry 71, DESIGN CHOICE). -/
def execWithheldReply (slot point : Nat) (s : State) : Result :=
  let s := s.take (.withheldReply slot point)
  match Tbl.find slot s.route.table, Tbl.find point s.points with
  | some e, some r =>
    if e.state = .setting ∧ r.lock = some slot then
      let s := s.onEntry slot (fun x => { x with withheld := insertNum point x.withheld })
      done (if s.throwAllowed r then s.renewEntry r.sect slot else s)
    else done s
  | _, _ => done s

/-! ## Requests -/

/-- R59: ROUTE_SET. -/
def takeRouteSet (route : Nat) (s : State) : State × Ans :=
  let out := s.requestRoute [.yard] ⟨route, .desk, .none, none⟩
  (out.1, out.2.ans)

/-- ROUTE_SET (R59–R65). -/
def execRouteSet (r : Req) (route : Nat) (s : State) : Result := takeRequest (.routeSet r route) .routeSet r s (takeRouteSet route)

/-- R91: ROUTE_CANCEL; the desk may cancel any entry, the line and the planner their own. -/
def takeRouteCancel (p : Port) (route : Nat) (s : State) : State × Ans :=
  match s.routeDef route with
  | none => (s, .refused .badArgument)
  | some _ => s.cancelRoute route (fun o _ => p = .desk || o = portOwner p)

/-- ROUTE_CANCEL (R91–R95). -/
def execRouteCancel (r : Req) (route : Nat) (s : State) : Result :=
  takeRequest (.routeCancel r route) .routeCancel r s (takeRouteCancel r.port route)

/-- R99: the causes that a resumption leaves. -/
def State.causesLeft (s : State) (slot : Nat) (e : RouteEntry) (d : RouteDef) : Causes :=
  let ahead := if e.front = 0 then d.sections else (d.sections.drop (e.front + 1)).filter (fun n => s.reservedBy n = some slot)
  { pointLost := e.causes.pointLost && !s.pointsStand slot d
    irregular := e.causes.irregular
    unexpected := e.causes.unexpected && !ahead.all s.isClear }

/-- R99: ROUTE_RESUME. -/
def takeRouteResume (route : Nat) (s : State) : State × Ans :=
  match s.routeDef route with
  | none => (s, .refused .badArgument)
  | some d =>
    match s.active route with
    | none => (s, .refused .wrongState)
    | some (slot, e) =>
      if e.state ≠ .degraded then (s, .refused .wrongState)
      else
        let left := s.causesLeft slot e d
        if left.isEmpty then
          let s := s.onEntry slot (fun x =>
            { x with causes := left, state := if x.front = 0 then .proceed else .occupied })
          ((if e.front = 0 then s.slotEvent slot .proceed else s).postSlot slot, .done)
        else
          let s' := s.onEntry slot (fun x => { x with causes := left })
          (if left = e.causes then s else s'.postSlot slot, .refused .wrongState [.u8 left.byte])

/-- ROUTE_RESUME (R99). -/
def execRouteResume (r : Req) (route : Nat) (s : State) : Result :=
  takeRequest (.routeResume r route) .routeResume r s (takeRouteResume route)

/-- R100: ROUTE_FORCE_RELEASE. -/
def takeForceRelease (route : Nat) (s : State) : State × Ans :=
  match s.routeDef route with
  | none => (s, .refused .badArgument)
  | some _ =>
    match s.active route, s.stored route with
    | some (slot, e), _ =>
      (s.releaseEntry slot e (if e.front = 0 then .cancelled else .forceReleased) .force, .done)
    | none, some e => (s.releaseStored e .force, .done)
    | none, none => (s, noEntry)

/-- ROUTE_FORCE_RELEASE (R100). -/
def execRouteForceRelease (r : Req) (route : Nat) (s : State) : Result :=
  takeRequest (.routeForceRelease r route) .routeForceRelease r s (takeForceRelease route)

/-! ## Expiries -/

/-- STORE_TIMER_EXPIRY (R75). -/
def execStoreTimerExpiry (route : Nat) (s : State) : Result :=
  match s.stored route with
  | none => done s
  | some e =>
    let kind := ((s.routeDef e.route).map RouteDef.kind).getD .yard
    let s := s.onRoute (fun r => { r with store := r.store.filter (fun x => x.route ≠ route) })
    let s := s.sendEvent (e.event kind .expired)
    done ((s.post .route 4 ([.u8 e.route, .u8 e.owner.code] ++ e.purpose.fields)).scan)

/-- TIME_RELEASE_EXPIRY (R95). -/
def execTimeReleaseExpiry (slot : Nat) (s : State) : Result :=
  match Tbl.find slot s.route.table with
  | none => done s
  | some e => if e.state = .timeRelease then done (s.releaseEntry slot e .cancelled .timeRelease) else done s

/-! ## Halt and restart -/

/-- R72, R79: an entry in PROCEED whose points stand shows the aspect of its origin signal in a notice at a change of the halt flag, at
its set as at its release; an entry in another state that shares the signal shows nothing (log entry 69, DESIGN CHOICE). -/
def State.showAspect (s : State) (p : Nat × RouteEntry) : State :=
  match s.routeDef p.2.route with
  | some d => if p.2.state = .proceed ∧ s.pointsStand p.1 d then s.postSlot p.1 else s
  | none => s

/-- ROUTE_HALT_REPORT (R72): the signals follow at the end of the taking (R71). Which entries post ROUTE_STATE at the set of the flag is
log entry 69 (DESIGN CHOICE), and that several are posted by rising slot log entry 65 (DESIGN CHOICE). -/
def execRouteHaltReport (isSet : Bool) (s : State) : Result :=
  let s := s.take (.routeHaltReport isSet)
  if s.route.halt = isSet then done s
  else
    let s := s.onRoute (fun r => { r with halt := isSet })
    done (s.route.table.foldl State.showAspect s)

/-- R81: the unlock claims of one removed entry. -/
def State.dropEntry (s : State) (p : Nat × RouteEntry) : State :=
  s.unlockAll p.1 ((((s.routeDef p.2.route).map RouteDef.points).getD []).map Prod.fst)

/-- R81: the reserved-by field of every section becomes none. -/
def State.freeSections (s : State) : State :=
  { s with sections := s.sections.map (fun p => (p.1, { p.2 with reservedBy := none })) }

/-- ROUTE_RESTART (R81, R102, R190): the entries by rising slot (log entry 65, DESIGN CHOICE). -/
def execRouteRestart (s : State) : Result :=
  let s := s.take .routeRestart
  let s := s.route.table.foldl State.dropEntry s
  done ((s.freeSections.onRoute (fun r => { r with table := [], store := [] })).send (.restartTakenReport .route))

end Sys2Proof.Machine
end

