-- ==== Sys2Proof/Machine/StablingOps.lean ====
section
/-! DEFINITION. The stabling block's shared operations (07): notices and stacking reports, the claims of the gates (identity,
allocation, release, doubt) and of the roster block (call, uncall, selection, standing). -/

namespace Sys2Proof.Machine

/-! ## Reading the stacks -/

/-- The outermost record of a stack: the last joined (R125). -/
def SidingRec.outermost (r : SidingRec) : Option StackRec := r.stack.getLast?

/-- The stack record of a fleet: its siding, its place (from 0) and itself. -/
def State.findTram (s : State) (f : Nat) : Option (Nat × SidingRec × Nat × StackRec) :=
  s.stab.sidings.findSome? (fun p =>
    (p.2.stack.findIdx? (fun r => r.fleet = f)).bind (fun i => (p.2.stack[i]?).map (fun r => (p.1, p.2, i, r))))

/-- R128: the due of a fleet, from the roster entry that carries it. -/
def State.dueOf (s : State) (f : Nat) : Option Nat := (s.roster.duties.find? (fun d => d.fleet = some f)).map Duty.due

/-- R128, R129: d ≤ d′, an absent due counting as later than every minute. -/
def dueLe : Option Nat → Option Nat → Bool
  | _, none => true
  | none, some _ => false
  | some a, some b => a ≤ b

/-- Whether every need of a set is among the abilities. -/
def covers (abilities needs : Needs) : Bool :=
  (!needs.covered || abilities.covered) && (!needs.supply || abilities.supply) && (!needs.pit || abilities.pit) &&
  (!needs.sand || abilities.sand)

/-- How many needs of a set are among the abilities (R129, key 1). -/
def coveredCount (abilities needs : Needs) : Nat :=
  [needs.covered && abilities.covered, needs.supply && abilities.supply, needs.pit && abilities.pit,
   needs.sand && abilities.sand].count true

/-- R126: the answer to an identity claim. -/
inductive Identity where
  | present (siding : Option Nat)
  | free
  deriving DecidableEq, Repr

/-- R126: PRESENT in a stack, naming the siding, or in an arrival queue, naming none; else FREE. -/
def State.identity (s : State) (f : Nat) : Identity :=
  match s.findTram f with
  | some (n, _) => .present (some n)
  | none => if s.gates.any (fun g => g.2.queue.any (fun a => a.fleet = some f)) then .present none else .free

/-! ## Candidates and free capacity (R127) -/

/-- R127: whether a siding is a candidate for an arrival at a gate. -/
def State.candidate (s : State) (g n : Nat) (r : SidingRec) : Bool :=
  decide (r.census = .known) && !r.blocked && r.incoming.isNone &&
  r.outermost.all (fun x => x.state = .stabled) && decide (r.stack.length < Config.stackSize) &&
  match (s.lookup .arrival g n).bind s.routeDef with
  | some d => (s.unavailableObject d).isNone
  | none => false

/-- R127: the free capacity of a gate. -/
def State.freeCapacity (s : State) (g : Nat) : Nat :=
  ((s.stab.sidings.filter (fun p => s.candidate g p.1 p.2)).map (fun p => s.freeLength p.2)).sum

/-! ## Notices and reports -/

/-- R147: STACK_CHANGE, with the new state or REMOVED (5: log entry 59, DESIGN CHOICE). -/
def State.postStack (n fleet pos : Nat) (state : Option StackState) (cause : StackCause) (s : State) : State :=
  s.post .stabling 2 [.u8 n, .u16 fleet, .u8 pos, .u8 ((state.map StackState.code).getD 5), .u8 cause.code]

/-- R147: SIDING_STATE of a siding as it stands. -/
def State.postSiding (n : Nat) (cause : StackCause) (s : State) : State :=
  match Tbl.find n s.stab.sidings with
  | some r =>
    s.post .stabling 3 [.u8 n, .u8 r.census.code, fFlag r.blocked, fNeeds r.abilities, f8 r.incoming, .u8 cause.code]
  | none => s

/-- R130, R141, R146: ORDER_INVERSION. -/
def State.postInversion (f n blocked : Nat) (s : State) : State := s.post .stabling 4 [.u16 f, .u8 n, .u16 blocked]

/-- R126: what a stacking report carries. -/
def State.stackReport (s : State) (cause : StackCause) (releaseGate : Option Nat) : StackReport :=
  ⟨cause, releaseGate, s.freeCapacity 1, s.freeCapacity 2⟩

/-- R126: a stacking report to both gate controllers, at the end of a taking; gate 1's is sent first (log entry 65, DESIGN CHOICE). -/
def State.report (cause : StackCause) (releaseGate : Option Nat) (s : State) : State :=
  (Tbl.keys s.gates).foldl (fun t g => t.send (.stackingReport g (s.stackReport cause releaseGate))) s

/-! ## Changes of a stack -/

/-- Change the record of a fleet in a siding's stack. -/
def State.onRecord (n f : Nat) (g : StackRec → StackRec) (s : State) : State :=
  s.onSiding n (fun r => { r with stack := r.stack.map (fun x => if x.fleet = f then g x else x) })

/-- R125: a record joins at the outer end. -/
def State.pushRecord (n : Nat) (x : StackRec) (s : State) : State :=
  s.onSiding n (fun r => { r with stack := r.stack ++ [x] })

/-- A record leaves a stack. -/
def State.dropRecord (n f : Nat) (s : State) : State :=
  s.onSiding n (fun r => { r with stack := r.stack.filter (fun x => x.fleet ≠ f) })

/-- A record stands STABLED with no purpose; stabled-at as it is. -/
def StackRec.settle (x : StackRec) : StackRec := { x with state := .stabled, purpose := none, sinceRestart := false }

/-- R132, R136, R144: a record becomes STABLED now, with its entered flag clear (log entry 50). -/
def StackRec.stable (now : Option Nat) (x : StackRec) : StackRec := { x.settle with entered := false, stabledAt := now }

/-- R137: a siding goes to DOUBT; a change posts a SIDING_STATE notice. -/
def State.setDoubt (n : Nat) (cause : StackCause) (s : State) : State :=
  match Tbl.find n s.stab.sidings with
  | some r =>
    if r.census = .known then (s.onSiding n (fun x => { x with census := .doubt })).postSiding n cause else s
  | none => s

/-- R126, R137: a claim that a siding is in doubt, with its cause and its stacking report where it changes the siding. -/
def State.doubtClaim (n : Nat) (cause : StackCause) (s : State) : State :=
  match Tbl.find n s.stab.sidings with
  | some r => if r.census = .known then (s.setDoubt n cause).report cause none else s
  | none => s

/-! ## Allocation (R128–R131) -/

/-- The answer to an allocation claim. -/
inductive Allocation where
  | siding (n : Nat)
  | noPlace (why : PlaceReason)
  | duplicate
  deriving DecidableEq, Repr

/-- Lists of keys in order of rank: the first key that differs decides. -/
def ranksBefore : List Nat → List Nat → Bool
  | a :: as, b :: bs => if a = b then ranksBefore as bs else a < b
  | _, _ => false

/-- The first of a list under a ranking. -/
def firstRanked {α : Type} (keys : α → List Nat) : List α → Option α
  | [] => none
  | a :: l =>
    match firstRanked keys l with
    | some b => if ranksBefore (keys b) (keys a) then some b else some a
    | none => some a

/-- R129, key 3: the slack of a due against that of the outermost record; a present d with an absent d′ is larger than any
present one, and an absent d with a present d′ is the free value of log entry 30. -/
def slack : Option Nat → Option Nat → Nat
  | none, none => 0
  | some _, none => Config.lastMinute + 1
  | some a, some b => b - a
  | none, some b => Config.slackOfAbsentDue b

/-- R129's keys of a siding for a tram, smallest first: wanted needs not offered, empty last, slack, length left, number. -/
def State.rankKeys (s : State) (d : Option Nat) (length : Nat) (wanted : Needs) (p : Nat × SidingRec) : List Nat :=
  [4 - coveredCount p.2.abilities wanted,
   if p.2.stack.isEmpty then 1 else 0,
   match p.2.outermost with | none => 0 | some x => slack d (s.dueOf x.fleet),
   s.freeLength p.2 - (length + s.param.spacing),
   p.1]

/-- R129: in order when empty, or when d is at most the due of the outermost record. -/
def State.inOrder (s : State) (d : Option Nat) (r : SidingRec) : Bool :=
  match r.outermost with
  | none => true
  | some x => dueLe d (s.dueOf x.fleet)

/-- R130's first key: d − d′, on which every siding ties where d is absent. -/
def State.inversion (s : State) (d : Option Nat) (r : SidingRec) : Nat :=
  match d, r.outermost.bind (fun x => s.dueOf x.fleet) with
  | some a, some b => a - b
  | _, _ => 0

/-- The candidates of a gate. -/
def State.candidates (s : State) (g : Nat) : List (Nat × SidingRec) := s.stab.sidings.filter (fun p => s.candidate g p.1 p.2)

/-- R128: the eligible among the candidates. -/
def State.eligible (s : State) (g length : Nat) (mandatory : Needs) : List (Nat × SidingRec) :=
  (s.candidates g).filter (fun p =>
    covers p.2.abilities mandatory && decide (length + s.param.spacing ≤ s.freeLength p.2))

/-- What R129 and R130 choose: a siding and whether the placement inverts the order. -/
inductive Choice where
  | place (n : Nat) (inverted : Bool)
  | noPlace (why : PlaceReason)
  deriving DecidableEq, Repr

/-- R128–R130: the choice for a fleet. -/
def State.choose (s : State) (g fleet length : Nat) (mandatory wanted : Needs) : Choice :=
  let d := s.dueOf fleet
  let el := s.eligible g length mandatory
  if el.isEmpty then
    .noPlace (if !(s.candidates g).isEmpty && (s.candidates g).all (fun p => !covers p.2.abilities mandatory) then .needs
      else .capacity)
  else
    match firstRanked (s.rankKeys d length wanted) (el.filter (fun p => s.inOrder d p.2)) with
    | some p => .place p.1 false
    | none =>
      match s.param.inversion with
      | .hold => .noPlace .order
      | .accept =>
        match firstRanked (fun p => s.inversion d p.2 :: s.rankKeys d length wanted p) el with
        | some p => .place p.1 true
        | none => .noPlace .order

/-- R128–R131: the allocation claim of a gate. A placement changes a stack and sends its stacking report (R126). -/
def State.allocate (g fleet length : Nat) (mandatory wanted : Needs) (s : State) : State × Allocation :=
  if (s.findTram fleet).isSome then (s, .duplicate)
  else match s.choose g fleet length mandatory wanted with
    | .noPlace why => (s, .noPlace why)
    | .place n inverted =>
      let x : StackRec := ⟨fleet, length, mandatory, wanted, .reserved, false, none, some (.gateArrival g), s.stab.handed⟩
      let before := Tbl.find n s.stab.sidings
      let pos := (before.map (fun r => r.stack.length)).getD 0 + 1
      let s := (s.pushRecord n x).postStack n fleet pos (some .reserved) .reserved
      let s := match inverted, before.bind SidingRec.outermost with
        | true, some o => s.postInversion fleet n o.fleet
        | _, _ => s
      (s.report .reserved none, .siding n)

/-- R131: the release claim of a gate. -/
def State.releaseClaim (g fleet : Nat) (s : State) : State :=
  match s.findTram fleet with
  | some (n, _, i, x) =>
    if x.state = .reserved ∧ x.purpose = some (.gateArrival g) ∧ x.entered = false then
      ((s.dropRecord n fleet).postStack n fleet (i + 1) none .released).report .released (some g)
    else s
  | none => s

/-! ## Calls (R133, R155, R161) -/

/-- R133: the fleets of the records outside a place, outermost first, at most 5. -/
def SidingRec.outside (r : SidingRec) (i : Nat) : List Nat := (((r.stack.drop (i + 1)).reverse).take 5).map StackRec.fleet

/-- R133: a call's decision: the siding, with the record's place, or the refusal. -/
def State.callCheck (s : State) (f : Nat) : Except Ans (Nat × Nat) :=
  match s.findTram f with
  | none => .error (.refused .unknownTram)
  | some (n, r, i, x) =>
    match x.state with
    | .reserved => .error (.refused .unknownTram)
    | .called | .leaving => .error (.refused .inUse)
    | .stabled =>
      if r.census = .doubt then .error (.refused .doubt)
      else if r.blocked || r.incoming.isSome then .error (.refused .unavailable [.u8 n])
      else if i + 1 ≠ r.stack.length then .error (.refused .blocked (fList16 (r.outside i)))
      else .ok (n, i)

/-- R133: a record becomes CALLED with a purpose. -/
def State.markCalled (n f : Nat) (p : StackPurpose) (since : Bool) (s : State) : State :=
  s.onRecord n f (fun x => { x with state := .called, purpose := some p, sinceRestart := since })

/-- R133: the call claim of the roster block. -/
def State.callClaim (f : Nat) (p : StackPurpose) (s : State) : State × Except Ans Nat :=
  match s.callCheck f with
  | .error a => (s, .error a)
  | .ok (n, i) =>
    (((s.markCalled n f p s.stab.handed).postStack n f (i + 1) (some .called) .called).report .called none, .ok n)

/-- R133: the uncall claim. -/
def State.uncallClaim (f : Nat) (p : StackPurpose) (s : State) : State :=
  match s.findTram f with
  | some (n, _, i, x) =>
    if x.state = .called ∧ x.purpose = some p then
      ((s.onRecord n f StackRec.settle).postStack n f (i + 1) (some .stabled) .uncalled).report .uncalled none
    else s
  | none => s

/-- R155: the outermost record of a siding, where it is a candidate for an open duty. -/
def State.selectable (s : State) (gate : Nat) (minLength : Option Nat) (carried : List Nat) (p : Nat × SidingRec) :
    Option (Nat × StackRec) :=
  match p.2.outermost with
  | none => none
  | some x =>
    if x.state = .stabled ∧ !carried.contains x.fleet ∧ minLength.all (fun m => m ≤ x.length) ∧
        p.2.census = .known ∧ !p.2.blocked ∧ p.2.incoming.isNone ∧
        ((s.lookup .departure p.1 gate).bind s.routeDef).any (fun d => (s.unavailableObject d).isNone) then
      some (p.1, x)
    else none

/-- R155: the selection call claim: the fleet and siding called, or none. -/
def State.selectionClaim (duty gate : Nat) (minLength : Option Nat) (carried : List Nat) (s : State) :
    State × Option (Nat × Nat) :=
  match firstRanked (fun p => [p.2.stabledAt.getD 0, p.1]) (s.stab.sidings.filterMap (s.selectable gate minLength carried)) with
  | none => (s, none)
  | some (n, x) =>
    match s.callClaim x.fleet (.dutyDeparture duty) with
    | (s', .ok _) => (s', some (x.fleet, n))
    | (s', .error _) => (s', none)

/-- R161: the answer to a standing claim. -/
inductive Standing where
  | outermost
  | blocked (outside : List Nat)
  | notReady
  deriving DecidableEq, Repr

/-- R161: where a fleet stands; a LEAVING record is not ready (log entry 35). -/
def State.standing (s : State) (f : Nat) : Standing :=
  match s.findTram f with
  | some (_, r, i, x) =>
    if x.state = .stabled then if i + 1 = r.stack.length then .outermost else .blocked (r.outside i) else .notReady
  | none => .notReady

end Sys2Proof.Machine
end

