-- ==== Sys2Proof/Machine/Gates.lean ====
section
/-! DEFINITION. The gate controllers (06): reader frames, the pass window, the arrival queue, head processing, inflow hold, the
outbound side, restart. -/

namespace Sys2Proof.Machine

/-! ## Reader frames (R104) -/

/-- The eight bytes after 0x5A as a valid frame of a side; none where R104 discards them. The needs' bits 4–7 are ignored
(log entry 13). -/
def readerFrame (outbound : Bool) (bytes : List Byte) : Option ReaderFrame :=
  match bytes with
  | [flags, f1, f0, len, ma, wa, c1, c0] =>
    if crcBytes [flags, f1, f0, len, ma, wa] = [c1, c0] ∧ flags.getLsbD 1 = outbound ∧
        1 ≤ u16 f1 f0 ∧ u16 f1 f0 ≤ 4095 ∧ 10 ≤ len.toNat ∧ len.toNat ≤ 80 then
      some ⟨flags.getLsbD 0, u16 f1 f0, len.toNat, Needs.ofLow ma, Needs.ofLow wa⟩
    else none
  | _ => none

/-- A reader receiver hunts for 0x5A and takes the eight bytes that follow (09 section 9.7): its state after one byte, and
the bytes of a frame that this byte completes. -/
def readerByte (rx : Option (List Byte)) (b : Byte) : Option (List Byte) × Option (List Byte) :=
  match rx with
  | none => (if b = 0x5A then some [] else none, none)
  | some bs => if bs.length = 7 then (none, some (bs ++ [b])) else (some (bs ++ [b]), none)

/-! ## Notices (R123) -/

/-- The causes of an ARRIVAL_QUEUE notice. -/
inductive QueueCause where
  | read | unread | filled | identified | added | discarded | allocated | routed
  | routeRefused (why : Reason)
  | returned (event : Progress)
  | paused | resumed | restart
  deriving DecidableEq, Repr

/-- R123, R181: the cause's code, with the reason or event it carries. -/
def QueueCause.fields : QueueCause → List Field
  | .read => [.u8 1] | .unread => [.u8 2] | .filled => [.u8 3] | .identified => [.u8 4] | .added => [.u8 5]
  | .discarded => [.u8 6] | .allocated => [.u8 7] | .routed => [.u8 8]
  | .routeRefused why => [.u8 9, .u8 why.code]
  | .returned ev => [.u8 10, .u8 ev.code]
  | .paused => [.u8 11] | .resumed => [.u8 12] | .restart => [.u8 13]

/-- ARRIVAL_QUEUE for a record at a position. -/
def State.postArrival (g pos : Nat) (a : Arrival) (cause : QueueCause) (s : State) : State :=
  s.post .gate 1 (.u8 g :: arrivalFields pos a ++ cause.fields)

/-- ARRIVAL_QUEUE for the record that stands at a position. -/
def State.postQueue (g pos : Nat) (cause : QueueCause) (s : State) : State :=
  match (Tbl.find g s.gates).bind (fun x => x.queue[pos - 1]?) with
  | some a => s.postArrival g pos a cause
  | none => s

/-! ## The queue and its held reasons (R117) -/

/-- Change the record at a position of a gate's queue. -/
def State.onArrival (g pos : Nat) (f : Arrival → Arrival) (s : State) : State :=
  s.onGate g (fun x => { x with queue := x.queue.modify (pos - 1) f })

/-- R117: UNRESOLVED and QUEUE_HIGH after a change of the queue; `joined` where a record has joined it. -/
def Gate.refresh (highMark : Nat) (joined : Bool) (x : Gate) : Gate :=
  { x with held := { x.held with
      unresolved := x.queue.any (fun a => a.mark ≠ .none)
      queueHigh := !x.queue.isEmpty && (x.held.queueHigh || (joined && highMark ≤ x.queue.length)) } }

/-- R117 at a gate. -/
def State.queueChanged (g : Nat) (joined : Bool) (s : State) : State := s.onGate g (Gate.refresh s.param.queueHighMark joined)

/-! ## Head processing (R114, R115) -/

/-- A record back in WAITING with siding and route slot absent (R115, R116, R124). -/
def Arrival.returned (a : Arrival) : Arrival := { a with state := .waiting, siding := none, slot := none }

/-- R115: the arrival route of an allocated head is requested; a refusal releases the reservation, and the gate keeps the
report of that reservation in mind as one that is no occasion for it (log entry 47). -/
def State.requestArrival (g fleet n : Nat) (s : State) : State :=
  let out : State × Granted := match s.lookup .arrival g n with
    | some route => s.requestRoute [.arrival] ⟨route, .auto, .gateArrival g fleet, none⟩
    | none => (s, .refused .unavailable [])
  let own := s.stackReport .reserved none
  match out with
  | (s, .accepted slot) => (s.onArrival g 1 (fun a => { a with slot := some slot })).postQueue g 1 .allocated
  | (s, .stored _) => s.postQueue g 1 .allocated
  | (s, .refused why _) =>
    let s := (s.releaseClaim g fleet).onGate g (fun x => { x with ownReport := some own })
    (s.onArrival g 1 Arrival.returned).postQueue g 1 (.routeRefused why)

/-- R114: a NO_PLACE answer. -/
def State.noPlace (g fleet : Nat) (why : PlaceReason) (s : State) : State :=
  match Tbl.find g s.gates with
  | some x =>
    if x.placeNone = some why then s
    else (s.onGate g (fun x => { x with placeNone := some why })).post .gate 3 [.u8 g, .u16 fleet, .u8 why.code]
  | none => s

/-- R114: head processing, where the head is WAITING with mark NONE and desk-pause clear. -/
def State.processHead (g : Nat) (s : State) : State :=
  match (Tbl.find g s.gates).bind (fun x => x.queue.head?) with
  | none => s
  | some a =>
    match a.fleet, a.length, a.mandatory, a.wanted with
    | some fleet, some length, some mandatory, some wanted =>
      if a.state = .waiting ∧ a.mark = .none ∧ a.paused = false then
        match s.allocate g fleet length mandatory wanted with
        | (s, .siding n) =>
          let s := s.onArrival g 1 (fun a => { a with state := .allocated, siding := some n })
          (s.onGate g (fun x => { x with placeNone := none })).requestArrival g fleet n
        | (s, .noPlace why) => s.noPlace g fleet why
        | (s, .duplicate) => s
      else s
    | _, _, _, _ => s

/-- The place-none memory of a new head is none (R112). -/
def State.newHead (g : Nat) (s : State) : State := (s.onGate g (fun x => { x with placeNone := none })).processHead g

/-! ## The pass window (R105–R110) -/

/-- R107: the pass is an overrun. -/
def State.overrun (g : Nat) (s : State) : State :=
  (s.onGate g (fun x => { x with window := .overrun, waitTimer := none, held := { x.held with overrun := true } })).raise
    (.gateOverrun g)

/-- A record joins the tail (R111), with its notice and held reasons; a new head is processed. -/
def State.joinQueue (g : Nat) (a : Arrival) (cause : QueueCause) (s : State) : State :=
  let pos := ((Tbl.find g s.gates).map (fun x => x.queue.length)).getD 0 + 1
  let s := (s.onGate g (fun x => { x with queue := x.queue ++ [a] })).postQueue g pos cause
  let s := s.queueChanged g true
  if pos = 1 then s.newHead g else s

/-- R105, R108: the identity of a read record: fleet and mark NONE where the number is free, claimed and mark CONFLICT where
it is present. -/
def State.identify (s : State) (f : ReaderFrame) (a : Arrival) : Arrival :=
  let a := { a with length := some f.length, mandatory := some f.mandatory, wanted := some f.wanted, readTime := s.minute }
  match s.identity f.fleet with
  | .free => { a with fleet := some f.fleet, claimed := none, mark := .none }
  | .present _ => { a with fleet := none, claimed := some f.fleet, mark := .conflict }

/-- A WAITING record with nothing known (R109). -/
def Arrival.blank (now : Option Nat) : Arrival :=
  { fleet := none, claimed := none, length := none, mandatory := none, wanted := none, mark := .unread, state := .waiting,
    siding := none, slot := none, paused := false, readTime := now, isWindow := false }

/-- R105, R107: a record is created from a frame, or the pass is an overrun. -/
def State.createRecord (g : Nat) (x : Gate) (f : ReaderFrame) (s : State) : State :=
  if x.queue.length = Config.queueSize then s.overrun g
  else
    let s := s.onGate g (fun x => { x with window := .read, waitTimer := none })
    s.joinQueue g (s.identify f (Arrival.blank s.minute)) .read

/-- R108: a late frame fills the window record, if it still stands with mark UNREAD. -/
def State.fillRecord (g : Nat) (x : Gate) (f : ReaderFrame) (s : State) : State :=
  match x.queue.findIdx? (fun a => a.isWindow && a.mark = .unread) with
  | none => s
  | some i =>
    let s := ((s.onArrival g (i + 1) (s.identify f)).postQueue g (i + 1) .filled).queueChanged g false
    if i = 0 then s.processHead g else s

/-- R108: a valid inbound frame in an open window, by the window's state and the toggle. -/
def State.takeInWindow (g : Nat) (x : Gate) (d : GateDef) (f : ReaderFrame) (s : State) : State :=
  if x.inToggle = some f.toggle then s
  else
    let s := s.onGate g (fun x => { x with inToggle := some f.toggle })
    match x.window with
    | .wait | .untimed => s.createRecord g x f
    | .read => s.onSection d.reader (fun r => { r with noise := true })
    | .unread => (s.onGate g (fun x => { x with window := .read })).fillRecord g x f
    | .overrun | .closed => s

/-- R108, R110: a valid inbound frame. -/
def State.takeInbound (g : Nat) (f : ReaderFrame) (s : State) : State :=
  match Tbl.find g s.gates, Tbl.find g s.desc.gates with
  | some x, some d =>
    if x.window = .closed then
      if x.early.isSome then s
      else s.onGate g (fun x => { x with early := some ⟨f, s.param.readerWait * 1000⟩ })
    else s.takeInWindow g x d f
  | _, _ => s

/-- One byte on a gate's inbound reader link. -/
def State.inboundByte (g : Nat) (s : State) (b : Byte) : State :=
  match Tbl.find g s.gates with
  | none => s
  | some x =>
    let out := readerByte x.rxIn b
    let s := s.onGate g (fun x => { x with rxIn := out.1 })
    match out.2.bind (readerFrame false) with
    | some f => s.takeInbound g f
    | none => s

/-- INBOUND_FRAME (R104, R105, R108, R110): the bytes of the link; they are taken in RUN at a defined gate alone (R1). -/
def execInboundFrame (g : Nat) (bytes : List Byte) (s : State) : Result := done (bytes.foldl (State.inboundByte g) s)

/-- R106: the pass window opens. -/
def State.openWindow (g : Nat) (x : Gate) (d : GateDef) (s : State) : State :=
  let s := if x.queue.length = Config.queueSize then s.overrun g
    else s.onGate g (fun y => { y with window := .wait, waitTimer := some (s.param.readerWait * 1000) })
  match x.early, Tbl.find g s.gates with
  | some e, some y => (s.onGate g (fun y => { y with early := none })).takeInWindow g y d e.frame
  | _, _ => s

/-- READER_OCCUPY_EDGE (R106, R107). -/
def execReaderOccupyEdge (g : Nat) (cause : EdgeCause) (s : State) : Result :=
  let s := s.take (.readerOccupyEdge g cause)
  match Tbl.find g s.gates, Tbl.find g s.desc.gates with
  | some x, some d => if x.window = .closed then done (s.openWindow g x d) else done s
  | _, _ => done s

/-- R109: an UNREAD record is appended as the window record, or the pass is an overrun. -/
def State.appendUnread (g : Nat) (x : Gate) (s : State) : State :=
  if x.queue.length = Config.queueSize then s.overrun g
  else
    let s := s.onGate g (fun x => { x with window := .unread, waitTimer := none })
    s.joinQueue g { Arrival.blank s.minute with isWindow := true } .unread

/-- READER_CLEAR_EDGE (R109): an open window closes. -/
def execReaderClearEdge (g : Nat) (cause : EdgeCause) (s : State) : Result :=
  let s := s.take (.readerClearEdge g cause)
  match Tbl.find g s.gates with
  | none => done s
  | some x =>
    let s := if x.window = .wait then s.appendUnread g x else s
    done (s.onGate g (fun x => { x with
      window := .closed, waitTimer := none, queue := x.queue.map (fun a => { a with isWindow := false }) }))

/-- READER_WAIT_EXPIRY (R109). -/
def execReaderWaitExpiry (g : Nat) (s : State) : Result :=
  match Tbl.find g s.gates with
  | some x => if x.window = .wait then done (s.appendUnread g x) else done s
  | none => done s

/-- EARLY_READ_EXPIRY (R110). -/
def execEarlyReadExpiry (g : Nat) (s : State) : Result := done (s.onGate g (fun x => { x with early := none }))

/-! ## Reports and events -/

/-- R117: the CAPACITY_LOW thresholds. -/
def capacityLow (held : Bool) (free reserve band : Nat) : Bool :=
  if free < reserve then true else if reserve + band ≤ free then false else held

/-- STACKING_REPORT (R114, R117): an occasion for head processing, but for the report of this gate's own release claim and of
the reservation it released (R115, log entry 47). -/
def execStackingReport (g : Nat) (rep : StackReport) (s : State) : Result :=
  let s := s.take (.stackingReport g rep)
  let free := if g = 1 then rep.capacity1 else rep.capacity2
  let own := (Tbl.find g s.gates).any (fun x => x.ownReport = some rep)
  let s := s.onGate g (fun x => { x with
    ownReport := if own then none else x.ownReport
    freeCapacity := some free
    held := { x.held with
      capacityLow := capacityLow x.held.capacityLow free s.param.capacityReserve s.param.capacityBand } })
  done (if rep.releaseGate = some g ∨ own then s else s.processHead g)

/-- GATE_HALT_REPORT (R118). -/
def execGateHaltReport (g : Nat) (isSet : Bool) (s : State) : Result :=
  let s := s.take (.gateHaltReport g isSet)
  done (s.onGate g (fun x => { x with held := { x.held with halt := isSet } }))

/-- The fleet that an arrival event is about: that of its purpose link. -/
def arrivalFleet (ev : RouteEvent) : Option Nat :=
  match ev.purpose with | .gateArrival _ f => some f | _ => none

/-- R116: an event of a gate's arrival route on the record at a position. ARRIVAL_ENTERED shows the siding of the record as it stands,
absent (0) where a restart had returned it to WAITING (log entry 62, DESIGN CHOICE), and the slot of the event (log entry 31). -/
def State.takeArrivalEvent (g pos : Nat) (a : Arrival) (ev : RouteEvent) (s : State) : State :=
  match ev.event with
  | .proceed =>
    if a.state = .allocated then
      (s.onArrival g pos (fun a => { a with state := .routed, slot := ev.slot })).postQueue g pos .routed
    else s
  | .firstEntered =>
    let s := s.onGate g (fun x => { x with queue := x.queue.eraseIdx (pos - 1) })
    let s := s.post .gate 2 [.u8 g, f16 a.fleet, f8 a.siding, f8 ev.slot]
    let s := s.queueChanged g false
    if pos = 1 then s.newHead g else s
  | .failed _ | .expired =>
    if a.state = .waiting then s
    else
      let s := (s.onArrival g pos Arrival.returned).postQueue g pos (.returned ev.event)
      if pos = 1 then s.processHead g else s
  | .cancelled =>
    if a.state = .waiting then s
    else (s.onArrival g pos (fun a => { a.returned with paused := true })).postQueue g pos .paused
  | _ => s

/-- GATE_ARRIVAL_EVENT (R116): on the record of the event's fleet. -/
def execGateArrivalEvent (g : Nat) (ev : RouteEvent) (s : State) : Result :=
  let s := s.take (.gateArrivalEvent g ev)
  match Tbl.find g s.gates with
  | none => done s
  | some x =>
    match (arrivalFleet ev).bind (fun f => x.queue.findIdx? (fun a => a.fleet = some f)) with
    | none => done s
    | some i =>
      match x.queue[i]? with
      | some a => done (s.takeArrivalEvent g (i + 1) a ev)
      | none => done s

/-! ## The outbound side (R120, R121) -/

/-- R120: the DEPARTURE entry that has reserved a section, by its catalogue route. -/
def State.departureOn (s : State) (n : Nat) : Option Nat :=
  ((s.reservedBy n).bind (fun slot => Tbl.find slot s.route.table)).bind
    (fun e => if e.kind = .departure then some e.route else none)

/-- R120: a valid outbound frame. -/
def State.takeOutbound (g : Nat) (f : ReaderFrame) (s : State) : State :=
  match Tbl.find g s.gates, Tbl.find g s.desc.gates with
  | some x, some d =>
    if x.outToggle = some f.toggle then s
    else
      let s := s.onGate g (fun x => { x with outToggle := some f.toggle })
      match s.departureOn d.gateOut with
      | some route =>
        if s.isOccupied d.gateOut ∧ x.outRead.all (fun o => o.route ≠ route) then
          s.onGate g (fun x => { x with outRead := some ⟨f.fleet, route, s.minute⟩ })
        else s
      | none => s
  | _, _ => s

/-- One byte on a gate's outbound reader link. -/
def State.outboundByte (g : Nat) (s : State) (b : Byte) : State :=
  match Tbl.find g s.gates with
  | none => s
  | some x =>
    let out := readerByte x.rxOut b
    let s := s.onGate g (fun x => { x with rxOut := out.1 })
    match out.2.bind (readerFrame true) with
    | some f => s.takeOutbound g f
    | none => s

/-- OUTBOUND_FRAME (R104, R120). -/
def execOutboundFrame (g : Nat) (bytes : List Byte) (s : State) : Result := done (bytes.foldl (State.outboundByte g) s)

/-- R121: the tram read is not the tram of the route: alarm, and doubt claims for the route's siding and for the siding in
which the read fleet stands. -/
def State.wrongTram (ev : RouteEvent) (read : Nat) (s : State) : State :=
  let s := s.raise (.wrongTramOut (ev.tram.getD 0))
  let s := match (s.routeDef ev.route).bind RouteDef.fromObj with
    | some n => s.doubtClaim n .doubtClaim
    | none => s
  match s.identity read with
  | .present (some n) => s.doubtClaim n .doubtClaim
  | _ => s

/-- R121: COMPLETE of a departure route to the gate. -/
def State.compareOutbound (g : Nat) (x : Gate) (ev : RouteEvent) (s : State) : State :=
  let departed (read : Option Nat) := s.post .gate 6 [.u8 g, .u8 ev.route, f16 ev.tram, f16 read]
  let s := match x.outRead with
    | some o =>
      if o.route = ev.route then if ev.tram = some o.fleet then departed (some o.fleet) else s.wrongTram ev o.fleet
      else departed none
    | none => departed none
  s.onGate g (fun x => { x with outRead := none })

/-- GATE_DEPARTURE_EVENT (R121). -/
def execGateDepartureEvent (g : Nat) (ev : RouteEvent) (s : State) : Result :=
  let s := s.take (.gateDepartureEvent g ev)
  match Tbl.find g s.gates with
  | none => done s
  | some x =>
    match ev.event with
    | .complete => done (s.compareOutbound g x ev)
    | .failed _ | .expired | .cancelled | .forceReleased =>
      done (if x.outRead.any (fun o => o.route = ev.route) then s.onGate g (fun x => { x with outRead := none }) else s)
    | _ => done s

/-! ## Desk and line requests (R107, R112, R113, R118, R122) -/

/-- R112, R113: fleet 1–4095 and length 10–80 m. -/
def tramInRange (fleet length : Nat) : Bool := 1 ≤ fleet && fleet ≤ 4095 && 10 ≤ length && length ≤ 80

/-- The record that ARRIVAL_IDENTIFY and ARRIVAL_ADD write (R112, R113). -/
def Arrival.known (now : Option Nat) (fleet length : Nat) (mandatory wanted : Needs) (a : Arrival) : Arrival :=
  { a with fleet := some fleet, claimed := none, length := some length, mandatory := some mandatory, wanted := some wanted,
           mark := .none, readTime := now }

/-- R112: ARRIVAL_IDENTIFY. -/
def takeIdentify (g position fleet length : Nat) (mandatory wanted : Byte) (s : State) : State × Ans :=
  match Tbl.find g s.gates, Needs.ofByte? mandatory, Needs.ofByte? wanted with
  | some x, some ma, some wa =>
    match (if position = 0 then none else x.queue[position - 1]?) with
    | none => (s, .refused .badArgument)
    | some a =>
      if !tramInRange fleet length then (s, .refused .badArgument)
      else if a.mark = .none then (s, .refused .wrongState)
      else match s.identity fleet with
        | .present _ => (s, .refused .duplicate)
        | .free =>
          let s := (s.onArrival g position (Arrival.known s.minute fleet length ma wa)).postQueue g position .identified
          let s := s.queueChanged g false
          (if position = 1 then s.processHead g else s, .done)
  | _, _, _ => (s, .refused .badArgument)

/-- R112: ARRIVAL_DISCARD. -/
def takeDiscard (g position : Nat) (s : State) : State × Ans :=
  match Tbl.find g s.gates with
  | none => (s, .refused .badArgument)
  | some x =>
    match (if position = 0 then none else x.queue[position - 1]?) with
    | none => (s, .refused .badArgument)
    | some a =>
      if a.state ≠ .waiting then (s, .refused .wrongState)
      else
        let s := s.onGate g (fun x => { x with queue := x.queue.eraseIdx (position - 1) })
        let s := (s.postArrival g position a .discarded).queueChanged g false
        (if position = 1 then s.newHead g else s, .done)

/-- R113: ARRIVAL_ADD. -/
def takeAdd (g fleet length : Nat) (mandatory wanted : Byte) (s : State) : State × Ans :=
  match Tbl.find g s.gates, Needs.ofByte? mandatory, Needs.ofByte? wanted with
  | some x, some ma, some wa =>
    if !tramInRange fleet length then (s, .refused .badArgument)
    else if x.queue.length = Config.queueSize then (s, .refused .full)
    else match s.identity fleet with
      | .present _ => (s, .refused .duplicate)
      | .free =>
        (s.joinQueue g ((Arrival.blank s.minute).known s.minute fleet length ma wa) .added, .done [.u8 (x.queue.length + 1)])
  | _, _, _ => (s, .refused .badArgument)

/-- R113: ARRIVAL_RESUME. -/
def takeArrivalResume (g : Nat) (s : State) : State × Ans :=
  match (Tbl.find g s.gates).bind (fun x => x.queue.head?) with
  | none => (s, .refused (if (Tbl.find g s.gates).isSome then .wrongState else .badArgument))
  | some a =>
    let s := s.onArrival g 1 (fun a => { a with paused := false })
    ((if a.paused then s.postQueue g 1 .resumed else s).processHead g, .done)

/-- R107: GATE_CLEAR_OVERRUN. -/
def takeClearOverrun (g : Nat) (s : State) : State × Ans :=
  match Tbl.find g s.gates with
  | none => (s, .refused .badArgument)
  | some x =>
    if x.queue.length = Config.queueSize then (s, .refused .full)
    else if !x.held.overrun then (s, .done)
    else
      ((s.onGate g (fun x => { x with held := { x.held with overrun := false } })).endAlarm (.gateOverrun g), .done)

/-- A change of a gate's state that is answered DONE (R118). -/
def takeGate (g : Nat) (f : Gate → Gate) (s : State) : State × Ans :=
  match Tbl.find g s.gates with
  | none => (s, .refused .badArgument)
  | some _ => (s.onGate g f, .done)

/-- R122: the line-hold flag is set or cleared. -/
def takeLine (g : Nat) (value : Bool) (s : State) : State × Ans :=
  match Tbl.find g s.gates with
  | none => (s, .refused .badArgument)
  | some x =>
    if x.lineHold = value then (s, .done)
    else ((s.onGate g (fun x => { x with lineHold := value })).post .gate 7 [.u8 g, fFlag value], .done)

/-- ARRIVAL_IDENTIFY (R112). -/
def execArrivalIdentify (r : Req) (g position fleet length : Nat) (mandatory wanted : Byte) (s : State) : Result :=
  takeRequest (.arrivalIdentify r g position fleet length mandatory wanted) .arrivalIdentify r s
    (takeIdentify g position fleet length mandatory wanted)

/-- ARRIVAL_DISCARD (R112). -/
def execArrivalDiscard (r : Req) (g position : Nat) (s : State) : Result :=
  takeRequest (.arrivalDiscard r g position) .arrivalDiscard r s (takeDiscard g position)

/-- ARRIVAL_ADD (R113). -/
def execArrivalAdd (r : Req) (g fleet length : Nat) (mandatory wanted : Byte) (s : State) : Result :=
  takeRequest (.arrivalAdd r g fleet length mandatory wanted) .arrivalAdd r s (takeAdd g fleet length mandatory wanted)

/-- ARRIVAL_RESUME (R113). -/
def execArrivalResume (r : Req) (g : Nat) (s : State) : Result :=
  takeRequest (.arrivalResume r g) .arrivalResume r s (takeArrivalResume g)

/-- GATE_HOLD (R118): FORCED is added. -/
def execGateHold (r : Req) (g : Nat) (s : State) : Result :=
  takeRequest (.gateHold r g) .gateHold r s (takeGate g (fun x => { x with held := { x.held with forced := true } }))

/-- GATE_RELEASE (R118): FORCED and RESTART are removed. -/
def execGateRelease (r : Req) (g : Nat) (s : State) : Result :=
  takeRequest (.gateRelease r g) .gateRelease r s
    (takeGate g (fun x => { x with held := { x.held with forced := false, restart := false } }))

/-- GATE_CLEAR_OVERRUN (R107). -/
def execGateClearOverrun (r : Req) (g : Nat) (s : State) : Result :=
  takeRequest (.gateClearOverrun r g) .gateClearOverrun r s (takeClearOverrun g)

/-- LINE_HOLD (R122). -/
def execLineHold (r : Req) (g : Nat) (s : State) : Result := takeRequest (.lineHold r g) .lineHold r s (takeLine g true)

/-- LINE_RELEASE (R122). -/
def execLineRelease (r : Req) (g : Nat) (s : State) : Result :=
  takeRequest (.lineRelease r g) .lineRelease r s (takeLine g false)

/-! ## Restart (R124) -/

/-- R124: an arrival record after a restart. -/
def Arrival.restart (a : Arrival) : Arrival := { a.returned with paused := false, isWindow := false }

/-- R124: one record of a gate at a restart: notice where it changed, release claim where it was ALLOCATED or ROUTED. -/
def State.restartArrival (g : Nat) (s : State) (p : Arrival × Nat) : State :=
  let s := if { p.1.restart with isWindow := p.1.isWindow } = p.1 then s else s.postArrival g (p.2 + 1) p.1.restart .restart
  match p.1.state, p.1.fleet with
  | .waiting, _ => s
  | _, some f => s.releaseClaim g f
  | _, none => s

/-- R124: a gate's state after a restart, with its reader section occupied or not. Its reader receivers are kept as they stand
(log entry 49, DESIGN CHOICE). -/
def Gate.restart (occupied : Bool) (x : Gate) : Gate :=
  { x with
    queue := x.queue.map Arrival.restart
    window := if occupied then .untimed else .closed
    waitTimer := none
    early := none
    outRead := none
    placeNone := none
    held := { x.held with restart := true } }

/-- GATE_RESTART (R124, R190): the records from the head, each with its notice and then its release claim (log entry 65, DESIGN
CHOICE). -/
def execGateRestart (g : Nat) (s : State) : Result :=
  let s := s.take (.gateRestart g)
  match Tbl.find g s.gates, Tbl.find g s.desc.gates with
  | some x, some d =>
    let s := s.onGate g (Gate.restart (s.isOccupied d.reader))
    done ((x.queue.zipIdx.foldl (State.restartArrival g) s).send (.restartTakenReport (.gate g)))
  | _, _ => done s

end Sys2Proof.Machine
end

