-- ==== Sys2Proof/Machine/Stabling.lean ====
section
/-! DEFINITION. The stabling block's commands (07): progress events, body edges, census and siding fields, shunts, restart. -/

namespace Sys2Proof.Machine

/-! ## Arrivals (R132) -/

/-- R147: STABLED. -/
def State.postStabled (f n pos : Nat) (s : State) : State := s.post .stabling 1 [.u16 f, .u8 n, .u8 pos]

/-- A record leaves a stack, with its STACK_CHANGE notice. -/
def State.removeRecord (n f pos : Nat) (cause : StackCause) (s : State) : State :=
  (s.dropRecord n f).postStack n f pos none cause

/-- R132: an arrival event on the RESERVED record of its fleet, at place i of siding n. At FORCE-RELEASED the stacking report carries
REMOVED (log entry 63, DESIGN CHOICE), and STACK_CHANGE is posted before SIDING_STATE (log entry 64, DESIGN CHOICE). -/
def State.takeArrival (n f i : Nat) (ev : Progress) (s : State) : State :=
  match ev with
  | .firstEntered => s.onRecord n f (fun x => { x with entered := true })
  | .complete => ((s.onRecord n f (StackRec.stable s.minute)).postStabled f n (i + 1)).report .stabled none
  | .failed _ | .expired | .cancelled => (s.removeRecord n f (i + 1) .released).report .released none
  | .forceReleased => ((s.removeRecord n f (i + 1) .removed).setDoubt n .forceReleased).report .removed none
  | _ => s

/-- STABLING_ARRIVAL_EVENT (R132); the entered flag alone sends no report (log entry 28). -/
def execStablingArrivalEvent (ev : RouteEvent) (s : State) : Result :=
  let s := s.take (.stablingArrivalEvent ev)
  match ev.purpose with
  | .gateArrival g f =>
    match s.findTram f with
    | some (n, _, i, x) =>
      if x.state = .reserved ∧ x.purpose = some (.gateArrival g) then done (s.takeArrival n f i ev.event) else done s
    | none => done s
  | _ => done s

/-! ## Departures (R134) -/

/-- The fleet and the stack purpose that a departure event names. -/
def departurePurpose : Purpose → Option (Nat × StackPurpose)
  | .dutyDeparture d f => some (f, .dutyDeparture d)
  | .fleetDeparture f g => some (f, .fleetDeparture g)
  | _ => none

/-- R134: a departure event on the record found, at place i of siding n; FORCE-RELEASED as in `State.takeArrival` (log entries 63 and
64, DESIGN CHOICE). -/
def State.takeDeparture (n f i : Nat) (x : StackRec) (ev : Progress) (s : State) : State :=
  match x.state, ev with
  | .called, .firstEntered =>
    ((s.onRecord n f (fun x => { x with state := .leaving })).postStack n f (i + 1) (some .leaving) .leaving).report .leaving none
  | .leaving, .elementReleased k => if k = 1 then (s.removeRecord n f (i + 1) .left).report .left none else s
  | .leaving, .complete => (s.removeRecord n f (i + 1) .left).report .left none
  | .called, .failed _ | .called, .expired | .called, .cancelled =>
    ((s.onRecord n f StackRec.settle).postStack n f (i + 1) (some .stabled) .uncalled).report .uncalled none
  | .leaving, .forceReleased =>
    (((s.removeRecord n f (i + 1) .removed).setDoubt n .forceReleased).report .removed none).raise (.departureAbandoned f)
  | _, _ => s

/-- STABLING_DEPARTURE_EVENT (R134); where the record is gone, the stacking report goes before the alarm (log entry 64, DESIGN CHOICE). -/
def execStablingDepartureEvent (ev : RouteEvent) (s : State) : Result :=
  let s := s.take (.stablingDepartureEvent ev)
  match departurePurpose ev.purpose with
  | none => done s
  | some (f, p) =>
    let gone : State := match ev.event, (s.routeDef ev.route).bind RouteDef.fromObj with
      | .forceReleased, some n => (s.doubtClaim n .forceReleased).raise (.departureAbandoned f)
      | .forceReleased, none => s.raise (.departureAbandoned f)
      | _, _ => s
    match s.findTram f with
    | some (n, _, i, x) => if x.purpose = some p then done (s.takeDeparture n f i x ev.event) else done gone
    | none => done gone

/-! ## Body edges (R138) -/

/-- R138: whether an edge of a body section mismatches the stack. -/
def bodyMismatch (stack : List StackRec) : Occ → Bool
  | .occupied => match stack with
    | [] => true
    | [x] => x.state = .reserved && !x.entered
    | _ => false
  | .clear => stack.any (fun x => x.state = .stabled)

/-- BODY_EDGE (R138): the stacking report goes before the alarm (log entry 64, DESIGN CHOICE). -/
def execBodyEdge (sect : Nat) (state : Occ) (cause : EdgeCause) (s : State) : Result :=
  let s := s.take (.bodyEdge sect state cause)
  match s.sidingOf sect with
  | none => done s
  | some n =>
    match Tbl.find n s.stab.sidings with
    | none => done s
    | some r =>
      if r.census = .known ∧ bodyMismatch r.stack state then done ((s.doubtClaim n .bodyMismatch).raise (.bodyMismatch n)) else done s

/-! ## Census and siding fields (R135–R139) -/

/-- R136: an entry of a census as a stack record. -/
def CensusEntry.record (now : Option Nat) (e : CensusEntry) : StackRec :=
  ⟨e.fleet, e.length, Needs.ofLow e.mandatory, Needs.ofLow e.wanted, .stabled, false, now, none, false⟩

/-- R135: whether a fleet stands in another siding's stack or in an arrival queue. -/
def State.standsElsewhere (s : State) (n f : Nat) : Bool :=
  s.stab.sidings.any (fun p => decide (p.1 ≠ n) && p.2.stack.any (fun x => x.fleet = f)) ||
  s.gates.any (fun g => g.2.queue.any (fun a => a.fleet = some f))

/-- R135: the first fleet, in the order of the list, that repeats an earlier one or stands elsewhere; it is the fleet that a
DUPLICATE names (log entry 53, DESIGN CHOICE). -/
def State.duplicateFleet (s : State) (n : Nat) : List Nat → List Nat → Option Nat
  | _, [] => none
  | seen, f :: fs => if seen.contains f || s.standsElsewhere n f then some f else s.duplicateFleet n (f :: seen) fs

/-- R135, R136: CENSUS_SET. -/
def takeCensus (n : Nat) (es : List CensusEntry) (s : State) : State × Ans :=
  match Tbl.find n s.stab.sidings with
  | none => (s, .refused .badArgument)
  | some r =>
    if r.stack.any (fun x => x.state ≠ .stabled) || r.incoming.isSome || (s.reservedBy r.mouth).isSome then
      (s, .refused .wrongState)
    else if decide (Config.stackSize < es.length) || es.any (fun e => !tramInRange e.fleet e.length) then
      (s, .refused .badArgument)
    else if r.length < (es.map (fun e => e.length + s.param.spacing)).sum then (s, .refused .full)
    else match s.duplicateFleet n [] (es.map CensusEntry.fleet) with
      | some f => (s, .refused .duplicate [.u16 f])
      | none =>
        if (es.isEmpty && s.isOccupied r.body) || (!es.isEmpty && s.isClear r.body) then (s, .refused .bodyMismatch)
        else
          let s := s.onSiding n (fun r => { r with stack := es.map (CensusEntry.record s.minute), census := .known })
          ((s.postSiding n .census).report .census none, .done)

/-- R139: a field of a siding takes a value; a change posts SIDING_STATE and sends a report (log entry 45). -/
def changeSiding (n : Nat) (f : SidingRec → SidingRec) (cause : StackCause) (s : State) : State × Ans :=
  match Tbl.find n s.stab.sidings with
  | none => (s, .refused .badArgument)
  | some r => if f r = r then (s, .done) else (((s.onSiding n f).postSiding n cause).report cause none, .done)

/-- R139: SIDING_ABILITIES. -/
def takeAbilities (n : Nat) (abilities : Byte) (s : State) : State × Ans :=
  match Needs.ofByte? abilities with
  | some ab => changeSiding n (fun r => { r with abilities := ab }) .abilities s
  | none => (s, .refused .badArgument)

/-- R137: SIDING_DOUBT. -/
def takeDoubt (n : Nat) (s : State) : State × Ans :=
  if (Tbl.find n s.stab.sidings).isSome then (s.doubtClaim n .doubt, .done) else (s, .refused .badArgument)

/-- CENSUS_SET (R135, R136). -/
def execCensusSet (r : Req) (n : Nat) (es : List CensusEntry) (s : State) : Result :=
  takeRequest (.censusSet r n es) .censusSet r s (takeCensus n es)

/-- SIDING_ABILITIES (R139). -/
def execSidingAbilities (r : Req) (n : Nat) (abilities : Byte) (s : State) : Result :=
  takeRequest (.sidingAbilities r n abilities) .sidingAbilities r s (takeAbilities n abilities)

/-- SIDING_BLOCK (R139). -/
def execSidingBlock (r : Req) (n : Nat) (s : State) : Result :=
  takeRequest (.sidingBlock r n) .sidingBlock r s (changeSiding n (fun r => { r with blocked := true }) .blocked)

/-- SIDING_UNBLOCK (R139). -/
def execSidingUnblock (r : Req) (n : Nat) (s : State) : Result :=
  takeRequest (.sidingUnblock r n) .sidingUnblock r s (changeSiding n (fun r => { r with blocked := false }) .unblocked)

/-- SIDING_DOUBT (R137). -/
def execSidingDoubt (r : Req) (n : Nat) (s : State) : Result :=
  takeRequest (.sidingDoubt r n) .sidingDoubt r s (takeDoubt n)

/-! ## Shunts (R140–R146) -/

/-- R142–R144: the causes of a SHUNT_PHASE notice. -/
inductive ShuntCause where
  | none
  | event (ev : Progress)
  | targetBlocked
  | refused (why : Reason)
  | requestedAgain (ev : Progress)
  | inCancelled
  | requested
  deriving DecidableEq, Repr

/-- The cause's code, with the event or reason it carries (log entry 42); which notice carries which, where its rule names none, is log
entry 70 (DESIGN CHOICE). -/
def ShuntCause.fields : ShuntCause → List Field
  | .none => [.u8 0] | .event ev => [.u8 1, .u8 ev.code] | .targetBlocked => [.u8 2] | .refused why => [.u8 3, .u8 why.code]
  | .requestedAgain ev => [.u8 4, .u8 ev.code] | .inCancelled => [.u8 5] | .requested => [.u8 6]

/-- R147: SHUNT_PHASE of an entry, with its phase or ENDED (5: log entry 59, DESIGN CHOICE). -/
def State.postShunt (h : Nat) (e : ShuntEntry) (phase : Option ShuntPhase) (cause : ShuntCause) (s : State) : State :=
  s.post .stabling 5 ([.u8 h, .u16 e.fleet, .u8 e.source, .u8 e.target, .u8 ((phase.map ShuntPhase.code).getD 5)] ++ cause.fields)

/-- SHUNT_PHASE of the entry that stands. -/
def State.postPhase (h : Nat) (cause : ShuntCause) (s : State) : State :=
  match Tbl.find h s.stab.shunts with
  | some e => s.postShunt h e (some e.phase) cause
  | none => s

/-- A shunt entry ends: removed, with SHUNT_PHASE of phase ENDED. -/
def State.endShunt (h : Nat) (e : ShuntEntry) (cause : ShuntCause) (s : State) : State :=
  (s.onStab (fun b => { b with shunts := Tbl.del h b.shunts })).postShunt h e none cause

/-- A siding's incoming-shunt field becomes none, with its SIDING_STATE notice (R147), whose cause is that of the stack change
in the same taking (log entry 52, DESIGN CHOICE). -/
def State.clearIncoming (n : Nat) (cause : StackCause) (s : State) : State :=
  match (Tbl.find n s.stab.sidings).bind SidingRec.incoming with
  | some _ => (s.onSiding n (fun r => { r with incoming := none })).postSiding n cause
  | none => s

/-- The request for a route of a shunt (R141, R143). -/
def ShuntEntry.routeRequest (h : Nat) (e : ShuntEntry) (route : Nat) : RouteRequest :=
  ⟨route, e.owner, .shuntEntry h e.fleet, some e.fleet⟩

/-- R143: the in route is requested, unless the target is blocked; `asked` is the cause noticed with the request, and a
refusal is noticed after it (log entry 42). With the target blocked TARGET_BLOCKED is noticed and `asked` is not, also where
the in route is requested again (log entry 54, DESIGN CHOICE). -/
def State.requestIn (h : Nat) (asked : ShuntCause) (s : State) : State × Ans :=
  match Tbl.find h s.stab.shunts with
  | none => (s, .refused .wrongState)
  | some e =>
    let s := s.onShunt h (fun x => { x with inRoute := none, standing := .none })
    if (Tbl.find e.target s.stab.sidings).any SidingRec.blocked then
      (s.postPhase h .targetBlocked, .refused .unavailable [.u8 e.target])
    else match s.lookup .shuntIn h e.target with
      | none => (s.postPhase h (.refused .unavailable), .refused .unavailable)
      | some route =>
        match s.requestRoute [.shuntIn] (e.routeRequest h route) with
        | (s, .refused why object) => ((s.postPhase h asked).postPhase h (.refused why), .refused why object)
        | (s, .accepted slot) =>
          ((s.onShunt h (fun x => { x with inRoute := some route, standing := .table })).postPhase h asked, .accepted [.u8 slot])
        | (s, .stored pos) =>
          ((s.onShunt h (fun x => { x with inRoute := some route, standing := .stored })).postPhase h asked, .stored [.u8 pos])

/-- The fleet and entry that a shunt event names. -/
def shuntPurpose : Purpose → Option (Nat × Nat)
  | .shuntEntry h f => some (h, f)
  | _ => none

/-- R142: the tram has passed the source mouth: its record moves to the target as RESERVED, with stabled-at absent (log entry
50, DESIGN CHOICE). Where it was called since the hand-over of a restart, the moved record counts no more as such a call, so the
restart (R148) removes it (log entry 58, DESIGN CHOICE). Cause MOVED is log entry 70 (DESIGN CHOICE). -/
def State.moveRecord (h : Nat) (e : ShuntEntry) (s : State) : State :=
  match s.findTram e.fleet with
  | some (n, _, i, x) =>
    if n = e.source ∧ x.state = .leaving then
      let s := s.removeRecord e.source e.fleet (i + 1) .moved
      let pos := ((Tbl.find e.target s.stab.sidings).map (fun r => r.stack.length)).getD 0 + 1
      let s := s.pushRecord e.target
        { x with state := .reserved, entered := false, stabledAt := none, purpose := some (.shuntEntry h), sinceRestart := false }
      let s := (s.postStack e.target e.fleet pos (some .reserved) .moved).clearIncoming e.target .moved
      s.report .moved none
    else s
  | none => s

/-- R142: an event of the out route of a shunt in OUT_WAIT, with the place of its record. At FIRST-ENTERED STACK_CHANGE is posted before
SHUNT_PHASE (log entry 64, DESIGN CHOICE), whose cause is none; the causes are log entry 70 (DESIGN CHOICE). -/
def State.takeOutWait (h : Nat) (e : ShuntEntry) (i : Nat) (ev : Progress) (s : State) : State :=
  match ev with
  | .firstEntered =>
    let s := (s.onRecord e.source e.fleet (fun x => { x with state := .leaving })).onShunt h
      (fun x => { x with phase := .outMoving })
    ((s.postStack e.source e.fleet (i + 1) (some .leaving) .leaving).postPhase h .none).report .leaving none
  | .failed _ | .expired | .cancelled =>
    let s := (s.onRecord e.source e.fleet StackRec.settle).postStack e.source e.fleet (i + 1) (some .stabled) .uncalled
    ((s.clearIncoming e.target .uncalled).endShunt h e (.event ev)).report .uncalled none
  | _ => s

/-- R145: FORCE-RELEASED of the out route; its report, the order of its notices and claims, and the event as the cause of ENDED are log
entries 63, 64 and 70 (DESIGN CHOICE). -/
def State.abandonShunt (h : Nat) (e : ShuntEntry) (s : State) : State :=
  let s := match s.findTram e.fleet with
    | some (n, _, i, _) => s.removeRecord n e.fleet (i + 1) .removed
    | none => s
  let s := ((s.setDoubt e.source .forceReleased).clearIncoming e.target .removed).endShunt h e (.event .forceReleased)
  (s.report .removed none).raise (.departureAbandoned e.fleet)

/-- R142: an event of the out route of a shunt in OUT_MOVING; at COMPLETE the report of the move goes before the claims of the in
route's request (log entry 64, DESIGN CHOICE), and SHUNT_PHASE of IN_WAIT has cause none (log entry 70, DESIGN CHOICE). -/
def State.takeOutMoving (h : Nat) (e : ShuntEntry) (ev : Progress) (s : State) : State :=
  match ev with
  | .elementReleased k => if k = 1 then s.moveRecord h e else s
  | .complete =>
    let s := (s.moveRecord h e).onShunt h (fun x => { x with phase := .inWait })
    ((s.postPhase h .none).requestIn h .requested).1
  | .forceReleased => s.abandonShunt h e
  | _ => s

/-- SHUNT_OUT_EVENT (R142, R145). -/
def execShuntOutEvent (ev : RouteEvent) (s : State) : Result :=
  let s := s.take (.shuntOutEvent ev)
  match shuntPurpose ev.purpose with
  | none => done s
  | some (h, f) =>
    match Tbl.find h s.stab.shunts with
    | none => done s
    | some e =>
      if e.fleet ≠ f ∨ e.outRoute ≠ ev.route then done s
      else match e.phase with
        | .outWait =>
          match s.findTram f with
          | some (_, _, i, _) => done (s.takeOutWait h e i ev.event)
          | none => done s
        | .outMoving => done (s.takeOutMoving h e ev.event)
        | _ => done s

/-- R144: an event of the in route of a shunt, with the place of its record on the target; FORCE-RELEASED as in `State.takeArrival`
(log entries 63 and 64, DESIGN CHOICE). The event is the cause of ENDED at COMPLETE and FORCE-RELEASED too, and none that of IN_MOVING
(log entry 70, DESIGN CHOICE). -/
def State.takeIn (h : Nat) (e : ShuntEntry) (i : Nat) (ev : Progress) (s : State) : State :=
  match ev with
  | .proceed => s.onShunt h (fun x => { x with standing := .table })
  | .firstEntered =>
    let s := s.onRecord e.target e.fleet (fun x => { x with entered := true })
    (s.onShunt h (fun x => { x with phase := .inMoving })).postPhase h .none
  | .complete =>
    let s := (s.onRecord e.target e.fleet (StackRec.stable s.minute)).postStabled e.fleet e.target (i + 1)
    (s.endShunt h e (.event ev)).report .stabled none
  | .failed _ | .expired => (s.requestIn h (.requestedAgain ev)).1
  | .cancelled => (s.onShunt h (fun x => { x with inRoute := none, standing := .none })).postPhase h .inCancelled
  | .forceReleased =>
    let s := (s.removeRecord e.target e.fleet (i + 1) .removed).setDoubt e.target .forceReleased
    (s.endShunt h e (.event ev)).report .removed none
  | _ => s

/-- SHUNT_IN_EVENT (R144): events of any other route than the in route are ignored. -/
def execShuntInEvent (ev : RouteEvent) (s : State) : Result :=
  let s := s.take (.shuntInEvent ev)
  match shuntPurpose ev.purpose with
  | none => done s
  | some (h, f) =>
    match Tbl.find h s.stab.shunts, s.findTram f with
    | some e, some (_, _, i, _) => if e.fleet = f ∧ e.inRoute = some ev.route then done (s.takeIn h e i ev.event) else done s
    | _, _ => done s

/-- R140: the target rows, for a tram of this length and needs; `own` is the fleet whose own RESERVED record on the target
counts neither as the outermost one nor in the free length, but does count among the 12 records (R146). -/
def State.targetRefusal (s : State) (n length : Nat) (mandatory : Needs) (own : Option Nat) : Option Ans :=
  match Tbl.find n s.stab.sidings with
  | none => some (.refused .badArgument)
  | some r =>
    let others := { r with stack := r.stack.filter (fun x => own ≠ some x.fleet) }
    if r.census = .doubt then some (.refused .doubt)
    else if r.blocked || r.incoming.isSome then some (.refused .unavailable [.u8 n])
    else if others.outermost.any (fun x => x.state ≠ .stabled) then some (.refused .inUse [.u8 n])
    else if Config.stackSize ≤ r.stack.length ∨ s.freeLength others < length + s.param.spacing then some (.refused .full)
    else if !covers r.abilities mandatory then some (.refused .noPlace [.u8 PlaceReason.needs.code])
    else none

/-- R140: whether a head shunt has both routes of a shunt. -/
def State.hasShuntRoutes (s : State) (source target h : Nat) : Bool :=
  (s.lookup .shuntOut source h).isSome && (s.lookup .shuntIn h target).isSome

/-- R141, R146: the ORDER_INVERSION notice of a tram put in front of one due out before it. -/
def State.noteInversion (f n : Nat) (before : Option StackRec) (s : State) : State :=
  match before with
  | some o => if dueLe (s.dueOf f) (s.dueOf o.fleet) then s else s.postInversion f n o.fleet
  | none => s

/-- R141: a SHUNT that passes R140: entry, incoming field, call claim, request of the out route; undone where that is refused.
The incoming field's notice has the cause CALLED (log entry 52). The shunt's own notices and the stacking report follow those of the
request (log entry 64, DESIGN CHOICE), and SHUNT_PHASE has cause none (log entry 70, DESIGN CHOICE). -/
def State.startShunt (h f source i target outRoute : Nat) (owner : Owner) (s : State) : State × Ans :=
  let e : ShuntEntry := ⟨f, source, target, owner, .outWait, outRoute, none, .none⟩
  let s' := s.onStab (fun b => { b with shunts := Tbl.put h e b.shunts })
  let s' := (s'.onSiding target (fun r => { r with incoming := some h })).markCalled source f (.shuntEntry h) s.stab.handed
  match s'.requestRoute [.shuntOut] (e.routeRequest h outRoute) with
  | (s'', .refused why object) => (s''.onStab (fun _ => s.stab), .refused why object)
  | (s'', got) =>
    let s'' := (s''.postStack source f (i + 1) (some .called) .called).postSiding target .called
    let s'' := (s''.postPhase h .none).noteInversion f target ((Tbl.find target s.stab.sidings).bind SidingRec.outermost)
    (s''.report .called none, { got.ans with results := got.ans.results ++ [.u8 h] })

/-- R140: SHUNT. An undefined target (R18, R126) is refused BAD_ARGUMENT before every row of R140 (log entry 57, DESIGN
CHOICE). -/
def takeShunt (p : Port) (f target : Nat) (s : State) : State × Ans :=
  if (Tbl.find target s.stab.sidings).isNone || !(1 ≤ f && f ≤ 4095) then (s, .refused .badArgument)
  else match s.callCheck f, s.findTram f with
    | .error a, _ => (s, a)
    | .ok _, none => (s, .refused .unknownTram)
    | .ok (source, i), some (_, _, _, x) =>
      if target = source then (s, .refused .badArgument)
      else match s.targetRefusal target x.length x.mandatory none with
        | some a => (s, a)
        | none =>
          match [1, 2].filter (s.hasShuntRoutes source target) with
          | [] => (s, .refused .unavailable)
          | h1 :: hs =>
            match (h1 :: hs).find? (fun h => (Tbl.find h s.stab.shunts).isNone) with
            | none => (s, .refused .full)
            | some h => s.startShunt h f source i target ((s.lookup .shuntOut source h).getD 0) (portOwner p)

/-- R146: SHUNT_CANCEL. -/
def takeShuntCancel (p : Port) (h : Nat) (s : State) : State × Ans :=
  match Tbl.find h s.stab.shunts with
  | none => (s, .refused .wrongState)
  | some e =>
    if p = .planner ∧ e.owner = .desk then (s, .refused .notPermitted)
    else if e.phase ≠ .outWait then (s, .refused .wrongState [.u8 e.phase.code])
    else s.cancelShuntRoute e.outRoute

/-- "DONE with the route setter's answer" (R146): its status, its reason or 0, its results. -/
def Ans.carrying (a : Ans) : Ans :=
  .done ([.u8 a.status.code, .u8 ((a.reason.map Reason.code).getD 0)] ++ a.results)

/-- R146: the record moves to a new target and the in route is requested anew. ORDER_INVERSION and the report of the move go before
what the request posts and sends (log entry 64, DESIGN CHOICE); cause MOVED is log entry 70 (DESIGN CHOICE). -/
def State.moveTarget (h target : Nat) (e : ShuntEntry) (s : State) : State × Ans :=
  match s.findTram e.fleet with
  | none => (s, .refused .wrongState)
  | some (n, _, i, x) =>
    let before := Tbl.find target s.stab.sidings
    let pos := (before.map (fun r => r.stack.length)).getD 0 + 1
    let s := ((s.removeRecord n e.fleet (i + 1) .moved).pushRecord target x).postStack target e.fleet pos (some .reserved) .moved
    let s := s.onShunt h (fun y => { y with target := target, inRoute := none, standing := .none })
    let s := (s.noteInversion e.fleet target (before.bind SidingRec.outermost)).report .moved none
    let out := s.requestIn h .requested
    (out.1, out.2.carrying)

/-- R146: SHUNT_RETARGET. An entry that does not exist refuses it WRONG_STATE with no phase (log entry 55, DESIGN CHOICE). An
undefined target (R18, R126) is refused BAD_ARGUMENT before the entry, its phase and its in standing are looked at (log entry 57,
DESIGN CHOICE). -/
def takeRetarget (h target : Nat) (s : State) : State × Ans :=
  if (Tbl.find target s.stab.sidings).isNone then (s, .refused .badArgument)
  else match Tbl.find h s.stab.shunts with
  | none => (s, .refused .wrongState)
  | some e =>
    if e.phase ≠ .inWait then (s, .refused .wrongState [.u8 e.phase.code])
    else if e.standing = .table then (s, .refused .inUse)
    else if target = e.source then (s, .refused .badArgument)
    else match s.findTram e.fleet with
    | none => (s, .refused .wrongState)
    | some (_, _, _, x) =>
      match s.targetRefusal target x.length x.mandatory (some e.fleet) with
      | some a => (s, a)
      | none =>
        if (s.lookup .shuntIn h target).isNone then (s, .refused .unavailable)
        else if target = e.target then
          if e.standing = .stored then (s, .done)
          else
            let out := s.requestIn h .requested
            (out.1, out.2.carrying)
        else match e.standing, e.inRoute with
          | .stored, some route =>
            match s.cancelShuntRoute route with
            | (s, ⟨.done, _, _⟩) => s.moveTarget h target e
            | (s, ⟨.refused, why, results⟩) => (s, ⟨.refused, why, results⟩)
            | (s, _) => (s, .refused .inUse)
          | _, _ => s.moveTarget h target e

/-- SHUNT (R140, R141). -/
def execShunt (r : Req) (f target : Nat) (s : State) : Result :=
  takeRequest (.shunt r f target) .shunt r s (takeShunt r.port f target)

/-- SHUNT_CANCEL (R146). -/
def execShuntCancel (r : Req) (h : Nat) (s : State) : Result :=
  takeRequest (.shuntCancel r h) .shuntCancel r s (takeShuntCancel r.port h)

/-- SHUNT_RETARGET (R146). -/
def execShuntRetarget (r : Req) (h target : Nat) (s : State) : Result :=
  takeRequest (.shuntRetarget r h target) .shuntRetarget r s (takeRetarget h target)

/-! ## Restart (R148) -/

/-- R148: one record after a restart; none where it is removed. A record reserved or called since the restart was handed is
kept as it stands. -/
def StackRec.restart (x : StackRec) : Option StackRec :=
  if x.sinceRestart then some { x with sinceRestart := false }
  else match x.state with
    | .reserved => none
    | .stabled => some x
    | _ => some x.settle

/-- R148: whether a record sends its siding to DOUBT. -/
def StackRec.doubtful (x : StackRec) : Bool := !x.sinceRestart && (x.state = .reserved || x.state = .leaving)

/-- Whether a stack purpose is SHUNT_ENTRY. -/
def StackPurpose.isShunt : StackPurpose → Bool | .shuntEntry _ => true | _ => false

/-- R148: whether a removed record raises STRANDED. -/
def StackRec.strands (x : StackRec) : Bool :=
  !x.sinceRestart && x.state = .reserved && (x.entered || x.purpose.any StackPurpose.isShunt)

/-- R148: a siding after a restart. -/
def SidingRec.restart (r : SidingRec) : SidingRec :=
  { r with
    stack := r.stack.filterMap StackRec.restart
    census := if r.stack.any StackRec.doubtful then .doubt else r.census
    incoming := none }

/-- R148: the STACK_CHANGE notice of one record at a restart, where its state changes or it is removed. -/
def State.noteRecord (n : Nat) (s : State) (p : StackRec × Nat) : State :=
  match p.1.restart with
  | none => s.postStack n p.1.fleet (p.2 + 1) none .restart
  | some y => if y.state = p.1.state then s else s.postStack n p.1.fleet (p.2 + 1) (some y.state) .restart

/-- R148: the notices and alarm of one siding at a restart: its records from the buffer stop, then the siding, then the alarm (log
entry 65, DESIGN CHOICE). -/
def State.noteSiding (s : State) (p : Nat × SidingRec) : State :=
  let s := p.2.stack.zipIdx.foldl (State.noteRecord p.1) s
  let s := if p.2.restart.census = p.2.census ∧ p.2.incoming.isNone then s else s.postSiding p.1 .restart
  if p.2.stack.any StackRec.strands then s.raise (.stranded p.1) else s

/-- STABLING_RESTART (R148, R190): the sidings by rising number (log entry 65, DESIGN CHOICE). The shunt table is emptied with no
SHUNT_PHASE notice of phase ENDED, which R148 does not name (log entry 67, DESIGN CHOICE). -/
def execStablingRestart (s : State) : Result :=
  let s := s.take .stablingRestart
  let before := s.stab.sidings
  let s := s.onStab (fun b => { sidings := b.sidings.map (fun p => (p.1, p.2.restart)), shunts := [], handed := false })
  let s := before.foldl State.noteSiding s
  done ((s.report .restart none).send (.restartTakenReport .stabling))

end Sys2Proof.Machine
end

