-- ==== Sys2Proof/Machine/Roster.lean ====
section
/-! DEFINITION. The roster block (08): clock, roster, departures, the minute event, restart. -/

namespace Sys2Proof.Machine

/-! ## Notices (R164) -/

/-- The causes of a ROSTER_CHANGE notice. -/
inductive RosterCause where | added | removed | departed | abandoned | restart
  deriving DecidableEq, Repr

/-- R181's codes of the causes. -/
def RosterCause.code : RosterCause → Nat | .added => 1 | .removed => 2 | .departed => 3 | .abandoned => 4 | .restart => 5

/-- ROSTER_CHANGE of an entry, with the state and fleet of the record given (at which moment: log entry 72, DESIGN CHOICE). -/
def State.postRoster (d : Duty) (cause : RosterCause) (s : State) : State :=
  s.post .roster 2 [.u16 d.duty, .u16 d.due, .u8 d.gate, f16 d.fleet, d.stateField, .u8 cause.code]

/-! ## The clock (R150) -/

/-- CLOCK_SET's taking (R150). -/
def takeClockSet (minute : Nat) (s : State) : State × Ans :=
  if Config.lastMinute < minute then (s, .refused .badArgument)
  else
    let old := s.roster.clock
    let s := s.onRoster (fun r => { r with clock := some minute, minuteTimer := some Config.minuteMs })
    (s.post .roster 1 [f16 old, .u16 minute], .done)

/-- CLOCK_SET (R150). -/
def execClockSet (r : Req) (minute : Nat) (s : State) : Result :=
  takeRequest (.clockSet r minute) .clockSet r s (takeClockSet minute)

/-! ## Roster entries (R151, R152) -/

/-- The entry of a duty. -/
def State.duty (s : State) (n : Nat) : Option Duty := s.roster.duties.find? (fun d => d.duty = n)

/-- Change the entry of a duty. -/
def State.onDuty (n : Nat) (f : Duty → Duty) (s : State) : State :=
  s.onRoster (fun r => { r with duties := r.duties.map (fun d => if d.duty = n then f d else d) })

/-- The entry of a duty leaves the roster. -/
def State.dropDuty (n : Nat) (s : State) : State :=
  s.onRoster (fun r => { r with duties := r.duties.filter (fun d => d.duty ≠ n) })

/-- R151: before in the roster's order, by due and then by duty. -/
def Duty.before (a b : Duty) : Bool := a.due < b.due || (a.due = b.due && a.duty < b.duty)

/-- R151: an entry joins at its place in order. -/
def insertDuty (d : Duty) : List Duty → List Duty
  | [] => [d]
  | x :: l => if d.before x then d :: x :: l else x :: insertDuty d l

/-- R151: the duty that holds a duty number or a fleet already, the first in roster order where two do (log entry 53, DESIGN
CHOICE). -/
def State.holds (s : State) (duty : Nat) (fleet : Option Nat) : Option Nat :=
  (s.roster.duties.find? (fun d => d.duty = duty || (fleet.isSome && d.fleet = fleet))).map Duty.duty

/-- R151: a new entry. -/
def Duty.new (duty due gate : Nat) (fleet minLength : Option Nat) : Duty where
  duty := duty
  due := due
  gate := gate
  fleet := fleet
  minLength := minLength
  bound := false
  dueNotified := false
  lateNotified := false
  lastRefusal := none
  departure := none

/-- R151: ROSTER_ADD. -/
def takeRosterAdd (duty due gate : Nat) (fleet minLength : Option Nat) (s : State) : State × Ans :=
  if !(within duty 999 && decide (due ≤ Config.lastMinute) && (Tbl.find gate s.gates).isSome && fieldIn fleet 1 4095 &&
      fieldIn minLength 10 80) then (s, .refused .badArgument)
  else if Config.rosterSize ≤ s.roster.duties.length then (s, .refused .full)
  else match s.holds duty fleet with
    | some n => (s, .refused .duplicate [.u16 n])
    | none =>
      let d := Duty.new duty due gate fleet minLength
      ((s.onRoster (fun r => { r with duties := insertDuty d r.duties })).postRoster d .added, .done)

/-- R152: ROSTER_REMOVE. -/
def takeRosterRemove (duty : Nat) (s : State) : State × Ans :=
  match s.duty duty with
  | none => (s, .refused .badArgument)
  | some d => if d.isCalled then (s, .refused .wrongState) else ((s.dropDuty duty).postRoster d .removed, .done)

/-- R152: ROSTER_CLEAR; its notices are posted in roster order (log entry 65, DESIGN CHOICE). -/
def takeRosterClear (s : State) : State × Ans :=
  let gone := s.roster.duties.filter (fun d => !d.isCalled)
  let s := s.onRoster (fun r => { r with duties := r.duties.filter Duty.isCalled })
  (gone.foldl (fun s d => s.postRoster d .removed) s, .done [.u8 gone.length])

/-- The auto-call flag of a gate. -/
def Roster.auto (r : Roster) (g : Nat) : Bool := if g = 1 then r.auto1 else r.auto2

/-- The auto-call flag of a gate takes a value. -/
def Roster.setAuto (g : Nat) (v : Bool) (r : Roster) : Roster := if g = 1 then { r with auto1 := v } else { r with auto2 := v }

/-- R152: ROSTER_AUTO. -/
def takeRosterAuto (gate setting : Nat) (s : State) : State × Ans :=
  match Tbl.find gate s.gates, settingOfCode? setting with
  | some _, some v =>
    if s.roster.auto gate = v then (s, .done)
    else ((s.onRoster (Roster.setAuto gate v)).post .roster 3 [.u8 gate, .u8 setting], .done)
  | _, _ => (s, .refused .badArgument)

/-- ROSTER_ADD (R151). -/
def execRosterAdd (r : Req) (duty due gate : Nat) (fleet minLength : Option Nat) (s : State) : Result :=
  takeRequest (.rosterAdd r duty due gate fleet minLength) .rosterAdd r s (takeRosterAdd duty due gate fleet minLength)

/-- ROSTER_REMOVE (R152). -/
def execRosterRemove (r : Req) (duty : Nat) (s : State) : Result :=
  takeRequest (.rosterRemove r duty) .rosterRemove r s (takeRosterRemove duty)

/-- ROSTER_CLEAR (R152). -/
def execRosterClear (r : Req) (s : State) : Result := takeRequest (.rosterClear r) .rosterClear r s takeRosterClear

/-- ROSTER_AUTO (R152). -/
def execRosterAuto (r : Req) (gate setting : Nat) (s : State) : Result :=
  takeRequest (.rosterAuto r gate setting) .rosterAuto r s (takeRosterAuto gate setting)

/-! ## Departures (R153–R156) -/

/-- The line-hold flag of a gate (R163). -/
def State.lineHeld (s : State) (g : Nat) : Bool := (Tbl.find g s.gates).any Gate.lineHold

/-- A departure asked for: its duty, if it has one, its gate, its owner, and the minimum length of an open duty. -/
structure DepartAsk where
  duty : Option Nat
  gate : Nat
  owner : Owner
  deriving DecidableEq, Repr

/-- R153: the purpose of the stack record called. -/
def DepartAsk.stackPurpose (q : DepartAsk) : StackPurpose :=
  match q.duty with | some d => .dutyDeparture d | none => .fleetDeparture q.gate

/-- R156: the purpose link of the route. -/
def DepartAsk.purpose (q : DepartAsk) (fleet : Nat) : Purpose :=
  match q.duty with | some d => .dutyDeparture d fleet | none => .fleetDeparture fleet q.gate

/-- R156, R157: the departure record is made, in the duty's entry or in the fleet departure list. The list is keyed by fleet: a
new record takes the place of one that the fleet still has there, at the end in the order of the calls (log entry 56). -/
def State.makeDeparture (q : DepartAsk) (d : Departure) (s : State) : State :=
  match q.duty with
  | some n => s.onDuty n (fun e => { e with departure := some d, lastRefusal := none })
  | none => s.onRoster (fun r => { r with fleetDepartures := r.fleetDepartures.filter (fun x => x.fleet ≠ d.fleet) ++ [d] })

/-- R155, R156, R158: a selection binding is undone. -/
def Duty.unbind (e : Duty) : Duty := if e.bound then { e with fleet := none, bound := false } else e

/-- R156: a call is undone: uncall claim, and the selection binding where the taking made one. -/
def State.undoCall (q : DepartAsk) (fleet : Nat) (s : State) : State :=
  let s := s.uncallClaim fleet q.stackPurpose
  match q.duty with
  | some n => s.onDuty n Duty.unbind
  | none => s

/-- R156: after a call answered DONE, the departure route is requested. -/
def State.requestDeparture (q : DepartAsk) (fleet siding : Nat) (s : State) : State × Ans :=
  match s.lookup .departure siding q.gate with
  | none => (s.undoCall q fleet, .refused .unavailable [.u8 siding])
  | some route =>
    let made (s : State) (slot : Option Nat) (place : Nat) : State :=
      (s.makeDeparture q ⟨fleet, siding, q.gate, route, q.owner, slot, .called⟩).post .roster 4
        [f16 q.duty, .u16 fleet, .u8 siding, .u8 q.gate, .u8 route, .u8 q.owner.code, .u8 place]
    let results (place : Nat) : List Field := [f16 q.duty, .u16 fleet, .u8 siding, .u8 route, .u8 place]
    match s.requestRoute [.departure] ⟨route, q.owner, q.purpose fleet, some fleet⟩ with
    | (s, .accepted slot) => (made s (some slot) slot, .accepted (results slot))
    | (s, .stored pos) => (made s none pos, .stored (results pos))
    | (s, .refused why object) => (s.undoCall q fleet, .refused why object)

/-- R154: a named tram is called. -/
def State.departNamed (q : DepartAsk) (fleet : Nat) (s : State) : State × Ans :=
  match s.callClaim fleet q.stackPurpose with
  | (s, .error a) => (s, a)
  | (s, .ok siding) => s.requestDeparture q fleet siding

/-- R155: a tram is selected for an open duty, and bound to it. -/
def State.departOpen (q : DepartAsk) (duty : Nat) (minLength : Option Nat) (s : State) : State × Ans :=
  match s.selectionClaim duty q.gate minLength (s.roster.duties.filterMap Duty.fleet) with
  | (s, none) => (s, .refused .noTram)
  | (s, some (fleet, siding)) =>
    (s.onDuty duty (fun e => { e with fleet := some fleet, bound := true })).requestDeparture q fleet siding

/-- R153: a DEPART by duty. -/
def State.departDuty (duty : Nat) (owner : Owner) (s : State) : State × Ans :=
  match s.duty duty with
  | none => (s, .refused .badArgument)
  | some d =>
    if d.isCalled then (s, .refused .inUse [f16 d.fleet])
    else if s.lineHeld d.gate then (s, .refused .lineHeld)
    else match d.fleet with
      | some fleet => s.departNamed ⟨some duty, d.gate, owner⟩ fleet
      | none => s.departOpen ⟨some duty, d.gate, owner⟩ duty d.minLength

/-- R153: a DEPART by fleet and gate. -/
def State.departFleet (fleet gate : Nat) (owner : Owner) (s : State) : State × Ans :=
  if !within fleet 4095 || (Tbl.find gate s.gates).isNone then (s, .refused .badArgument)
  else if s.lineHeld gate then (s, .refused .lineHeld)
  else match s.roster.duties.find? (fun d => d.fleet = some fleet) with
    | some d => (s, .refused .conflict [.u16 d.duty])
    | none => s.departNamed ⟨none, gate, owner⟩ fleet

/-- R153: DEPART carries a duty, or a fleet and a gate (log entry 10). -/
def takeDepart (p : Port) (duty fleet gate : Option Nat) (s : State) : State × Ans :=
  match duty, fleet, gate with
  | some n, none, none => s.departDuty n (portOwner p)
  | none, some f, some g => s.departFleet f g (portOwner p)
  | _, _, _ => (s, .refused .badArgument)

/-- DEPART (R153–R156). -/
def execDepart (r : Req) (duty fleet gate : Option Nat) (s : State) : Result :=
  takeRequest (.depart r duty fleet gate) .depart r s (takeDepart r.port duty fleet gate)

/-! ## Following a departure (R158, R159) -/

/-- R158: DEPART_EXPIRED. -/
def State.postExpired (duty : Option Nat) (fleet : Nat) (ev : Progress) (s : State) : State :=
  s.post .roster 5 [f16 duty, .u16 fleet, .u8 ev.code]

/-- What an event does to a departure record: it stays, changed; it ends before entry; it ends after entry. -/
inductive Followed where
  | goesOn (d : Departure)
  | expired
  | ended (cause : RosterCause)
  deriving DecidableEq, Repr

/-- R158, R159: a departure record under an event. -/
def Departure.follow (d : Departure) (ev : RouteEvent) : Followed :=
  match d.progress, ev.event with
  | .called, .proceed => .goesOn { d with slot := ev.slot }
  | .called, .failed _ | .called, .expired | .called, .cancelled => .expired
  | .called, .firstEntered => .goesOn { d with progress := .entered, slot := ev.slot }
  | .entered, .elementReleased k => .goesOn (if k = 1 then { d with progress := .pastMouth } else d)
  | .entered, .complete | .pastMouth, .complete => .ended .departed
  | .entered, .forceReleased | .pastMouth, .forceReleased => .ended .abandoned
  | _, _ => .goesOn d

/-- R158, R159: an event on the departure of a duty. ROSTER_CHANGE of an entry that its departure ends shows it as it last stood,
CALLED with its fleet (log entry 72, DESIGN CHOICE). -/
def State.followDuty (e : Duty) (d : Departure) (ev : RouteEvent) (s : State) : State :=
  match d.follow ev with
  | .goesOn d' => s.onDuty e.duty (fun x => { x with departure := some d' })
  | .expired => (s.onDuty e.duty (fun x => { x.unbind with departure := none })).postExpired (some e.duty) d.fleet ev.event
  | .ended cause => (s.dropDuty e.duty).postRoster e cause

/-- R158, R159: an event on a departure by fleet. -/
def State.followFleet (d : Departure) (ev : RouteEvent) (s : State) : State :=
  let drop (s : State) : State :=
    s.onRoster (fun r => { r with fleetDepartures := r.fleetDepartures.filter (fun x => x.fleet ≠ d.fleet) })
  match d.follow ev with
  | .goesOn d' =>
    s.onRoster (fun r => { r with fleetDepartures := r.fleetDepartures.map (fun x => if x.fleet = d.fleet then d' else x) })
  | .expired => (drop s).postExpired none d.fleet ev.event
  | .ended _ => drop s

/-- ROSTER_DEPARTURE_EVENT (R158, R159): on the departure record that the purpose link names (log entry 36). -/
def execRosterDepartureEvent (ev : RouteEvent) (s : State) : Result :=
  let s := s.take (.rosterDepartureEvent ev)
  match ev.purpose with
  | .dutyDeparture n f =>
    match s.duty n with
    | some e =>
      match e.departure with
      | some d => if d.fleet = f then done (s.followDuty e d ev) else done s
      | none => done s
    | none => done s
  | .fleetDeparture f _ =>
    match s.roster.fleetDepartures.find? (fun d => d.fleet = f) with
    | some d => done (s.followFleet d ev)
    | none => done s
  | _ => done s

/-! ## The minute event (R150, R160–R162) -/

/-- R160, R161: DUE_BLOCKED is posted and due-notified set; BLOCKED has its code of R173, NOT_READY its place among R161's
answers (R181, log entry 8). -/
def State.postDueBlocked (e : Duty) (fleet : Option Nat) (blocked : Bool) (outside : List Field) (s : State) : State :=
  (s.onDuty e.duty (fun x => { x with dueNotified := true })).post .roster 6
    ([.u16 e.duty, f16 fleet, .u8 (if blocked then Reason.blocked.code else 3)] ++ outside)

/-- R160: whether the auto-call conditions hold: call lead, auto-call flag, line-hold flag, halt flag. -/
def State.autoDue (s : State) (now : Nat) (e : Duty) : Bool :=
  decide (e.due ≤ now + s.param.callLead) && s.roster.auto e.gate && !s.lineHeld e.gate && !s.roster.halt

/-- R160: the auto-call test of an entry. -/
def State.autoCall (now : Nat) (e : Duty) (s : State) : State :=
  if s.autoDue now e then
    match s.departDuty e.duty .auto with
    | (s, ⟨.refused, some why, results⟩) =>
      let s := s.onDuty e.duty (fun x => { x with lastRefusal := some why })
      if why = .blocked ∧ e.dueNotified = false then s.postDueBlocked e e.fleet true results else s
    | (s, _) => s
  else s

/-- R161: the due test of an entry. -/
def State.dueTest (now : Nat) (e : Duty) (s : State) : State :=
  match e.fleet with
  | none => s
  | some f =>
    if e.dueNotified = false ∧ e.due ≤ now + s.param.dueNoticeLead then
      match s.standing f with
      | .outermost => s
      | .blocked l => s.postDueBlocked e (some f) true (fList16 l)
      | .notReady => s.postDueBlocked e (some f) false (fList16 [])
    else s

/-- R162: the late test of an entry. -/
def State.lateTest (now : Nat) (e : Duty) (s : State) : State :=
  if e.lateNotified = false ∧ e.due < now then
    (s.onDuty e.duty (fun x => { x with lateNotified := true })).post .roster 7
      [.u16 e.duty, .u16 e.due, f16 e.fleet, .u8 ((e.lastRefusal.map Reason.code).getD 0)]
  else s

/-- A test on the entry of a duty as it now stands, where it is PLANNED (R160). -/
def State.ifPlanned (duty : Nat) (f : Duty → State → State) (s : State) : State :=
  match s.duty duty with
  | some e => if e.isCalled then s else f e s
  | none => s

/-- R160: the three tests of one entry, each on the entry as the earlier ones left it. -/
def State.minuteTests (now : Nat) (s : State) (duty : Nat) : State :=
  ((s.ifPlanned duty (State.autoCall now)).ifPlanned duty (State.dueTest now)).ifPlanned duty (State.lateTest now)

/-- R160: the minute event, over the PLANNED entries in roster order. -/
def State.minuteEvent (now : Nat) (s : State) : State :=
  ((s.roster.duties.filter (fun d => !d.isCalled)).map Duty.duty).foldl (State.minuteTests now) s

/-- MINUTE_TIMER_EXPIRY (R150). -/
def execMinuteTimerExpiry (s : State) : Result :=
  match s.roster.clock with
  | none => done s
  | some m =>
    let s := s.onRoster (fun r => { r with minuteTimer := some Config.minuteMs })
    if Config.lastMinute ≤ m then done s
    else done ((s.onRoster (fun r => { r with clock := some (m + 1) })).minuteEvent (m + 1))

/-! ## Halt and restart -/

/-- ROSTER_HALT_REPORT (R149). -/
def execRosterHaltReport (isSet : Bool) (s : State) : Result :=
  done ((s.take (.rosterHaltReport isSet)).onRoster (fun r => { r with halt := isSet }))

/-- R165: the claims and alarm of a departure record at a restart. -/
def State.dropDeparture (p : StackPurpose) (d : Departure) (s : State) : State :=
  match d.progress with
  | .called => s.uncallClaim d.fleet p
  | .entered => (s.uncallClaim d.fleet p).doubtClaim d.siding .doubtClaim
  | .pastMouth => s.raise (.departureAbandoned d.fleet)

/-- R165: one entry of the roster at a restart. ROSTER_CHANGE shows an entry that the restart removes as it last stood, CALLED, and
one that it returns as it stands after, PLANNED and with no fleet where a selection had bound it (log entry 72, DESIGN CHOICE). -/
def State.restartDuty (s : State) (e : Duty) : State :=
  match e.departure with
  | none => s
  | some d =>
    let s := s.dropDeparture (.dutyDeparture e.duty) d
    if d.progress = .pastMouth then (s.dropDuty e.duty).postRoster e .restart
    else
      let back : Duty := { e.unbind with departure := none }
      (s.onDuty e.duty (fun _ => back)).postRoster back .restart

/-- R165: one record of the fleet departure list at a restart. -/
def State.restartFleet (s : State) (d : Departure) : State := s.dropDeparture (.fleetDeparture d.gate) d

/-- ROSTER_RESTART (R165, R190): the entries in roster order, then the fleet departure list from its oldest record (log entry 65, DESIGN
CHOICE). -/
def execRosterRestart (s : State) : Result :=
  let s := s.take .rosterRestart
  let s := s.roster.duties.foldl State.restartDuty s
  let s := s.roster.fleetDepartures.foldl State.restartFleet s
  done ((s.onRoster (fun r => { r with fleetDepartures := [] })).send (.restartTakenReport .roster))

end Sys2Proof.Machine
end

