-- ==== Sys2Proof/Machine/Supervision.lean ====
section
/-! DEFINITION. Supervision (10): halt, the alarm list, restart. -/

namespace Sys2Proof.Machine

/-! ## Halt (R183, R184) -/

/-- The numbers of the defined gates. -/
def State.gateNumbers (s : State) : List Nat := Tbl.keys s.gates

/-- R183, R184: the halt flag takes a value and is reported to the route setter, each defined gate, gate 1 first (log entry 65, DESIGN
CHOICE), and the roster block. -/
def takeHalt (value : Bool) (s : State) : State × Ans :=
  if s.sup.halt = value then (s, .done)
  else
    let s := (s.onSup (fun v => { v with halt := value })).send (.routeHaltReport value)
    let s := s.gateNumbers.foldl (fun s g => s.send (.gateHaltReport g value)) s
    ((s.send (.rosterHaltReport value)).post .alarm 4 [fFlag value], .done)

/-- HALT (R183). -/
def execHalt (r : Req) (s : State) : Result := takeRequest (.halt r) .halt r s (takeHalt true)

/-- HALT_RELEASE (R184). -/
def execHaltRelease (r : Req) (s : State) : Result := takeRequest (.haltRelease r) .haltRelease r s (takeHalt false)

/-! ## Alarms (R185–R189) -/

/-- R185: the alarms of class Event, taken as cleared at their raise. -/
def isEventAlarm : Alarm → Bool
  | .passedAtStop _ | .irregularClearance _ _ | .wrongTramOut _ | .bodyMismatch _ | .stranded _ | .departureAbandoned _ => true
  | _ => false

/-- R186: the state of a new entry. -/
def raisedState (a : Alarm) : AlarmState := if isEventAlarm a then .cleared else .raised

/-- R186: an entry at a further raise. -/
def AlarmEntry.again (e : AlarmEntry) : AlarmEntry :=
  { e with count := min 255 (e.count + 1), state := if isEventAlarm e.alarm then e.state else .raised }

/-- The place, from 0, of an alarm in the list. -/
def Supervision.place (v : Supervision) (a : Alarm) : Option Nat := v.alarms.findIdx? (fun e => e.alarm = a)

/-- R186: the ALARM_RAISED notice. -/
def State.postRaised (a : Alarm) (count : Nat) (state : AlarmState) (pos : Nat) (s : State) : State :=
  s.post .alarm 1 (a.fields ++ [.u8 count, .u8 state.code, .u8 pos])

/-- R186: a raise: a repeat, a new entry, or overflow. -/
def State.takeRaise (a : Alarm) (s : State) : State :=
  match s.sup.place a with
  | some i =>
    let s := s.onSup (fun v => { v with alarms := v.alarms.modify i AlarmEntry.again })
    match s.sup.alarms[i]? with
    | some e => s.postRaised a e.count e.state (i + 1)
    | none => s
  | none =>
    if s.sup.alarms.length < Config.alarmSize then
      let e : AlarmEntry := ⟨a, s.minute, 1, raisedState a⟩
      (s.onSup (fun v => { v with alarms := v.alarms ++ [e] })).postRaised a 1 e.state (s.sup.alarms.length + 1)
    else (s.onSup (fun v => { v with overflow := true })).postRaised a 1 (raisedState a) 0

/-- R187: a condition-end report; the code of REMOVED in its notice is log entry 59 (DESIGN CHOICE). -/
def State.takeConditionEnd (a : Alarm) (s : State) : State :=
  match s.sup.place a with
  | none => s
  | some i =>
    match s.sup.alarms[i]? with
    | none => s
    | some e =>
      match e.state with
      | .raised =>
        (s.onSup (fun v => { v with alarms := v.alarms.modify i (fun e => { e with state := .cleared }) })).post .alarm 2
          (a.fields ++ [.u8 AlarmState.cleared.code])
      | .acked => (s.onSup (fun v => { v with alarms := v.alarms.eraseIdx i })).post .alarm 2
          (a.fields ++ [.u8 alarmRemovedCode])
      | .cleared => s

/-- ALARM_RAISE (R186). -/
def execAlarmRaise (a : Alarm) (s : State) : Result := done ((s.take (.alarmRaise a)).takeRaise a)

/-- ALARM_CONDITION_END (R187). -/
def execAlarmConditionEnd (a : Alarm) (s : State) : Result := done ((s.take (.alarmConditionEnd a)).takeConditionEnd a)

/-- R188: ALARM_ACK of the entry at a position; the code of REMOVED in its notice is log entry 59 (DESIGN CHOICE). -/
def takeAlarmAck (position : Nat) (alarm : Option Alarm) (s : State) : State × Ans :=
  match (if position = 0 then none else s.sup.alarms[position - 1]?) with
  | none => (s, .refused .badArgument)
  | some e =>
    if alarm ≠ some e.alarm then (s, .refused .wrongState)
    else match e.state with
      | .raised =>
        ((s.onSup (fun v => { v with alarms := v.alarms.modify (position - 1) (fun e => { e with state := .acked }) })).post
          .alarm 3 (e.alarm.fields ++ [.u8 AlarmState.acked.code]), .done)
      | .cleared =>
        ((s.onSup (fun v => { v with alarms := v.alarms.eraseIdx (position - 1) })).post .alarm 3
          (e.alarm.fields ++ [.u8 alarmRemovedCode]), .done)
      | .acked => (s.post .alarm 3 (e.alarm.fields ++ [.u8 AlarmState.acked.code]), .done)

/-- R188: the list with every entry acknowledged. -/
def ackAll (l : List AlarmEntry) : List AlarmEntry :=
  (l.filter (fun e => e.state ≠ .cleared)).map (fun e => { e with state := .acked })

/-- R188: ALARM_ACK_ALL. The count acknowledged is that of the RAISED entries, which become ACKED, and the count removed that of the
CLEARED ones (log entry 74, DESIGN CHOICE). -/
def takeAckAll (s : State) : State × Ans :=
  let acked := (s.sup.alarms.filter (fun e => e.state = .raised)).length
  let removed := (s.sup.alarms.filter (fun e => e.state = .cleared)).length
  let left := ackAll s.sup.alarms
  let full := s.sup.overflow && decide (Config.alarmSize ≤ left.length)
  let fields := [Field.u8 acked, .u8 removed, fFlag full]
  ((s.onSup (fun v => { v with alarms := left, overflow := full })).post .alarm 3 fields, .done fields)

/-- ALARM_ACK (R188). -/
def execAlarmAck (r : Req) (position kind object : Nat) (sect : Option Nat) (s : State) : Result :=
  takeRequest (.alarmAck r position kind object sect) .alarmAck r s (takeAlarmAck position (Alarm.ofFields? kind object sect))

/-- ALARM_ACK_ALL (R188). -/
def execAlarmAckAll (r : Req) (s : State) : Result := takeRequest (.alarmAckAll r) .alarmAckAll r s takeAckAll

/-! ## Restart (R190) -/

/-- R190: the blocks that take a restart. -/
def State.restartBlocks (s : State) : List Block :=
  [.occupancy, .point, .route] ++ s.gateNumbers.map .gate ++ [.stabling, .roster]

/-- The claim by which a block is handed the restart. -/
def restartClaim : Block → Instr
  | .occupancy => .occupancyRestart
  | .point => .pointRestart
  | .route => .routeRestart
  | .gate g => .gateRestart g
  | .stabling => .stablingRestart
  | .roster => .rosterRestart

/-- R190: the restart is handed to every block, in the order in which R190 names them, gate 1 before gate 2 (log entry 65, DESIGN
CHOICE). -/
def State.handRestart (r : Req) (s : State) : State :=
  let s := (s.onSup (fun v => { v with restart := some ⟨s.restartBlocks, r⟩ })).onStab (fun b => { b with handed := true })
  s.restartBlocks.foldl (fun s b => s.send (restartClaim b)) s

/-- RESTART (R190): it is answered when every block has reported (R171's and R2's refusals at once). -/
def execRestart (r : Req) (s : State) : Result :=
  let s := s.take (.restart r)
  match s.portCheck (s.takenIn .restart r) .restart r.port (.restart r) with
  | some why => done (s.reply .restart r (.refused why))
  | none =>
    match s.stateCheck .restart r with
    | some why => done (s.reply .restart r (.refused why))
    | none => done (s.handRestart r)

/-- RESTART_TAKEN_REPORT (R190): the last one posts RESTARTED and forms the answer. -/
def execRestartTakenReport (b : Block) (s : State) : Result :=
  let s := s.take (.restartTakenReport b)
  match s.sup.restart with
  | none => done s
  | some p =>
    if (p.waiting.erase b).isEmpty then
      done (((s.onSup (fun v => { v with restart := none })).post .alarm 5 []).reply .restart p.req .done)
    else done (s.onSup (fun v => { v with restart := some { p with waiting := p.waiting.erase b } }))

end Sys2Proof.Machine
end

