-- ==== Sys2Proof/Machine/Dispatch.lean ====
section
/-! DEFINITION. One arm for each command of the part: the block that takes it has its meaning. -/

namespace Sys2Proof.Machine

def exec (i : Instr) (s : State) : Host.Outcome State Fault Refusal :=
  match i with
  | .powerOnReset straps => Sys2Proof.Machine.execPowerOnReset straps s
  | .controlFrame p chars => Sys2Proof.Machine.execControlFrame p chars s
  | .frameGap p => Sys2Proof.Machine.execFrameGap p s
  | .lineBreak p => Sys2Proof.Machine.execLineBreak p s
  | .frameSent p => Sys2Proof.Machine.execFrameSent p s
  | .status r => Sys2Proof.Machine.execStatus r s
  | .subscribe r groups => Sys2Proof.Machine.execSubscribe r groups s
  | .portReset r => Sys2Proof.Machine.execPortReset r s
  | .tableSelect r table qualifier index => Sys2Proof.Machine.execTableSelect r table qualifier index s
  | .tableNext r => Sys2Proof.Machine.execTableNext r s
  | .sectionDef r number kind gate siding selection => Sys2Proof.Machine.execSectionDef r number kind gate siding selection s
  | .pointDef r number sect throwLimit => Sys2Proof.Machine.execPointDef r number sect throwLimit s
  | .sidingDef r number mouth body length abilities => Sys2Proof.Machine.execSidingDef r number mouth body length abilities s
  | .gateDef r number signal reader approach gateOut => Sys2Proof.Machine.execGateDef r number signal reader approach gateOut s
  | .headshuntDef r number sect => Sys2Proof.Machine.execHeadshuntDef r number sect s
  | .routeDef r payload => Sys2Proof.Machine.execRouteDef r payload s
  | .yardParams r fields => Sys2Proof.Machine.execYardParams r fields s
  | .configCommit r => Sys2Proof.Machine.execConfigCommit r s
  | .occupancyInputChange sect signal => Sys2Proof.Machine.execOccupancyInputChange sect signal s
  | .confirmationTimerExpiry sect => Sys2Proof.Machine.execConfirmationTimerExpiry sect s
  | .sectionForceOn r sect => Sys2Proof.Machine.execSectionForceOn r sect s
  | .sectionForceOff r sect => Sys2Proof.Machine.execSectionForceOff r sect s
  | .sectionQuery r sect => Sys2Proof.Machine.execSectionQuery r sect s
  | .forceFlagReport sect isSet => Sys2Proof.Machine.execForceFlagReport sect isSet s
  | .routeOccupyEdge sect cause => Sys2Proof.Machine.execRouteOccupyEdge sect cause s
  | .routeClearEdge sect cause => Sys2Proof.Machine.execRouteClearEdge sect cause s
  | .readerOccupyEdge gate cause => Sys2Proof.Machine.execReaderOccupyEdge gate cause s
  | .readerClearEdge gate cause => Sys2Proof.Machine.execReaderClearEdge gate cause s
  | .bodyEdge sect state cause => Sys2Proof.Machine.execBodyEdge sect state cause s
  | .detectionChange point normal reverse => Sys2Proof.Machine.execDetectionChange point normal reverse s
  | .throwTimerExpiry point => Sys2Proof.Machine.execThrowTimerExpiry point s
  | .coolDownExpiry point => Sys2Proof.Machine.execCoolDownExpiry point s
  | .pointThrow r point position => Sys2Proof.Machine.execPointThrow r point position s
  | .pointBlock r point => Sys2Proof.Machine.execPointBlock r point s
  | .pointRestore r point => Sys2Proof.Machine.execPointRestore r point s
  | .pointQuery r point => Sys2Proof.Machine.execPointQuery r point s
  | .pointStateReport report => Sys2Proof.Machine.execPointStateReport report s
  | .withheldReply slot point => Sys2Proof.Machine.execWithheldReply slot point s
  | .routeSet r route => Sys2Proof.Machine.execRouteSet r route s
  | .routeCancel r route => Sys2Proof.Machine.execRouteCancel r route s
  | .routeResume r route => Sys2Proof.Machine.execRouteResume r route s
  | .routeForceRelease r route => Sys2Proof.Machine.execRouteForceRelease r route s
  | .storeTimerExpiry route => Sys2Proof.Machine.execStoreTimerExpiry route s
  | .timeReleaseExpiry slot => Sys2Proof.Machine.execTimeReleaseExpiry slot s
  | .routeHaltReport isSet => Sys2Proof.Machine.execRouteHaltReport isSet s
  | .inboundFrame gate bytes => Sys2Proof.Machine.execInboundFrame gate bytes s
  | .readerWaitExpiry gate => Sys2Proof.Machine.execReaderWaitExpiry gate s
  | .earlyReadExpiry gate => Sys2Proof.Machine.execEarlyReadExpiry gate s
  | .outboundFrame gate bytes => Sys2Proof.Machine.execOutboundFrame gate bytes s
  | .stackingReport gate report => Sys2Proof.Machine.execStackingReport gate report s
  | .arrivalIdentify r gate position fleet length mandatory wanted => Sys2Proof.Machine.execArrivalIdentify r gate position fleet length mandatory wanted s
  | .arrivalDiscard r gate position => Sys2Proof.Machine.execArrivalDiscard r gate position s
  | .arrivalAdd r gate fleet length mandatory wanted => Sys2Proof.Machine.execArrivalAdd r gate fleet length mandatory wanted s
  | .arrivalResume r gate => Sys2Proof.Machine.execArrivalResume r gate s
  | .gateHold r gate => Sys2Proof.Machine.execGateHold r gate s
  | .gateRelease r gate => Sys2Proof.Machine.execGateRelease r gate s
  | .gateClearOverrun r gate => Sys2Proof.Machine.execGateClearOverrun r gate s
  | .lineHold r gate => Sys2Proof.Machine.execLineHold r gate s
  | .lineRelease r gate => Sys2Proof.Machine.execLineRelease r gate s
  | .gateHaltReport gate isSet => Sys2Proof.Machine.execGateHaltReport gate isSet s
  | .gateArrivalEvent gate event => Sys2Proof.Machine.execGateArrivalEvent gate event s
  | .gateDepartureEvent gate event => Sys2Proof.Machine.execGateDepartureEvent gate event s
  | .stablingArrivalEvent event => Sys2Proof.Machine.execStablingArrivalEvent event s
  | .stablingDepartureEvent event => Sys2Proof.Machine.execStablingDepartureEvent event s
  | .shuntOutEvent event => Sys2Proof.Machine.execShuntOutEvent event s
  | .shuntInEvent event => Sys2Proof.Machine.execShuntInEvent event s
  | .censusSet r siding entries => Sys2Proof.Machine.execCensusSet r siding entries s
  | .sidingAbilities r siding abilities => Sys2Proof.Machine.execSidingAbilities r siding abilities s
  | .sidingBlock r siding => Sys2Proof.Machine.execSidingBlock r siding s
  | .sidingUnblock r siding => Sys2Proof.Machine.execSidingUnblock r siding s
  | .sidingDoubt r siding => Sys2Proof.Machine.execSidingDoubt r siding s
  | .shunt r fleet target => Sys2Proof.Machine.execShunt r fleet target s
  | .shuntCancel r entry => Sys2Proof.Machine.execShuntCancel r entry s
  | .shuntRetarget r entry target => Sys2Proof.Machine.execShuntRetarget r entry target s
  | .clockSet r minute => Sys2Proof.Machine.execClockSet r minute s
  | .minuteTimerExpiry => Sys2Proof.Machine.execMinuteTimerExpiry s
  | .rosterAdd r duty due gate fleet minLength => Sys2Proof.Machine.execRosterAdd r duty due gate fleet minLength s
  | .rosterRemove r duty => Sys2Proof.Machine.execRosterRemove r duty s
  | .rosterClear r => Sys2Proof.Machine.execRosterClear r s
  | .rosterAuto r gate setting => Sys2Proof.Machine.execRosterAuto r gate setting s
  | .depart r duty fleet gate => Sys2Proof.Machine.execDepart r duty fleet gate s
  | .rosterDepartureEvent event => Sys2Proof.Machine.execRosterDepartureEvent event s
  | .rosterHaltReport isSet => Sys2Proof.Machine.execRosterHaltReport isSet s
  | .halt r => Sys2Proof.Machine.execHalt r s
  | .haltRelease r => Sys2Proof.Machine.execHaltRelease r s
  | .restart r => Sys2Proof.Machine.execRestart r s
  | .restartTakenReport block => Sys2Proof.Machine.execRestartTakenReport block s
  | .occupancyRestart => Sys2Proof.Machine.execOccupancyRestart s
  | .pointRestart => Sys2Proof.Machine.execPointRestart s
  | .routeRestart => Sys2Proof.Machine.execRouteRestart s
  | .gateRestart gate => Sys2Proof.Machine.execGateRestart gate s
  | .stablingRestart => Sys2Proof.Machine.execStablingRestart s
  | .rosterRestart => Sys2Proof.Machine.execRosterRestart s
  | .alarmRaise alarm => Sys2Proof.Machine.execAlarmRaise alarm s
  | .alarmConditionEnd alarm => Sys2Proof.Machine.execAlarmConditionEnd alarm s
  | .alarmAck r position kind object sect => Sys2Proof.Machine.execAlarmAck r position kind object sect s
  | .alarmAckAll r => Sys2Proof.Machine.execAlarmAckAll r s

end Sys2Proof.Machine
end

