-- ==== Sys2Proof/Machine/Step.lean ====
section
/-! DEFINITION. One step: the command at the front of the queue; with an empty queue, the claims in flight, the timers and
time (log entry 2). -/

namespace Sys2Proof.Machine

/-! ## Timers -/

/-- One millisecond less on a running timer. -/
def tickTimer (t : Option Nat) : Option Nat := t.map (· - 1)

/-- Whether a timer has run out and its expiry has not been taken. -/
def ranOut (t : Option Nat) : Bool := t == some 0

/-- The sections whose confirmation timers have run out (R22). -/
def State.confirmationsDue (s : State) : List Instr :=
  (s.sections.filter (fun p => ranOut (p.2.pending.map Pending.left))).map (fun p => .confirmationTimerExpiry p.1)

/-- The points whose throw or cool-down timers have run out (R45, R46). -/
def State.pointsDue (s : State) : List Instr :=
  (s.points.filter (fun p => ranOut p.2.throwTimer)).map (fun p => .throwTimerExpiry p.1) ++
  (s.points.filter (fun p => ranOut p.2.coolTimer)).map (fun p => .coolDownExpiry p.1)

/-- The stored requests and the entries in TIME_RELEASE whose timers have run out (R75, R95). -/
def State.routesDue (s : State) : List Instr :=
  (s.route.store.filter (fun e => e.timer = 0)).map (fun e => .storeTimerExpiry e.route) ++
  (s.route.table.filter (fun p => ranOut p.2.timer)).map (fun p => .timeReleaseExpiry p.1)

/-- The gates whose reader wait or early-read timers have run out (R109, R110). -/
def State.gatesDue (s : State) : List Instr :=
  (s.gates.filter (fun p => ranOut p.2.waitTimer)).map (fun p => .readerWaitExpiry p.1) ++
  (s.gates.filter (fun p => ranOut (p.2.early.map EarlyRead.left))).map (fun p => .earlyReadExpiry p.1)

/-- The expiries that stand, in the order in which the empty queue takes them (log entry 2). -/
def State.expiries (s : State) : List Instr :=
  s.confirmationsDue ++ s.pointsDue ++ s.routesDue ++ s.gatesDue ++
  (if ranOut s.roster.minuteTimer then [.minuteTimerExpiry] else [])

/-- One millisecond passes: every running timer has one less, and the count of time one more. -/
def State.tick (s : State) : State :=
  { s with
    uptime := s.uptime + 1
    sections := s.sections.map (fun p =>
      (p.1, { p.2 with pending := p.2.pending.map (fun x => { x with left := x.left - 1 }) }))
    points := s.points.map (fun p =>
      (p.1, { p.2 with throwTimer := tickTimer p.2.throwTimer, coolTimer := tickTimer p.2.coolTimer }))
    route := { s.route with
      store := s.route.store.map (fun e => { e with timer := e.timer - 1 })
      table := s.route.table.map (fun p => (p.1, { p.2 with timer := tickTimer p.2.timer })) }
    gates := s.gates.map (fun p =>
      (p.1, { p.2 with
        waitTimer := tickTimer p.2.waitTimer
        early := p.2.early.map (fun x => { x with left := x.left - 1 }) }))
    roster := { s.roster with minuteTimer := tickTimer s.roster.minuteTimer } }

/-! ## The step -/

/-- With an empty queue (log entry 2): the oldest claim in flight is taken; or else a timer that has run out expires; or
else a millisecond passes. -/
def State.idle (s : State) : Result :=
  match s.claims with
  | c :: _ => exec c s
  | [] =>
    match s.expiries with
    | c :: _ => exec c s
    | [] => .next s.tick

/-- One step: the command at the front of the queue, on the state with the queue's rest. -/
def step (s : State) : Host.Outcome State Fault Refusal :=
  match s.pending with
  | c :: rest => exec c { s with pending := rest }
  | [] => s.idle

/-- The command that a table word spells is put at the front of the queue; the table's rows give no bits, so none does. -/
def State.withFetchWord (s : State) (nbits w : Nat) : State :=
  match decodeTableWord nbits w with
  | some i => { s with pending := i :: s.pending }
  | none => s

end Sys2Proof.Machine
end

