-- ==== Sys2Proof/WellFormed.lean ====
section
/-! DEFINITION. Which commands can come about: a request's numbers fit their wire fields and its codes are given ones; a
field event names a line that exists. `exec` needs none of this (it answers every command); it marks the terms that the
links and lines can produce. -/

namespace Sys2Proof

/-- A value of a one-byte field. -/
def fits8 (n : Nat) : Bool := n < 256
/-- A value of a two-byte field. -/
def fits16 (n : Nat) : Bool := n < 65536
/-- A present value of an optional one-byte field: 0 stands for absent. -/
def fitsOpt8 (o : Option Nat) : Bool := match o with | none => true | some n => 1 ≤ n ∧ n < 256
/-- A present value of an optional two-byte field: 0xFFFF stands for absent. -/
def fitsOpt16 (o : Option Nat) : Bool := match o with | none => true | some n => n < 65535
/-- A section input line (00 section 3). -/
def isSection (n : Nat) : Bool := 1 ≤ n ∧ n ≤ 64
/-- A point's lines. -/
def isPoint (n : Nat) : Bool := 1 ≤ n ∧ n ≤ 32
/-- A gate. -/
def isGate (n : Nat) : Bool := 1 ≤ n ∧ n ≤ 2
/-- A route table slot. -/
def isSlot (n : Nat) : Bool := 1 ≤ n ∧ n ≤ 16
/-- A catalogue route. -/
def isRoute (n : Nat) : Bool := 1 ≤ n ∧ n ≤ 128

/-- A masked field that fits its bytes, one or two. -/
def fitsField (top : Nat) (o : Option Nat) : Bool := match o with | none => true | some n => n < top

/-- The operands of a command fit the fields they come in. -/
def Instr.fits : Instr → Bool
  | .powerOnReset _ | .controlFrame _ _ | .frameGap _ | .lineBreak _ | .frameSent _ => true
  | .status _ | .subscribe _ _ | .portReset _ | .tableNext _ => true
  | .tableSelect _ t q i => fits8 t && fits8 q && fits8 i
  | .sectionDef _ n k g sd sel => fits8 n && fits8 k && fitsOpt8 g && fitsOpt8 sd && fits8 sel
  | .pointDef _ n sc l => fits8 n && fitsOpt8 sc && fits8 l
  | .sidingDef _ n m b l _ => fits8 n && fits8 m && fits8 b && fits16 l
  | .gateDef _ g sg rd ap out =>
    fits8 g && fits8 sg && fits8 rd && ap.all fits8 && fits8 out && decide (1 ≤ ap.length ∧ ap.length ≤ 4)
  | .headshuntDef _ n sc => fits8 n && fits8 sc
  | .routeDef _ p => decide (9 ≤ p.length ∧ p.length ≤ 56)
  | .yardParams _ f =>
    fitsField 65536 f.occupyConfirm && fitsField 256 f.clearConfirm && fitsField 256 f.coolDown &&
    fitsField 65536 f.failureWindow && fitsField 256 f.timeRelease && fitsField 65536 f.storeLimit &&
    fitsField 256 f.readerWait && fitsField 256 f.spacing && fitsField 65536 f.capacityReserve &&
    fitsField 256 f.capacityBand && fitsField 256 f.queueHighMark && fitsField 256 f.callLead &&
    fitsField 256 f.dueNoticeLead && fitsField 256 f.inversion
  | .configCommit _ => true
  | .occupancyInputChange n _ | .confirmationTimerExpiry n | .forceFlagReport n _
  | .routeOccupyEdge n _ | .routeClearEdge n _ | .bodyEdge n _ _ => isSection n
  | .sectionForceOn _ n | .sectionForceOff _ n | .sectionQuery _ n => fits8 n
  | .readerOccupyEdge g _ | .readerClearEdge g _ => isGate g
  | .detectionChange n _ _ | .throwTimerExpiry n | .coolDownExpiry n => isPoint n
  | .pointThrow _ n pos => fits8 n && fits8 pos
  | .pointBlock _ n | .pointRestore _ n | .pointQuery _ n => fits8 n
  | .pointStateReport rep => isPoint rep.point
  | .withheldReply sl n => isSlot sl && isPoint n
  | .routeSet _ n | .routeCancel _ n | .routeResume _ n | .routeForceRelease _ n => fits8 n
  | .storeTimerExpiry n => isRoute n
  | .timeReleaseExpiry sl => isSlot sl
  | .routeHaltReport _ | .rosterHaltReport _ => true
  | .inboundFrame g _ | .outboundFrame g _ | .readerWaitExpiry g | .earlyReadExpiry g
  | .stackingReport g _ | .gateHaltReport g _ | .gateArrivalEvent g _ | .gateDepartureEvent g _ | .gateRestart g => isGate g
  | .arrivalIdentify _ g pos f l _ _ => fits8 g && fits8 pos && fits16 f && fits8 l
  | .arrivalDiscard _ g pos => fits8 g && fits8 pos
  | .arrivalAdd _ g f l _ _ => fits8 g && fits16 f && fits8 l
  | .arrivalResume _ g | .gateHold _ g | .gateRelease _ g | .gateClearOverrun _ g | .lineHold _ g | .lineRelease _ g => fits8 g
  | .stablingArrivalEvent ev | .stablingDepartureEvent ev | .shuntOutEvent ev | .shuntInEvent ev
  | .rosterDepartureEvent ev => isRoute ev.route
  | .censusSet _ n es => fits8 n && es.all (fun e => fits16 e.fleet && fits8 e.length) && decide (es.length ≤ 12)
  | .sidingAbilities _ n _ | .sidingBlock _ n | .sidingUnblock _ n | .sidingDoubt _ n => fits8 n
  | .shunt _ f t => fits16 f && fits8 t
  | .shuntCancel _ e => fits8 e
  | .shuntRetarget _ e t => fits8 e && fits8 t
  | .clockSet _ m => fits16 m
  | .minuteTimerExpiry => true
  | .rosterAdd _ d u g f m => fits16 d && fits16 u && fits8 g && fitsOpt16 f && fitsOpt8 m
  | .rosterRemove _ d => fits16 d
  | .rosterClear _ => true
  | .rosterAuto _ g st => fits8 g && fits8 st
  | .depart _ d f g => fitsOpt16 d && fitsOpt16 f && fitsOpt8 g
  | .halt _ | .haltRelease _ | .restart _ | .restartTakenReport _ => true
  | .occupancyRestart | .pointRestart | .routeRestart | .stablingRestart | .rosterRestart => true
  | .alarmRaise _ | .alarmConditionEnd _ | .alarmAckAll _ => true
  | .alarmAck _ pos k o sc => fits8 pos && fits8 k && fits16 o && fitsOpt8 sc

/-- A well-formed command: its operands fit and its enumerated and set fields hold given codes. -/
def Instr.wf (i : Instr) : Bool := i.fits && i.codesOk

end Sys2Proof
end

