-- ==== Sys2Proof/Safety.lean ====
section
/-! DEFINITION. Which commands a yard and its masters can bring about at a state: `exec` gives every command a meaning; this
says which queues are runs of the part. And the words in which statements say what a taking changes. -/

namespace Sys2Proof.Safety

open Sys2Proof.Machine

/-- The blocks, as senders and recipients of claims (00 section 2.1). -/
inductive Agent where
  | occupancy | points | routes | gate (number : Nat) | stabling | roster | supervision
  deriving DecidableEq, Repr

/-- The block that takes a handed restart. -/
def agentOf : Block → Agent
  | .occupancy => .occupancy | .point => .points | .route => .routes | .gate g => .gate g | .stabling => .stabling
  | .roster => .roster

/-- The sender and recipient of a claim between blocks (R24, R28, R52, R67, R76, R126, R183, R190). Alarm claims, which any
block may send, have supervision as both: their order is kept among all of them. None for what is no such claim. -/
def parties : Instr → Option (Agent × Agent)
  | .forceFlagReport _ _ | .routeOccupyEdge _ _ | .routeClearEdge _ _ => some (.occupancy, .routes)
  | .readerOccupyEdge g _ | .readerClearEdge g _ => some (.occupancy, .gate g)
  | .bodyEdge _ _ _ => some (.occupancy, .stabling)
  | .pointStateReport _ | .withheldReply _ _ => some (.points, .routes)
  | .stackingReport g _ => some (.stabling, .gate g)
  | .gateArrivalEvent g _ | .gateDepartureEvent g _ => some (.routes, .gate g)
  | .stablingArrivalEvent _ | .stablingDepartureEvent _ | .shuntOutEvent _ | .shuntInEvent _ => some (.routes, .stabling)
  | .rosterDepartureEvent _ => some (.routes, .roster)
  | .routeHaltReport _ => some (.supervision, .routes)
  | .gateHaltReport g _ => some (.supervision, .gate g)
  | .rosterHaltReport _ => some (.supervision, .roster)
  | .occupancyRestart => some (.supervision, .occupancy)
  | .pointRestart => some (.supervision, .points)
  | .routeRestart => some (.supervision, .routes)
  | .gateRestart g => some (.supervision, .gate g)
  | .stablingRestart => some (.supervision, .stabling)
  | .rosterRestart => some (.supervision, .roster)
  | .restartTakenReport b => some (agentOf b, .supervision)
  | .alarmRaise _ | .alarmConditionEnd _ => some (.supervision, .supervision)
  | _ => none

/-- A claim comes in order: it is in flight, and no older one in flight has the same sender and recipient (R76, R187; log
entry 1). -/
def inOrder (s : State) (c : Instr) : Bool := s.claims.find? (fun x => parties x = parties c) = some c

/-- The timer commands: they come when their timer has run out. -/
def isExpiry : Instr → Bool
  | .confirmationTimerExpiry _ | .throwTimerExpiry _ | .coolDownExpiry _ | .storeTimerExpiry _ | .timeReleaseExpiry _
  | .readerWaitExpiry _ | .earlyReadExpiry _ | .minuteTimerExpiry => true
  | _ => false

/-- A command can come about at a state: it is well-formed; a claim comes in order; an expiry when its timer has run out; a
frame ends where one is being sent (R172). -/
def mayCome (s : State) (c : Instr) : Bool :=
  c.wf &&
  (if (parties c).isSome then inOrder s c
   else if isExpiry c then s.expiries.contains c
   else match c with
     | .frameSent p => (s.port p).sending.isSome
     | _ => true)

/-- A queue is a run of the part: each command can come about where it is taken. -/
def isRun : List Instr → State → Bool
  | [], _ => true
  | c :: cs, s =>
    mayCome s c && match exec c s with
      | .next t => isRun cs t
      | _ => true

end Sys2Proof.Safety

namespace Sys2Proof.Machine

/-! ## What a statement says of a taking -/

/-- The parts of the state that a taking may change. -/
inductive Part where
  | lines | store | sections | points | routes | gates | stabling | roster | supervision | ports
  deriving DecidableEq, Repr

/-- A port without what answering and noticing change, the request in hand, the answer path and the notices: `Answered` and
`Notes` say these. -/
def PortState.aside (q : PortState) : PortState := { q with inHand := none, path := [], notices := [], noticesLost := false }

/-- A part is the same before and after. -/
def Part.same (s u : State) : Part → Prop
  | .lines => u.pins = s.pins
  | .store => u.op = s.op ∧ u.desc = s.desc ∧ u.inForce = s.inForce
  | .sections => u.sections = s.sections
  | .points => u.points = s.points
  | .routes => u.route = s.route
  | .gates => u.gates = s.gates
  | .stabling => u.stab = s.stab
  | .roster => u.roster = s.roster
  | .supervision => u.sup = s.sup
  | .ports => ∀ p, (u.port p).aside = (s.port p).aside

/-- The frame of a taking: the queue, the time, and every part that is not named are unchanged. -/
def KeepsAllBut (changed : List Part) (s u : State) : Prop :=
  u.pending = s.pending ∧ u.uptime = s.uptime ∧ ∀ x : Part, x ∉ changed → x.same s u

/-- The notices of every port are those that these posts leave. -/
def Notes (posts : State → State) (s u : State) : Prop :=
  ∀ p, (u.port p).notices = ((posts s).port p).notices ∧ (u.port p).noticesLost = ((posts s).port p).noticesLost

/-- Whether a request in hand is the one of this kind and sender, still unanswered (R171). -/
def InHand.isFor (k : Kind) (r : Req) (h : InHand) : Bool :=
  decide (h.kind = BitVec.ofNat 8 k.code) && decide (h.tag = r.tag) && !h.answered

/-- R14: a request is taken in RUN: the part is in RUN, and where a request with this TAG is in hand at its port, still
unanswered, the port handed it on in RUN. -/
def InRun (r : Req) (s : State) : Prop :=
  s.op = .run ∧ (s.port r.port).inHand.all (fun h => h.answered || decide (h.tag ≠ r.tag) || decide (h.handedIn = .run)) = true

/-- A port's path and request in hand are as before. -/
def NoAnswerAt (p : Port) (s u : State) : Prop :=
  (u.port p).path = (s.port p).path ∧ (u.port p).inHand = (s.port p).inHand

/-- The answer formed: none at any port, or one more at the young end of its port's answer path, with KIND and TAG of its
request; where that request is the one in hand, it is now answered, and the answer is its own, dropped where a port reset has
said so (R172, R179). -/
def Answered (answer : Option (Kind × Req × Ans)) (s u : State) : Prop :=
  match answer with
  | none => ∀ p, NoAnswerAt p s u
  | some (k, r, a) =>
    let hand := (s.port r.port).inHand
    let own : Bool := hand.any (InHand.isFor k r)
    (u.port r.port).path = (s.port r.port).path ++
      [⟨BitVec.ofNat 8 k.code, r.tag, a, false, own, own && hand.any InHand.dropped⟩] ∧
    (u.port r.port).inHand = (if own then hand.map (fun h => { h with answered := true }) else hand) ∧
    ∀ p, p ≠ r.port → NoAnswerAt p s u

/-- What a taking does beside its new values: frame, claims in flight, notices, answer. -/
def Effect (changed : List Part) (claims : List Instr) (posts : State → State) (answer : Option (Kind × Req × Ans))
    (s u : State) : Prop :=
  KeepsAllBut changed s u ∧ u.claims = claims ∧ Notes posts s u ∧ Answered answer s u

/-- A table is as before but for one number, where it now holds a record. -/
def Put {α : Type} (k : Nat) (a : α) (before after : Tbl α) : Prop :=
  ∀ m, Tbl.find m after = if m = k then some a else Tbl.find m before

/-- A table is as before but for one number, where it now holds none. -/
def Del {α : Type} (k : Nat) (before after : Tbl α) : Prop :=
  ∀ m, Tbl.find m after = if m = k then none else Tbl.find m before

end Sys2Proof.Machine
end

