-- ==== Sys2Proof/Certificates/Slice0/Obligations.lean ====
section
/-! DEFINITION. The statements about the SD-724, for the provers. A taking ends in `u.settle`: `u` is what the command itself
leaves, and `State.settle` then sets the output lines and lets the ports go on sending (`Obligations.EndOfTaking` says what
that leaves alone). A statement about a command gives `u`: the parts it may change, the claims in flight, the notices, the
answer, and the new values (`Effect`, in Safety.lean). -/

open Sys2Proof Sys2Proof.Machine

/-! ## Occupancy monitor (02) -/

/-- R20, R21, R23: what a change of a defined section's input does. -/
def sectionInputIsQualified : Prop :=
  ∀ (n : Nat) (signal : LineSignal) (s : State) (r : SectionRec), Tbl.find n s.sections = some r →
    let level : Occ := if signal = .free then .clear else .occupied
    let dropped : Option Pending := if r.forced ∨ level ≠ r.confirmed then none else r.pending
    ∃ u, exec (.occupancyInputChange n signal) s = .next u.settle ∧
      Effect [.lines, .sections] s.claims
        (fun s => match dropped with
          | some p => if r.noise = false ∧ selects r.selection p.toward then
              s.post .sect 2 [.u8 n, .u8 (if p.toward = .occupied then 1 else 2)] else s
          | none => s) none s u ∧
      u.pins = { s.pins with occupancy := s.pins.occupancy.set (n - 1) signal } ∧
      Put n (if dropped.isSome then { r with level := level, pending := none, noise := true }
        else if r.forced ∨ r.pending.isSome ∨ level = r.confirmed then { r with level := level }
        else { r with level := level, pending := some ⟨level, if level = .occupied then s.param.occupyConfirm else
          s.param.clearConfirm * 1000⟩ }) s.sections u.sections

/-- R1, R5: the input of a section with no record only shows its new signal. -/
def undefinedInputIsNotTaken : Prop :=
  ∀ (n : Nat) (s : State),
    (Tbl.find n s.sections = none → ∀ signal, exec (.occupancyInputChange n signal) s =
      .next ({ s with pins := { s.pins with occupancy := s.pins.occupancy.set (n - 1) signal } }).settle) ∧
    (Tbl.find n s.points = none → ∀ a b, exec (.detectionChange n a b) s =
      .next ({ s with pins := { s.pins with normal := s.pins.normal.set (n - 1) a,
                                            reverse := s.pins.reverse.set (n - 1) b } }).settle) ∧
    (Tbl.find n s.gates = none → ∀ bytes, exec (.inboundFrame n bytes) s = .next s.settle ∧
      exec (.outboundFrame n bytes) s = .next s.settle)

/-- R1, R5, R20–R23: a change of an occupancy input; and the inputs of objects that are not defined. -/
def Obligations.OccupancyInputs : Prop := sectionInputIsQualified ∧ undefinedInputIsNotTaken

/-- The claims by which a confirmed edge is delivered (R24), an unrouted occupancy is raised (R26) or ended (R27). -/
def edgeClaims (s : State) (n : Nat) (r : SectionRec) (state : Occ) (cause : EdgeCause) : List Instr :=
  [if state = .occupied then .routeOccupyEdge n cause else .routeClearEdge n cause] ++
  (if r.kind = .reader then
    (s.gateOf n).toList.map (fun g => if state = .occupied then .readerOccupyEdge g cause else .readerClearEdge g cause)
   else if r.kind = .body then [.bodyEdge n state cause] else []) ++
  (if r.kind = .ladder ∨ r.kind = .gateOut ∨ r.kind = .mouth then
    if state = .clear then [.alarmConditionEnd (.unroutedOccupancy n)]
    else if r.reservedBy = none then [.alarmRaise (.unroutedOccupancy n)] else []
   else [])

/-- The SECTION_EDGE notice of a confirmed edge (R25). -/
def edgeNotice (n : Nat) (r : SectionRec) (state : Occ) (cause : EdgeCause) (s : State) : State :=
  if selects r.selection state then
    s.post .sect 1 [.u8 n, .u8 (if state = .clear then 1 else 2),
      .u8 (match cause with | .input => 1 | .force => 2 | .unforce => 3), .u8 (r.reservedBy.getD 0)]
  else s

/-- R22, R24–R27: the expiry of a confirmation timer. -/
def Obligations.ConfirmationMakesAnEdge : Prop :=
  ∀ (n : Nat) (s : State) (r : SectionRec) (p : Pending), Tbl.find n s.sections = some r → r.pending = some p →
    ∃ u, exec (.confirmationTimerExpiry n) s = .next u.settle ∧
      Effect [.sections] (s.claims ++ edgeClaims s n r p.toward .input) (edgeNotice n r p.toward .input) none s u ∧
      Put n { r with confirmed := p.toward, pending := none } s.sections u.sections

/-- R28: SECTION_FORCE on, of a defined section, from the desk in RUN. -/
def forceOn : Prop :=
  ∀ (q : Req) (n : Nat) (s : State) (r : SectionRec), q.port = .desk → InRun q s → Tbl.find n s.sections = some r →
    let idle : Bool := r.reservedBy.isSome || r.forced
    let edge : Bool := !idle && decide (r.confirmed = .clear)
    ∃ u, exec (.sectionForceOn q n) s = .next u.settle ∧
      Effect [.sections]
        (s.claims.erase (.sectionForceOn q n) ++ (if edge then edgeClaims s n r .occupied .force else []) ++
          (if idle then [] else [.forceFlagReport n true]))
        (fun s => if edge then edgeNotice n r .occupied .force s else s)
        (some (.sectionForce, q, if r.reservedBy.isSome then ⟨.refused, some .locked, []⟩ else ⟨.done, none, []⟩)) s u ∧
      Put n (if idle then r else { r with forced := true, pending := none, confirmed := .occupied }) s.sections u.sections

/-- R29: SECTION_FORCE off. -/
def forceOff : Prop :=
  ∀ (q : Req) (n : Nat) (s : State) (r : SectionRec), q.port = .desk → InRun q s → Tbl.find n s.sections = some r →
    let edge : Bool := r.forced && decide (r.level = .clear)
    ∃ u, exec (.sectionForceOff q n) s = .next u.settle ∧
      Effect [.sections]
        (s.claims.erase (.sectionForceOff q n) ++ (if edge then edgeClaims s n r .clear .unforce else []) ++
          (if r.forced then [.forceFlagReport n false] else []))
        (fun s => if edge then edgeNotice n r .clear .unforce s else s)
        (some (.sectionForce, q, ⟨.done, none, []⟩)) s u ∧
      Put n (if edge then { r with forced := false, confirmed := .clear, pending := none } else { r with forced := false })
        s.sections u.sections

/-- R28, R29: SECTION_FORCE on and off, of a defined section, from the desk in RUN. -/
def Obligations.SectionForce : Prop := forceOn ∧ forceOff

/-- R31: SECTION_QUERY gives the record and clears its noise latch; R33: a restart leaves the monitor as it is. -/
def Obligations.SectionQueryAndRestart : Prop :=
  (∀ (q : Req) (n : Nat) (s : State) (r : SectionRec), q.port = .desk → InRun q s → Tbl.find n s.sections = some r →
    ∃ u, exec (.sectionQuery q n) s = .next u.settle ∧
      Effect [.sections] (s.claims.erase (.sectionQuery q n)) id
        (some (.sectionQuery, q, ⟨.done, none,
          [.u8 n, .u8 r.kind.code, .u8 r.level.code, .u8 r.confirmed.code,
           .u8 ((r.pending.map (fun x => x.toward.code)).getD 0), .u16 ((r.pending.map Pending.left).getD 65535),
           .u8 (if r.forced then 2 else 1), .u8 (r.reservedBy.getD 0), .u8 r.selection.code,
           .u8 (if r.noise then 2 else 1)]⟩)) s u ∧
      Put n { r with noise := false } s.sections u.sections) ∧
  (∀ s : State, ∃ u, exec .occupancyRestart s = .next u.settle ∧
    Effect [] (s.claims.erase .occupancyRestart ++ [.restartTakenReport .occupancy]) id none s u)

/-! ## Point controller (03) -/

/-- A position as an optional field: absent 0, NORMAL 1, REVERSE 2. -/
def positionField (o : Option Position) : Field :=
  .u8 (match o with | none => 0 | some .normal => 1 | some .reverse => 2)

/-- The state in which a reading alone leaves a point: LOST for NONE and BOTH (R14, R37, R46, R50, R53). -/
def settledAt : Reading → PointState
  | .normal => .normal | .reverse => .reverse | .none => .lost | .both => .lost

/-- R35: the reading of the two detection inputs; a broken input reads as not detecting. -/
def readingShown (normal reverse : DetectSignal) : Reading :=
  if normal = .detecting then (if reverse = .detecting then .both else .normal)
  else if reverse = .detecting then .reverse else .none

/-- Whether a point stands in its commanded position. -/
def inCommanded (r : PointRec) : Bool :=
  (r.state = .normal && r.commanded = some .normal) || (r.state = .reverse && r.commanded = some .reverse)

/-- R47: whether a state change ends a standing POINT_LOST_UNDER_ROUTE condition. -/
def lossEnds (r : PointRec) : Bool := r.lossCondition && r.lock.isSome && inCommanded r

/-- R34, R47, R52: what a state change of a point sends, the report before the end of a loss condition (log entry 73, DESIGN CHOICE); `r`
is the record with its new state. -/
def changeClaims (n : Nat) (old : PointState) (r : PointRec) (cause : PointCause) : List Instr :=
  .pointStateReport ⟨n, old, r.state, r.reading, cause⟩ ::
    (if lossEnds r then [.alarmConditionEnd (.pointLostUnderRoute n)] else [])

/-- The record that a state change leaves: a condition that ended no longer stands. -/
def changed (r : PointRec) : PointRec := if lossEnds r then { r with lossCondition := false } else r

/-- R52: the POINT_STATE notice of a point. -/
def pointNotice (n : Nat) (r : PointRec) (cause : PointCause) (s : State) : State :=
  s.post .point 1 [.u8 n, .u8 r.state.code, .u8 r.reading.code, positionField r.commanded, .u8 (r.lock.getD 0), .u8 cause.code]

/-- R35–R37, R42, R47: a change of a defined point's detection, in each state of the point. -/
def detectionIsTaken : Prop :=
  ∀ (n : Nat) (a b : DetectSignal) (s : State) (r : PointRec), Tbl.find n s.points = some r →
    let seen : PointRec := { r with reading := readingShown a b }
    let now : PointState := settledAt (readingShown a b)
    let stood : Bool := r.state = .normal || r.state = .reverse
    let lost : Bool := stood && r.lock.isSome && inCommanded r
    let arrived : PointRec := { seen with state := now, drive := none, throwTimer := none, coolTimer := none, failures := 0, firstFailure := none }
    let change : Option (PointRec × PointCause) :=
      if stood then
        if now = r.state then none
        else some ({ seen with state := now, lossLatch := true, lossCondition := r.lossCondition || lost }, .detection)
      else if r.state = .lost then if now = .lost then none else some ({ seen with state := now }, .detection)
      else if r.state = .moving ∧ inCommanded { r with state := now } then some (arrived, .throwEnd)
      else none
    ∃ u, exec (.detectionChange n a b) s = .next u.settle ∧
      Effect [.lines, .points]
        (s.claims ++ (match change with | some (x, c) => changeClaims n r.state x c | none => []) ++
          (if change.isSome && lost then [.alarmRaise (.pointLostUnderRoute n)] else []))
        (fun s => match change with | some (x, c) => pointNotice n x c s | none => s) none s u ∧
      u.pins = { s.pins with normal := s.pins.normal.set (n - 1) a, reverse := s.pins.reverse.set (n - 1) b } ∧
      Put n (match change with | some (x, _) => changed x | none => seen) s.points u.points

/-- R45, R46: the throw limit makes a MOVING point FAILED; the cool-down's end takes it out of service or back, with the report before
the alarm (log entry 73, DESIGN CHOICE). -/
def failedThrows : Prop :=
  ∀ (n : Nat) (s : State) (r : PointRec), Tbl.find n s.points = some r → 
    (r.state = .moving →
      let again : Bool := r.failures ≠ 0 && r.firstFailure.any (fun t => s.seconds - t ≤ s.param.failureWindow)
      let x : PointRec := { r with
        state := .failed, drive := none, throwTimer := none, coolTimer := some (s.param.coolDown * 1000)
        failures := if again then 2 else 1
        firstFailure := if again then r.firstFailure else some s.seconds }
      ∃ u, exec (.throwTimerExpiry n) s = .next u.settle ∧
        Effect [.points] (s.claims ++ changeClaims n .moving x .limit) (pointNotice n x .limit) none s u ∧
        Put n (changed x) s.points u.points) ∧
    (r.state = .failed →
      let x : PointRec := { r with
        state := if r.failures = 2 then .outOfService else settledAt r.reading
        drive := none, throwTimer := none, coolTimer := none }
      ∃ u, exec (.coolDownExpiry n) s = .next u.settle ∧
        Effect [.points]
          (s.claims ++ changeClaims n .failed x .coolDownEnd ++
            (if r.failures = 2 then [.alarmRaise (.pointOutOfService n)] else []))
          (pointNotice n x .coolDownEnd) none s u ∧
        Put n (changed x) s.points u.points)

/-- R35: a change of a defined point's detection is taken as it arrives, in every state of the point; the reading recorded is NORMAL
or REVERSE where that position alone is detected, NONE where neither is and BOTH where both are, a broken input detecting nothing; and
the drive is not switched on. -/
def Obligations.DetectionIsReadAsItArrives : Prop :=
  ∀ (n : Nat) (a b : DetectSignal) (s : State) (r : PointRec), Tbl.find n s.points = some r →
    ∃ (u : State) (x : PointRec), exec (.detectionChange n a b) s = .next u.settle ∧ Tbl.find n u.points = some x ∧
      (x.reading = .normal ↔ a = .detecting ∧ b ≠ .detecting) ∧ (x.reading = .reverse ↔ a ≠ .detecting ∧ b = .detecting) ∧
      (x.reading = Reading.none ↔ a ≠ .detecting ∧ b ≠ .detecting) ∧ (x.reading = .both ↔ a = .detecting ∧ b = .detecting) ∧
      (a = .broken → b = .notDetecting → x.reading = .none) ∧ (a = .notDetecting → b = .broken → x.reading = .none) ∧
      (x.drive = r.drive ∨ x.drive = none)

/-- R35–R37, R42, R45–R47: a change of detection, and the ends of the throw limit and of the cool-down. -/
def Obligations.DetectionAndThrowTimers : Prop := detectionIsTaken ∧ failedThrows

/-- R41, R43, R48: POINT_THROW of a defined point from the desk, row by row. -/
def Obligations.PointThrowRows : Prop :=
  ∀ (q : Req) (n : Nat) (pos : Position) (s : State) (r : PointRec),
    q.port = .desk → InRun q s → Tbl.find n s.points = some r →
    let code : Nat := if pos = .normal then 1 else 2
    let target : PointState := if pos = .normal then .normal else .reverse
    let thrown : PointRec := { r with commanded := some pos, drive := some pos, throwTimer := some (r.throwLimit * 1000) }
    let refuse (why : Reason) : Ans × PointRec × Option PointCause := (⟨.refused, some why, []⟩, r, none)
    let out : Ans × PointRec × Option PointCause :=
      if r.lock.isSome then refuse .locked
      else if r.state = .outOfService then refuse .unavailable
      else if r.state = .failed then refuse .wrongState
      else if r.state = .moving then
        if r.drive = some pos then (⟨.accepted, none, []⟩, r, none) else (⟨.accepted, none, []⟩, thrown, some .reversal)
      else if r.state = target then (⟨.done, none, []⟩, { r with commanded := some pos }, none)
      else if s.isClear r.sect && !s.isForced r.sect then
        (⟨.accepted, none, []⟩, { thrown with state := .moving }, some .throwStart)
      else refuse .occupied
    ∃ u, exec (.pointThrow q n code) s = .next u.settle ∧
      Effect [.points]
        (s.claims.erase (.pointThrow q n code) ++
          (if out.2.2 = some .throwStart then [.pointStateReport ⟨n, r.state, .moving, r.reading, .throwStart⟩] else []))
        (fun s => match out.2.2 with | some c => pointNotice n out.2.1 c s | none => s)
        (some (.pointThrow, q, out.1)) s u ∧
      Put n out.2.1 s.points u.points

/-- R49–R51: POINT_BLOCK, POINT_RESTORE and POINT_QUERY of a defined point from the desk; a restore sends its report before the end of
the alarm's condition (log entry 73, DESIGN CHOICE). -/
def pointBlockRestoreQuery : Prop :=
  ∀ (q : Req) (n : Nat) (s : State) (r : PointRec), q.port = .desk → InRun q s → Tbl.find n s.points = some r →
    (let blocks : Bool := r.lock.isNone && decide (r.state ≠ .outOfService)
     let x : PointRec := { r with state := .outOfService, drive := none, throwTimer := none, coolTimer := none }
     ∃ u, exec (.pointBlock q n) s = .next u.settle ∧
       Effect [.points]
         (s.claims.erase (.pointBlock q n) ++
           (if blocks then [.pointStateReport ⟨n, r.state, .outOfService, r.reading, .block⟩] else []))
         (fun s => if blocks then pointNotice n x .block s else s)
         (some (.pointBlock, q, if r.lock.isSome then ⟨.refused, some .locked, []⟩ else ⟨.done, none, []⟩)) s u ∧
       Put n (if blocks then x else r) s.points u.points) ∧
    (let x : PointRec := { r with state := settledAt r.reading, failures := 0, firstFailure := none }
     ∃ u, exec (.pointRestore q n) s = .next u.settle ∧
       Effect [.points]
         (s.claims.erase (.pointRestore q n) ++
           (if r.state = .outOfService then changeClaims n .outOfService x .restore ++ [.alarmConditionEnd (.pointOutOfService n)]
            else []))
         (fun s => if r.state = .outOfService then pointNotice n x .restore s else s)
         (some (.pointRestore, q,
           if r.state = .outOfService then ⟨.done, none, []⟩ else ⟨.refused, some .wrongState, []⟩)) s u ∧
       Put n (if r.state = .outOfService then changed x else r) s.points u.points) ∧
    (∃ u, exec (.pointQuery q n) s = .next u.settle ∧
       Effect [.points] (s.claims.erase (.pointQuery q n)) id
         (some (.pointQuery, q, ⟨.done, none,
           [.u8 n, .u8 r.sect, .u8 r.throwLimit, .u8 r.state.code, .u8 r.reading.code, positionField r.commanded,
            .u8 (r.lock.getD 0), .u16 ((if r.throwTimer.isSome then r.throwTimer else r.coolTimer).getD 65535), .u8 r.failures,
            .u32 ((r.firstFailure.map (fun t => s.seconds - t)).getD 4294967295), .u8 (if r.lossLatch then 2 else 1)]⟩)) s u ∧
       Put n { r with lossLatch := false } s.points u.points)

/-- R53: a point after a restart; a locked point is left as it is. -/
def restartedPoint (r : PointRec) : PointRec :=
  if r.lock.isSome then r
  else { r with
    drive := none, throwTimer := none
    commanded := if r.state = .failed then r.commanded else none
    state := if r.state = .moving then settledAt r.reading else r.state }

/-- R52, R53, R190: a restart at the point controller; the MOVING points that it settles are reported and noticed by rising number
(log entry 65, DESIGN CHOICE), each once, with the state in which it settles (log entry 44, DEDUCED), and it is reported as taken
last. -/
def pointRestartSettles : Prop :=
  ∀ s : State, Tbl.wf s.points →
    let settled : Tbl PointRec := s.points.filter (fun p => p.2.lock.isNone && p.2.state = .moving)
    ∃ u, exec .pointRestart s = .next u.settle ∧
      Effect [.points]
        (s.claims.erase .pointRestart ++ settled.map (fun p =>
          .pointStateReport ⟨p.1, .moving, settledAt p.2.reading, p.2.reading, .restart⟩) ++ [.restartTakenReport .point])
        (fun s => settled.foldl (fun s p => pointNotice p.1 (restartedPoint p.2) .restart s) s) none s u ∧
      ∀ m, Tbl.find m u.points = (Tbl.find m s.points).map restartedPoint

/-- R49–R51, R53: the desk's other requests on a point, and a restart. -/
def Obligations.PointRequestsAndRestart : Prop := pointBlockRestoreQuery ∧ pointRestartSettles

/-! ## Route setter (04, 05) -/

/-- An event of a table entry (R76). -/
def entryEvent (slot : Nat) (e : RouteEntry) (p : Progress) : RouteEvent :=
  ⟨p, some slot, e.route, e.kind, e.owner, e.purpose, e.tram⟩

/-- R76: an event as a claim on each of its recipients. -/
def eventClaims (s : State) (ev : RouteEvent) : List Instr :=
  match ev.purpose with
  | .gateArrival g _ => [.gateArrivalEvent g ev, .stablingArrivalEvent ev]
  | .dutyDeparture _ _ | .fleetDeparture _ _ =>
    [.rosterDepartureEvent ev, .stablingDepartureEvent ev] ++
      (((s.routeDef ev.route).bind RouteDef.toObj).toList.map (fun g => .gateDepartureEvent g ev))
  | .shuntEntry _ _ => [if ev.kind = .shuntIn then .shuntInEvent ev else .shuntOutEvent ev]
  | .none => []

/-- R79: the ROUTE_STATE notice of an entry, with a state code (REMOVED 6, log entry 59) and the aspect of its origin
signal. -/
def routeNotice (slot : Nat) (e : RouteEntry) (state : Nat) (proceed : Bool) (s : State) : State :=
  s.post .route 2 ([.u8 slot, .u8 e.route, .u8 e.kind.code, .u8 e.owner.code, .u8 state, .u8 e.front, .u8 e.released,
    .u8 e.causes.byte, .u8 e.irregular.length] ++ e.irregular.map .u8 ++
    [.u16 (e.tram.getD 65535), .u8 (if proceed then 2 else 1)])

/-- R101: the ROUTE_CANCELLED notice; mode CANCEL 1, TIME_RELEASE 2, FORCE 3. -/
def cancelNotice (slot : Option Nat) (route : Nat) (owner : Owner) (purpose : Purpose) (mode : Nat) (s : State) : State :=
  s.post .route 5 ([.u8 route, .u8 (slot.getD 0), .u8 owner.code] ++ purpose.fields ++ [.u8 mode])

/-- Every section of these that the slot has reserved is released, and no other section changes (R30). -/
def SectionsFreed (slot : Nat) (sections : List Nat) (s u : State) : Prop :=
  ∀ m, Tbl.find m u.sections = (Tbl.find m s.sections).map (fun r =>
    if m ∈ sections ∧ r.reservedBy = some slot then { r with reservedBy := none } else r)

/-- Every point of these that is locked to the slot is unlocked, and no other point changes (R39, R47). -/
def PointsFreed (slot : Nat) (points : List Nat) (s u : State) : Prop :=
  ∀ m, Tbl.find m u.points = (Tbl.find m s.points).map (fun r =>
    if m ∈ points ∧ r.lock = some slot then { r with lock := none, lossCondition := false } else r)

/-- The condition ends that unlocking these points sends (R39, R47): one for each that is locked to the slot and whose loss
condition stands. -/
def unlockEnds (slot : Nat) (points : List Nat) (s : State) : List Instr :=
  (points.eraseDups.filter (fun n => (Tbl.find n s.points).any (fun r => r.lock = some slot && r.lossCondition))).map
    (fun n => .alarmConditionEnd (.pointLostUnderRoute n))

/-- The path and flank points of a route. -/
def routePoints (d : RouteDef) : List Nat := d.points.map Prod.fst

/-- A table entry leaves the table (R69, R90, R92, R95, R100): its sections and points are given back, its event is sent and its
notices are posted. Nothing is answered and nothing is taken from the store: `t` is the state on which a scan, if the removal is an
occasion for one (R73), then begins. -/
def EntryLeaves (before : List Instr) (slot : Nat) (e : RouteEntry) (d : RouteDef) (ev : Progress) (more : State → State)
    (s t : State) : Prop :=
  Effect [.sections, .points, .routes] (before ++ unlockEnds slot (routePoints d) s ++ eventClaims s (entryEvent slot e ev))
    (fun s => more (routeNotice slot e 6 (t.entryAspect e) s)) none s t ∧
  SectionsFreed slot d.sections s t ∧ PointsFreed slot (routePoints d) s t ∧
  Del slot s.route.table t.route.table ∧ t.route.store = s.route.store ∧ t.route.halt = s.route.halt

/-- R92, R100: a stored request leaves the store, with event CANCELLED and its notice; `t` is the state on which the scan then
begins. -/
def StoredLeaves (before : List Instr) (e : StoreEntry) (d : RouteDef) (mode : Nat) (s t : State) : Prop :=
  Effect [.routes] (before ++ eventClaims s ⟨.cancelled, none, e.route, d.kind, e.owner, e.purpose, e.tram⟩)
    (cancelNotice none e.route e.owner e.purpose mode) none s t ∧
  t.route = { s.route with store := s.route.store.filter (fun x => x.route ≠ e.route) }

/-- R73: the command's taking scans the store on a state (`storeScan` says what a scan does), and then answers. -/
def ScansAndAnswers (c : Instr) (answer : Option (Kind × Req × Ans)) (s t : State) : Prop :=
  ∃ u, exec c s = .next u.settle ∧ Effect [] t.scan.claims id answer t.scan u

/-! ### Requests (R58–R66) -/

/-- R62, R63, R65: the slot that a request takes; none where it is to be stored. -/
def slotTaken (d : RouteDef) (s : State) : Option Nat := if s.available d s.route.store then s.freeSlot else none

/-- R60, R61, R65: the refusal of a request for a catalogue route, with its results; none where it stands in a slot or in the
store. -/
def requestRefusal (k : Nat) (d : RouteDef) (s : State) : Option (Reason × List Field) :=
  match s.unavailableObject d, s.slotOf k, s.storePosition k with
  | some (.sect m), _, _ => some (.unavailable, [.u8 1, .u8 m])
  | some (.point m), _, _ => some (.unavailable, [.u8 2, .u8 m])
  | none, some slot, _ => some (.duplicate, [.u8 slot])
  | none, none, some pos => some (.duplicate, [.u8 pos])
  | none, none, none => if slotTaken d s = none ∧ 8 ≤ s.route.store.length then some (.full, []) else none

/-- The state in which a point is detected in a position. -/
def detectedIn (pos : Position) : PointState := if pos = .normal then .normal else .reverse

/-- R38, R40, R41, R43, R64: a point that a request takes for a slot: locked, and where it is not detected in its position
commanded there; with the cause of its POINT_STATE notice where it is turned round or thrown. -/
def takenPoint (slot : Nat) (pos : Position) (r : PointRec) (s : State) : PointRec × Option PointCause :=
  let locked : PointRec := { r with lock := some slot, commanded := some pos }
  let driven : PointRec := { locked with drive := some pos, throwTimer := some (r.throwLimit * 1000) }
  if r.state = detectedIn pos then (locked, none)
  else if r.state = .moving then if r.drive = some pos then (locked, none) else (driven, some .reversal)
  else if s.isFree r.sect then ({ driven with state := .moving }, some .throwStart)
  else (locked, none)

/-- R40, R52, R67: what taking a point sends: the report of a throw that starts, or the reply that the command is withheld. -/
def takenPointClaims (slot : Nat) (s : State) (p : Nat × Position) : List Instr :=
  match Tbl.find p.1 s.points with
  | none => []
  | some r =>
    if r.state = detectedIn p.2 ∨ r.state = .moving then []
    else if s.isFree r.sect then [.pointStateReport ⟨p.1, r.state, .moving, r.reading, .throwStart⟩]
    else [.withheldReply slot p.1]

/-- R52: the POINT_STATE notice of a point that is turned round or thrown as it is taken. -/
def takenPointNotice (slot : Nat) (before : State) (s : State) (p : Nat × Position) : State :=
  match (Tbl.find p.1 before.points).map (fun r => takenPoint slot p.2 r before) with
  | some (x, some cause) => pointNotice p.1 x cause s
  | _ => s

/-- R64, R66: the entry of a request taken into the table: in PROCEED where every point was detected in its position. -/
def takenEntry (route : Nat) (owner : Owner) (purpose : Purpose) (tram : Option Nat) (d : RouteDef) (s : State) : RouteEntry :=
  ⟨route, d.kind, owner, if d.points.all (fun p => s.detected p.1 p.2) then .proceed else .setting, tram, 0, 0,
    ⟨false, false, false⟩, [], [], none, purpose⟩

/-- R63, R64: a request is in the table: its sections reserved, its points locked and commanded, and its entry in the slot. -/
def InTable (slot : Nat) (e : RouteEntry) (d : RouteDef) (s t : State) : Prop :=
  (∀ m, Tbl.find m t.sections = (Tbl.find m s.sections).map (fun r =>
    if m ∈ d.sections then { r with reservedBy := some slot } else r)) ∧
  (∀ p ∈ d.points, ∃ r, Tbl.find p.1 s.points = some r ∧ Tbl.find p.1 t.points = some (takenPoint slot p.2 r s).1) ∧
  (∀ m, m ∉ routePoints d → Tbl.find m t.points = Tbl.find m s.points) ∧
  Put slot e s.route.table t.route.table ∧ t.route.store = s.route.store ∧ t.route.halt = s.route.halt

/-- R40, R64, R66, R76: what a taking into the table sends: for its points, in their order, and the event PROCEED where it goes on to
PROCEED. -/
def takingClaims (slot : Nat) (e : RouteEntry) (d : RouteDef) (s : State) : List Instr :=
  d.points.flatMap (takenPointClaims slot s) ++
    (if e.state = .proceed then eventClaims s (entryEvent slot e .proceed) else [])

/-- R52, R64, R66, R79: the notices of a taking into the table: POINT_STATE of the points turned round or thrown, ROUTE_STATE of state
SETTING, and ROUTE_STATE of state PROCEED where it goes on to PROCEED; `before` and `t` are the states before and after. -/
def takingNotices (slot : Nat) (e : RouteEntry) (d : RouteDef) (before t : State) (s : State) : State :=
  let s := routeNotice slot e 1 (before.entryAspect e) (d.points.foldl (takenPointNotice slot before) s)
  if e.state = .proceed then routeNotice slot e 2 (t.entryAspect e) s else s

/-- R62–R66: a request that is not refused stands in the slot it takes, or at the young end of the store with its timer. -/
def Requested (route : Nat) (owner : Owner) (purpose : Purpose) (tram : Option Nat) (d : RouteDef) (s t : State) : Prop :=
  match slotTaken d s with
  | some slot => InTable slot (takenEntry route owner purpose tram d s) d s t
  | none => t.sections = s.sections ∧ t.points = s.points ∧ t.route = { s.route with
      store := s.route.store ++ [⟨route, owner, purpose, tram, s.param.storeLimit * 1000⟩] }

/-- R64–R66: what such a request sends. -/
def requestClaims (route : Nat) (owner : Owner) (purpose : Purpose) (tram : Option Nat) (d : RouteDef) (s : State) : List Instr :=
  match slotTaken d s with
  | some slot => takingClaims slot (takenEntry route owner purpose tram d s) d s
  | none => []

/-- R64–R66, R79: the notices of such a request: those of the taking, or ROUTE_STORED with the position. -/
def requestNotices (route : Nat) (owner : Owner) (purpose : Purpose) (tram : Option Nat) (d : RouteDef) (before t : State)
    (s : State) : State :=
  match slotTaken d before with
  | some slot => takingNotices slot (takenEntry route owner purpose tram d before) d before t s
  | none => s.post .route 1 ([.u8 route, .u8 owner.code] ++ purpose.fields ++ [.u8 (before.route.store.length + 1)])

/-- R63, R65: the slot or the store position that the answer to such a request gives. -/
def requestPlace (d : RouteDef) (s : State) : Nat := (slotTaken d s).getD (s.route.store.length + 1)

/-- R63, R65: ACCEPTED or STORED, with these results. -/
def requestAnswer (d : RouteDef) (results : List Field) (s : State) : Ans :=
  ⟨if (slotTaken d s).isSome then .accepted else .stored, none, results⟩

/-- R60, R61, R65: a ROUTE_SET that is not taken into the table: the refusals, in order, and the store. -/
def Obligations.RouteSetRefusedOrStored : Prop :=
  ∀ (q : Req) (n : Nat) (s : State), q.port = .desk → InRun q s →
    let busy (d : RouteDef) : Bool := !s.available d s.route.store || s.freeSlot.isNone
    let out : Option (Ans × Bool) :=
      match Tbl.find n s.desc.routes with
      | none => some (⟨.refused, some .badArgument, []⟩, false)
      | some d =>
        if d.kind ≠ .yard then some (⟨.refused, some .notPermitted, []⟩, false)
        else match s.unavailableObject d with
          | some (.sect m) => some (⟨.refused, some .unavailable, [.u8 1, .u8 m]⟩, false)
          | some (.point m) => some (⟨.refused, some .unavailable, [.u8 2, .u8 m]⟩, false)
          | none =>
            match s.route.table.find? (fun p => p.2.route = n), s.route.store.findIdx? (fun e => e.route = n) with
            | some p, _ => some (⟨.refused, some .duplicate, [.u8 p.1]⟩, false)
            | none, some i => some (⟨.refused, some .duplicate, [.u8 (i + 1)]⟩, false)
            | none, none =>
              if busy d then
                if s.route.store.length < 8 then some (⟨.stored, none, [.u8 (s.route.store.length + 1)]⟩, true)
                else some (⟨.refused, some .full, []⟩, false)
              else none
    ∀ (a : Ans) (stored : Bool), out = some (a, stored) →
      ∃ u, exec (.routeSet q n) s = .next u.settle ∧
        Effect [.routes] (s.claims.erase (.routeSet q n))
          (fun s => if stored then s.post .route 1 [.u8 n, .u8 1, .u8 0, .u8 (s.route.store.length + 1)] else s)
          (some (.routeSet, q, a)) s u ∧
        u.route = { s.route with store := s.route.store ++
          (if stored then [⟨n, .desk, .none, none, s.param.storeLimit * 1000⟩] else []) }

/-- R62–R64, R66, R79: an available ROUTE_SET takes the lowest empty slot: sections reserved, points locked and commanded, entry
created; it stands in PROCEED where every point is in position. -/
def Obligations.AvailableRouteTakesASlot : Prop :=
  ∀ (q : Req) (n slot : Nat) (d : RouteDef) (s : State), q.port = .desk → InRun q s →
    Tbl.find n s.desc.routes = some d → d.kind = .yard → (routePoints d).Nodup →
    s.unavailableObject d = none → s.slotOf n = none → s.storePosition n = none →
    s.available d s.route.store = true → s.freeSlot = some slot →
    let standing : Bool := d.points.all (fun p => s.detected p.1 p.2)
    let e : RouteEntry := { route := n, kind := .yard, owner := .desk, state := if standing then .proceed else .setting, tram := none,
                            front := 0, released := 0, causes := ⟨false, false, false⟩, irregular := [], withheld := [],
                            timer := none, purpose := .none }
    ∃ u, exec (.routeSet q n) s = .next u.settle ∧
      Effect [.sections, .points, .routes] (s.claims.erase (.routeSet q n) ++ takingClaims slot e d s) (takingNotices slot e d s u)
        (some (.routeSet, q, ⟨.accepted, none, [.u8 slot]⟩)) s u ∧
      InTable slot e d s u

/-- R92–R95: what a cancellation makes of a table entry, by its state, and what it answers: the entry leaves the table and the store
is scanned; it goes to TIME_RELEASE; or nothing changes. -/
def EntryCancelled (before : List Instr) (slot : Nat) (e : RouteEntry) (d : RouteDef) (s t : State) (a : Ans) : Prop :=
  let near : Bool := d.approach.any (fun x => !s.isClear x)
  if e.state = .setting ∨ (e.state = .proceed ∧ near = false) then
    a = ⟨.done, none, []⟩ ∧
    ∃ m, EntryLeaves before slot e d .cancelled (cancelNotice (some slot) e.route e.owner e.purpose 1) s m ∧ t = m.scan
  else if e.state = .proceed then
    let x : RouteEntry := { e with state := .timeRelease, timer := some (s.param.timeRelease * 1000) }
    a = ⟨.accepted, none, [.u8 s.param.timeRelease]⟩ ∧
    Effect [.routes] before (routeNotice slot x 4 (t.entryAspect x)) none s t ∧
    Put slot x s.route.table t.route.table ∧ t.route.store = s.route.store ∧ t.route.halt = s.route.halt
  else
    a = (if e.state = .occupied then ⟨.refused, some .inUse, []⟩
      else if e.state = .degraded then
        ⟨.refused, some .wrongState, [.u8 ((if e.causes.pointLost then 1 else 0) + (if e.causes.irregular then 2 else 0) +
          (if e.causes.unexpected then 4 else 0))]⟩
      else ⟨.accepted, none, [(e.timer.map secondsLeft).getD (.u8 0)]⟩) ∧
    Effect [] before id none s t

/-- R91: whether a master may cancel a route of an owner: the desk any, the planner and the line their own. -/
def mayCancel (p : Port) (o : Owner) : Bool := p = .desk || (p = .planner && o = .planner) || (p = .line && o = .line)

/-- R91–R95: a ROUTE_CANCEL of a route that stands in the table, by its owner and the state of its entry. -/
def cancelByState : Prop :=
  ∀ (q : Req) (n slot : Nat) (e : RouteEntry) (d : RouteDef) (s : State), InRun q s →
    s.active n = some (slot, e) → Tbl.find slot s.route.table = some e → Tbl.find n s.desc.routes = some d → e.route = n →
    let left : List Instr := s.claims.erase (.routeCancel q n)
    (mayCancel q.port e.owner = false → ∃ u, exec (.routeCancel q n) s = .next u.settle ∧
      Effect [] left id (some (.routeCancel, q, ⟨.refused, some .notPermitted, []⟩)) s u) ∧
    (mayCancel q.port e.owner = true → ∃ t a u, exec (.routeCancel q n) s = .next u.settle ∧ EntryCancelled left slot e d s t a ∧
      Effect [] t.claims id (some (.routeCancel, q, a)) t u)

/-- R91, R92: a ROUTE_CANCEL of a route that is not in the table: its owner's check, and its removal from the store. -/
def cancelOfStoredRoute : Prop :=
  ∀ (q : Req) (n : Nat) (d : RouteDef) (s : State), InRun q s → Tbl.find n s.desc.routes = some d → s.active n = none →
    let left : List Instr := s.claims.erase (.routeCancel q n)
    let refused (why : Reason) (l : List Field) : Prop := ∃ u, exec (.routeCancel q n) s = .next u.settle ∧
      Effect [] left id (some (.routeCancel, q, ⟨.refused, some why, l⟩)) s u
    (s.stored n = none → refused .wrongState [.u8 0]) ∧
    (∀ e, s.stored n = some e → mayCancel q.port e.owner = false → refused .notPermitted []) ∧
    (∀ e, s.stored n = some e → mayCancel q.port e.owner = true →
      ∃ t, StoredLeaves left e d 1 s t ∧ ScansAndAnswers (.routeCancel q n) (some (.routeCancel, q, ⟨.done, none, []⟩)) s t)

/-- R91–R95: ROUTE_CANCEL of a route in the table, in the store, or nowhere. -/
def Obligations.RouteCancel : Prop := cancelByState ∧ cancelOfStoredRoute

/-- R99: ROUTE_RESUME from the desk: of a DEGRADED entry, and its refusal of any other route. -/
def resumeTestsTheCauses : Prop :=
  (∀ (q : Req) (n slot : Nat) (e : RouteEntry) (d : RouteDef) (s : State), q.port = .desk → InRun q s →
    s.active n = some (slot, e) → Tbl.find slot s.route.table = some e → Tbl.find n s.desc.routes = some d → e.route = n →
    e.state = .degraded →
    let stand : Bool := d.points.all (fun p =>
      (Tbl.find p.1 s.points).any (fun r => r.lock = some slot && r.state = (if p.2 = .normal then .normal else .reverse)))
    let ahead : List Nat := if e.front = 0 then d.sections else (d.sections.drop (e.front + 1)).filter (fun m => s.reservedBy m = some slot)
    let left : Causes := ⟨e.causes.pointLost && !stand, e.causes.irregular, e.causes.unexpected && !ahead.all s.isClear⟩
    let free : Bool := !left.pointLost && !left.irregular && !left.unexpected
    let x : RouteEntry := { e with
      causes := left
      state := if free then if e.front = 0 then .proceed else .occupied else .degraded }
    ∃ u, exec (.routeResume q n) s = .next u.settle ∧
      Effect [.routes]
        (s.claims.erase (.routeResume q n) ++ (if free ∧ e.front = 0 then eventClaims s (entryEvent slot e .proceed) else []))
        (fun s => if x = e then s else routeNotice slot x x.state.code (u.entryAspect x) s)
        (some (.routeResume, q, if free then ⟨.done, none, []⟩ else ⟨.refused, some .wrongState, [.u8 left.byte]⟩)) s u ∧
      Put slot x s.route.table u.route.table ∧ u.route.store = s.route.store ∧ u.route.halt = s.route.halt) ∧
  (∀ (q : Req) (n : Nat) (d : RouteDef) (s : State), q.port = .desk → InRun q s → Tbl.find n s.desc.routes = some d →
    (∀ slot e, s.active n = some (slot, e) → e.state ≠ .degraded) →
    ∃ u, exec (.routeResume q n) s = .next u.settle ∧
      Effect [] (s.claims.erase (.routeResume q n)) id (some (.routeResume, q, ⟨.refused, some .wrongState, []⟩)) s u)

/-- R100: ROUTE_FORCE_RELEASE of a table entry, whatever its state, of a stored request, and of neither. -/
def forceReleaseEndsARoute : Prop :=
  ∀ (q : Req) (n : Nat) (d : RouteDef) (s : State), q.port = .desk → InRun q s → Tbl.find n s.desc.routes = some d →
    let left : List Instr := s.claims.erase (.routeForceRelease q n)
    let scans (t : State) : Prop :=
      ScansAndAnswers (.routeForceRelease q n) (some (.routeForceRelease, q, ⟨.done, none, []⟩)) s t
    (∀ slot e, s.active n = some (slot, e) → Tbl.find slot s.route.table = some e → e.route = n →
      ∃ t, EntryLeaves left slot e d (if e.front = 0 then .cancelled else .forceReleased)
        (cancelNotice (some slot) n e.owner e.purpose 3) s t ∧ scans t) ∧
    (∀ e, s.active n = none → s.stored n = some e → ∃ t, StoredLeaves left e d 3 s t ∧ scans t) ∧
    (s.active n = none → s.stored n = none → ∃ u, exec (.routeForceRelease q n) s = .next u.settle ∧
      Effect [] left id (some (.routeForceRelease, q, ⟨.refused, some .wrongState, [.u8 0]⟩)) s u)

/-- R99, R100: ROUTE_RESUME and ROUTE_FORCE_RELEASE. -/
def Obligations.ResumeAndForceRelease : Prop := resumeTestsTheCauses ∧ forceReleaseEndsARoute

/-- R75, R95: a store timer and a time-release timer run out; the store is scanned on what the removal leaves. -/
def Obligations.RouteTimersRunOut : Prop :=
  ∀ (s : State) (d : RouteDef),
    (∀ e : StoreEntry, s.stored e.route = some e → Tbl.find e.route s.desc.routes = some d →
      ∃ t, exec (.storeTimerExpiry e.route) s = .next t.scan.settle ∧
        Effect [.routes] (s.claims ++ eventClaims s ⟨.expired, none, e.route, d.kind, e.owner, e.purpose, e.tram⟩)
          (fun s => s.post .route 4 ([.u8 e.route, .u8 e.owner.code] ++ e.purpose.fields)) none s t ∧
        t.route = { s.route with store := s.route.store.filter (fun x => x.route ≠ e.route) }) ∧
    (∀ (slot : Nat) (e : RouteEntry), Tbl.find slot s.route.table = some e → e.state = .timeRelease →
      Tbl.find e.route s.desc.routes = some d →
      ∃ t, exec (.timeReleaseExpiry slot) s = .next t.scan.settle ∧
        EntryLeaves s.claims slot e d .cancelled (cancelNotice (some slot) e.route e.owner e.purpose 2) s t)

/-- R95, R97, R101: the notices of an entry that a claim degrades: ROUTE_STATE where it changes, then CANCEL_OVERTAKEN of a
cancellation that the claim drops (log entry 64, DESIGN CHOICE); claims ENTRY 1, UNEXPECTED 2, POINT_LOST 3. -/
def degradedNotices (slot : Nat) (e x : RouteEntry) (claim : Nat) (proceed : Bool) (s : State) : State :=
  if x = e then s
  else if e.state = .timeRelease then
    (routeNotice slot x 5 proceed s).post .route 6 [.u8 e.route, .u8 slot, .u8 e.owner.code, .u8 claim]
  else routeNotice slot x 5 proceed s

/-- R83–R86: an OCCUPY edge on path element i of an entry: entry, advance, or an occupation that the tram should not have made. -/
def tramAdvancesOnItsRoute : Prop :=
  ∀ (n slot i : Nat) (c : EdgeCause) (e : RouteEntry) (d : RouteDef) (s : State),
    s.elementAt n = some (slot, e, d, i) → Tbl.find slot s.route.table = some e →
    let entered : RouteEntry := { e with
      state := .occupied, front := 1, tram := match e.purpose with | .gateArrival _ f => some f | _ => e.tram }
    let worse : RouteEntry := { e with
      state := .degraded, causes := { e.causes with unexpected := true }, withheld := [], timer := none }
    let left : List Instr := s.claims.erase (.routeOccupyEdge n c)
    (e.front = 0 → i = 1 → e.state = .proceed → s.route.halt = false →
      ∃ u, exec (.routeOccupyEdge n c) s = .next u.settle ∧
        Effect [.routes] (left ++ eventClaims s (entryEvent slot entered .firstEntered))
          (routeNotice slot entered 3 (u.entryAspect entered)) none s u ∧
        Put slot entered s.route.table u.route.table ∧ u.route.store = s.route.store ∧ u.route.halt = s.route.halt) ∧
    (1 ≤ e.front → i = e.front + 1 →
      ∃ u, exec (.routeOccupyEdge n c) s = .next u.settle ∧
        Effect [.routes] left (routeNotice slot { e with front := i } e.state.code (u.entryAspect e)) none s u ∧
        Put slot { e with front := i } s.route.table u.route.table ∧ u.route.store = s.route.store ∧ u.route.halt = s.route.halt) ∧
    (e.front = 0 → 2 ≤ i → e.state = .setting →
      ∃ u, exec (.routeOccupyEdge n c) s = .next u.settle ∧
        Effect [] (left ++ [.alarmRaise (.unroutedOccupancy n)]) id none s u) ∧
    ((e.front = 0 ∧ 2 ≤ i ∧ e.state ≠ .setting) ∨ (1 ≤ e.front ∧ (e.front + 1 < i ∨ (i ≤ e.front ∧ e.irregular.contains i = true))) →
      ∃ u, exec (.routeOccupyEdge n c) s = .next u.settle ∧
        Effect [.routes] (left ++ [.alarmRaise (.unroutedOccupancy n)]) (degradedNotices slot e worse 2 (u.entryAspect worse)) none
          s u ∧
        Put slot worse s.route.table u.route.table ∧ u.route.store = s.route.store ∧ u.route.halt = s.route.halt) ∧
    (1 ≤ i → i ≤ e.front → e.irregular.contains i = false →
      ∃ u, exec (.routeOccupyEdge n c) s = .next u.settle ∧ Effect [] left id none s u)

/-- R84: an entry whose origin signal has been passed at stop; `set` is whether its points were detected in their positions. -/
def passedEntry (set : Bool) (e : RouteEntry) : RouteEntry :=
  let entered : RouteEntry := { e with
    front := 1, tram := match e.purpose with | .gateArrival _ f => some f | _ => e.tram }
  let degraded (lost : Bool) : RouteEntry := { entered with
    state := .degraded, causes := ⟨e.causes.pointLost || lost, e.causes.irregular, true⟩, withheld := [], timer := none }
  if e.state = .degraded then degraded false
  else if e.state = .setting then if set then { entered with state := .occupied, withheld := [] } else degraded true
  else { entered with state := .occupied, timer := none }

/-- R84: a passage of the origin signal at stop; an entry that was in SETTING with its points set is degraded at once where a
section beyond the second is OCCUPIED. -/
def passageAtStop : Prop :=
  ∀ (n slot : Nat) (c : EdgeCause) (e : RouteEntry) (d : RouteDef) (s : State),
    s.elementAt n = some (slot, e, d, 1) → Tbl.find slot s.route.table = some e → e.front = 0 →
    e.state ≠ .proceed ∨ s.route.halt = true →
    let set : Bool := d.points.all (fun p => s.detected p.1 p.2)
    let astray : Bool := e.state = .setting && set && (d.sections.drop 2).any s.isOccupied
    let y : RouteEntry := passedEntry set e
    let x : RouteEntry := if astray then { y with state := .degraded, causes := { y.causes with unexpected := true }, timer := none }
      else y
    ∃ u, exec (.routeOccupyEdge n c) s = .next u.settle ∧
      Effect [.routes]
        (s.claims.erase (.routeOccupyEdge n c) ++ [.alarmRaise (.passedAtStop d.origin)] ++
          eventClaims s (entryEvent slot y .firstEntered))
        (fun s =>
          let s := routeNotice slot y y.state.code (u.entryAspect y) s
          let s := if e.state = .timeRelease then s.post .route 6 [.u8 e.route, .u8 slot, .u8 e.owner.code, .u8 1] else s
          if astray then routeNotice slot x 5 (u.entryAspect x) s else s) none s u ∧
      Put slot x s.route.table u.route.table ∧ u.route.store = s.route.store ∧ u.route.halt = s.route.halt

/-- R84–R86: OCCUPY edges on the path of a route, in order and past a signal at stop. -/
def Obligations.TramEntersAndAdvances : Prop := tramAdvancesOnItsRoute ∧ passageAtStop

/-- R67, R73: the taking of a CLEAR edge goes on from a state: the withheld commands of the section are renewed on it, and then the
store is scanned. -/
def ThenRenewsAndScans (n : Nat) (c : EdgeCause) (s t : State) : Prop :=
  exec (.routeClearEdge n c) s = .next ((t.renewWithheld n).scan).settle

/-- R87: the points given back with path element i: its own, and the flank points that protect it. -/
def pointsOfElement (d : RouteDef) (i : Nat) : List Nat :=
  ((d.path[i - 1]?).map (fun x => x.settings.map Setting.point)).getD [] ++
  (d.flank.filter (fun f => f.protects = i)).map Flank.point

/-- R87: path element i, of section n, is released: section and points given back, ELEMENT-RELEASED sent, the release index one
more. -/
def ElementReleased (before : List Instr) (n slot i : Nat) (e : RouteEntry) (d : RouteDef) (s t : State) : Prop :=
  let given : List Nat := pointsOfElement d i
  Effect [.sections, .points, .routes] (before ++ unlockEnds slot given s ++ eventClaims s (entryEvent slot e (.elementReleased i)))
    (routeNotice slot { e with released := e.released + 1 } e.state.code (t.entryAspect e)) none s t ∧
  SectionsFreed slot [n] s t ∧ PointsFreed slot given s t ∧
  Put slot { e with released := e.released + 1 } s.route.table t.route.table ∧ t.route.store = s.route.store ∧
  t.route.halt = s.route.halt

/-- R88: an irregular clearance of path element i, of section n: the entry is DEGRADED with cause IRREGULAR and the element among
its irregular ones, and the alarm is raised (one ROUTE_STATE notice: log entry 26). -/
def ClearedIrregularly (before : List Instr) (n slot i : Nat) (e : RouteEntry) (s t : State) : Prop :=
  let x : RouteEntry := { e with
    state := .degraded, causes := { e.causes with irregular := true }, irregular := insertNum i e.irregular
    withheld := [], timer := none }
  Effect [.routes] (before ++ [.alarmRaise (.irregularClearance e.route n)]) (routeNotice slot x 5 (t.entryAspect x)) none s t ∧
  Put slot x s.route.table t.route.table ∧ t.route.store = s.route.store ∧ t.route.halt = s.route.halt

/-- R87, R88: a CLEAR edge behind the tram on an element before the last: release where the next section is OCCUPIED, else an
irregular clearance. -/
def clearanceBehindTheFront : Prop :=
  ∀ (n slot i : Nat) (c : EdgeCause) (e : RouteEntry) (d : RouteDef) (s : State),
    s.elementAt n = some (slot, e, d, i) → Tbl.find slot s.route.table = some e → i ≤ e.front → e.irregular.contains i = false →
    i < d.path.length →
    let left : List Instr := s.claims.erase (.routeClearEdge n c)
    ((d.sections[i]?).any s.isOccupied = true →
      ∃ t, ElementReleased left n slot i e d s t ∧ ThenRenewsAndScans n c s t) ∧
    ((d.sections[i]?).any s.isOccupied = false →
      ∃ t, ClearedIrregularly left n slot i e s t ∧ ThenRenewsAndScans n c s t)

/-- Whether a route's destination allows its completion (R89): there is none to test, or it is OCCUPIED. -/
def atItsDestination (d : RouteDef) (s : State) : Bool :=
  match d.destination with
  | some x => d.kind = .departure || s.isOccupied x
  | none => d.kind = .departure || d.kind = .yard

/-- R87–R90: a CLEAR edge on the last element: completion, the release of the element where an irregular clearance stands, or an
irregular clearance where the tram is not at its destination. -/
def clearanceOfTheLastElement : Prop :=
  ∀ (n slot i : Nat) (c : EdgeCause) (e : RouteEntry) (d : RouteDef) (s : State),
    s.elementAt n = some (slot, e, d, i) → Tbl.find slot s.route.table = some e → i ≤ e.front → e.irregular.contains i = false →
    i = d.path.length →
    let left : List Instr := s.claims.erase (.routeClearEdge n c)
    (atItsDestination d s = true → e.causes.irregular = false →
      ∃ t, EntryLeaves left slot e d .complete id s t ∧ ThenRenewsAndScans n c s t) ∧
    (atItsDestination d s = true → e.causes.irregular = true →
      ∃ t, ElementReleased left n slot i e d s t ∧ ThenRenewsAndScans n c s t) ∧
    (atItsDestination d s = false →
      ∃ t, ClearedIrregularly left n slot i e s t ∧ ThenRenewsAndScans n c s t)

/-- R66: every path and flank point of a route is locked to the slot and detected in its required position, and every
path section is confirmed CLEAR. -/
def standsClear (slot : Nat) (d : RouteDef) (s : State) : Bool :=
  d.points.all (fun p =>
    (Tbl.find p.1 s.points).any (fun r => r.lock = some slot && r.state = (if p.2 = .normal then .normal else .reverse))) &&
  d.sections.all s.isClear

/-- R66: what the test of an entry leaves: in SETTING, with its points standing and its path clear, it goes to PROCEED with its
event and notice; otherwise nothing happens. -/
def ProceedTested (claims : List Instr) (slot : Nat) (e : RouteEntry) (d : RouteDef) (s t : State) : Prop :=
  let goes : Bool := e.state = .setting && standsClear slot d s
  let x : RouteEntry := { e with state := .proceed, withheld := [] }
  Effect [.routes] (claims ++ (if goes then eventClaims s (entryEvent slot e .proceed) else []))
    (fun s => if goes then routeNotice slot x 2 (t.entryAspect x) s else s) none s t ∧
  Put slot (if goes then x else e) s.route.table t.route.table ∧ t.route.store = s.route.store ∧ t.route.halt = s.route.halt

/-- R66, R88: a CLEAR edge in front of the tram tests the entry; one on an irregular element changes nothing by itself. -/
def clearanceAheadOfTheTram : Prop :=
  ∀ (n slot i : Nat) (c : EdgeCause) (e : RouteEntry) (d : RouteDef) (s : State),
    s.elementAt n = some (slot, e, d, i) → Tbl.find slot s.route.table = some e →
    (e.front < i → ∃ t, ProceedTested (s.claims.erase (.routeClearEdge n c)) slot e d s t ∧ ThenRenewsAndScans n c s t) ∧
    (i ≤ e.front → e.irregular.contains i = true → ThenRenewsAndScans n c s (s.take (.routeClearEdge n c)))

/-- R66, R67, R73, R87–R90: CLEAR edges on the path of a route, behind the tram's front and ahead of it; the withheld commands are
then renewed (`withheldCommandsAreRenewed`) and the store is scanned (`storeScan`). -/
def Obligations.ClearanceBehindTheTram : Prop :=
  clearanceBehindTheFront ∧ clearanceOfTheLastElement ∧ clearanceAheadOfTheTram

/-- R66, R69, R70, R73, R97: a report on a point locked to an entry: a failed throw removes an entry in SETTING, and the store is
scanned; a lost detection degrades the entry. -/
def pointReportsOnAnEntry : Prop :=
  ∀ (rep : PointReport) (slot : Nat) (r : PointRec) (e : RouteEntry) (d : RouteDef) (s : State),
    Tbl.find rep.point s.points = some r → r.lock = some slot → Tbl.find slot s.route.table = some e →
    Tbl.find e.route s.desc.routes = some d →
    let left : List Instr := s.claims.erase (.pointStateReport rep)
    let worse : RouteEntry := { e with
      state := .degraded, causes := { e.causes with pointLost := true }, withheld := [], timer := none }
    (rep.new = .failed → e.state = .setting →
      ∃ t, exec (.pointStateReport rep) s = .next t.scan.settle ∧
        EntryLeaves left slot e d (.failed (.point rep.point))
          (fun s => s.post .route 3 ([.u8 e.route, .u8 slot, .u8 e.owner.code] ++ e.purpose.fields ++
            [.u8 1, .u8 2, .u8 rep.point])) s t) ∧
    (rep.new ≠ .failed → rep.cause = .detection → rep.old = .normal ∨ rep.old = .reverse →
      ∃ u, exec (.pointStateReport rep) s = .next u.settle ∧
        Effect [.routes] left (degradedNotices slot e worse 3 (u.entryAspect worse)) none s u ∧
        Put slot worse s.route.table u.route.table ∧ u.route.store = s.route.store ∧ u.route.halt = s.route.halt)

/-- R28, R67: the set of a force flag is no occasion for a scan; a withheld command is remembered while its section is not
free, by the entry that holds the slot when the reply is taken (log entry 71, DESIGN CHOICE). -/
def forceReportsAndWithheldCommands : Prop :=
  ∀ (n slot : Nat) (s : State),
    (exec (.forceFlagReport n true) s = .next (s.take (.forceFlagReport n true)).settle) ∧
    (s.route.store = [] → exec (.forceFlagReport n false) s = .next (s.take (.forceFlagReport n false)).settle) ∧
    (∀ (e : RouteEntry) (r : PointRec), Tbl.find slot s.route.table = some e → Tbl.find n s.points = some r →
      e.state = .setting → r.lock = some slot → s.isFree r.sect = false →
      ∃ u, exec (.withheldReply slot n) s = .next u.settle ∧
        Effect [.routes] (s.claims.erase (.withheldReply slot n)) id none s u ∧
        Put slot { e with withheld := insertNum n e.withheld } s.route.table u.route.table ∧ u.route.store = s.route.store)

/-- R66, R69, R73, R97: the other reports on a point: a failed throw degrades a DEGRADED entry further and changes no other but one
in SETTING; a report of no failure and no loss tests the entry for PROCEED; one that takes the point out of FAILED or
OUT_OF_SERVICE, whether or not an entry has locked it, then has the store scanned. -/
def otherReportsOnAnEntry : Prop :=
  ∀ (rep : PointReport) (s : State),
    let left : List Instr := s.claims.erase (.pointStateReport rep)
    let goesOn (t : State) : Prop :=
      exec (.pointStateReport rep) s =
        .next (if rep.old = .failed ∨ rep.old = .outOfService then t.scan else t).settle
    (((Tbl.find rep.point s.points).bind PointRec.lock).all (fun slot => (Tbl.find slot s.route.table).isNone) = true →
      goesOn (s.take (.pointStateReport rep))) ∧
    ∀ (slot : Nat) (r : PointRec) (e : RouteEntry) (d : RouteDef),
      Tbl.find rep.point s.points = some r → r.lock = some slot → Tbl.find slot s.route.table = some e →
      Tbl.find e.route s.desc.routes = some d →
      let worse : RouteEntry := { e with causes := { e.causes with pointLost := true }, withheld := [], timer := none }
      (rep.new = .failed → e.state = .degraded →
        ∃ t, goesOn t ∧ Effect [.routes] left (degradedNotices slot e worse 3 (t.entryAspect worse)) none s t ∧
          Put slot worse s.route.table t.route.table ∧ t.route.store = s.route.store ∧ t.route.halt = s.route.halt) ∧
      (rep.new = .failed → e.state ∉ [.setting, .degraded] → goesOn (s.take (.pointStateReport rep))) ∧
      (rep.new ≠ .failed → ¬ (rep.cause = .detection ∧ (rep.old = .normal ∨ rep.old = .reverse)) →
        ∃ t, goesOn t ∧ ProceedTested left slot e d s t)

/-- R40: what a command claim does to a point locked to the commanding slot, in each state of the point. -/
def commandClaim : Prop :=
  ∀ (n slot : Nat) (pos : Position) (s : State) (r : PointRec), Tbl.find n s.points = some r →
    let target : PointState := if pos = .normal then .normal else .reverse
    let commanded : PointRec := { r with commanded := some pos }
    let thrown : PointRec := { commanded with drive := some pos, throwTimer := some (r.throwLimit * 1000) }
    let started : PointRec := { thrown with state := .moving }
    let free : Bool := s.isClear r.sect && !s.isForced r.sect
    let does (x : PointRec) (claims : List Instr) (posts : State → State) : Prop :=
      let u := s.commandPoint n slot pos
      Effect [.points] (s.claims ++ claims) posts none s u ∧ Put n x s.points u.points
    if r.lock ≠ some slot ∨ r.state = .failed ∨ r.state = .outOfService then s.commandPoint n slot pos = s
    else if r.state = .moving then
      if r.drive = some pos then s.commandPoint n slot pos = s else does thrown [] (pointNotice n thrown .reversal)
    else if r.state = target then does commanded [] id
    else if free then does started [.pointStateReport ⟨n, r.state, .moving, r.reading, .throwStart⟩] (pointNotice n started .throwStart)
    else does commanded [.withheldReply slot n] id

/-- R67, R73: a CLEAR edge of a section on no entry's path, and every other CLEAR edge on the state that it leaves
(`ThenRenewsAndScans`), renews the withheld commands of every entry in SETTING on the points in that section, which leave the withheld
points; slot by rising slot, path points before flank points, which is the model's choice (log entry 66). A reply to a withheld command
whose section is free by then renews it at once (log entry 18). -/
def withheldCommandsAreRenewed : Prop :=
  (∀ (n : Nat) (c : EdgeCause) (s : State),
    (s.elementAt n = none → ThenRenewsAndScans n c s (s.take (.routeClearEdge n c))) ∧
    s.renewWithheld n = (Tbl.keys s.route.table).foldl (State.renewEntry n) s) ∧
  (∀ (n slot : Nat) (e : RouteEntry) (d : RouteDef) (s : State),
    Tbl.find slot s.route.table = some e → Tbl.find e.route s.desc.routes = some d →
    let inSection (m : Nat) : Bool := (Tbl.find m s.points).any (fun r => r.sect = n)
    (e.state ≠ .setting → s.renewEntry n slot = s) ∧
    (e.state = .setting →
      ∃ t, Effect [.routes] s.claims id none s t ∧ t.route.store = s.route.store ∧ t.route.halt = s.route.halt ∧
        Put slot { e with withheld := e.withheld.filter (fun m => !inSection m) } s.route.table t.route.table ∧
        s.renewEntry n slot = (d.points.filter (fun p => e.withheld.contains p.1 && inSection p.1)).foldl
          (fun t p => if t.detected p.1 p.2 then t else t.commandPoint p.1 slot p.2) t)) ∧
  (∀ (n slot : Nat) (e : RouteEntry) (r : PointRec) (s : State), Tbl.find slot s.route.table = some e →
    Tbl.find n s.points = some r →
    (e.state = .setting → r.lock = some slot → s.isFree r.sect = true →
      ∃ t, exec (.withheldReply slot n) s = .next (State.renewEntry r.sect t slot).settle ∧
        Effect [.routes] (s.claims.erase (.withheldReply slot n)) id none s t ∧
        Put slot { e with withheld := insertNum n e.withheld } s.route.table t.route.table ∧ t.route.store = s.route.store) ∧
    (¬ (e.state = .setting ∧ r.lock = some slot) →
      exec (.withheldReply slot n) s = .next (s.take (.withheldReply slot n)).settle))

/-- R60, R62, R63: when a request is unavailable and by which object, the first of those that R60 examines in order; when it is
available; and which slot it takes. -/
def requestTests : Prop :=
  ∀ (d : RouteDef) (older : List StoreEntry) (s : State),
    let examined : List YardObject :=
      d.path.flatMap (fun e => .sect e.sect :: e.settings.map (fun x => .point x.point)) ++ d.flank.map (fun f => .point f.point)
    let bars (o : YardObject) : Bool := match o with | .sect m => s.isForced m | .point m => s.pointState m = some .outOfService
    (match s.unavailableObject d with
      | some o => bars o = true ∧ ∃ before after, examined = before ++ o :: after ∧ ∀ x ∈ before, bars x = false
      | none => ∀ x ∈ examined, bars x = false) ∧
    (match s.unavailableObject d with
      | some (.sect m) => m ∈ d.sections ∧ s.isForced m = true
      | some (.point m) => m ∈ routePoints d ∧ s.outOfService m = true
      | none => (∀ m ∈ d.sections, s.isForced m = false) ∧ ∀ m ∈ routePoints d, s.outOfService m = false) ∧
    (s.available d older = true ↔
      (∀ m ∈ d.sections, s.reservedBy m = none ∧ s.isClear m = true) ∧
      (∀ m ∈ routePoints d, ∃ r, Tbl.find m s.points = some r ∧ r.lock = none ∧ r.state ≠ .failed) ∧
      ∀ e ∈ older, ∀ o, Tbl.find e.route s.desc.routes = some o →
        (∀ m ∈ d.sections, m ∉ o.sections) ∧ ∀ m ∈ routePoints d, m ∉ routePoints o) ∧
    (match s.freeSlot with
      | some k => 1 ≤ k ∧ k ≤ 16 ∧ Tbl.find k s.route.table = none ∧ ∀ j, 1 ≤ j → j < k → (Tbl.find j s.route.table).isSome
      | none => ∀ j, 1 ≤ j → j ≤ 16 → (Tbl.find j s.route.table).isSome)

/-- R73, R74: the report of a cleared force flag makes a scan; a scan decides the stored entries from the oldest to the youngest,
each on the state that the decisions before it left; an unavailable entry fails, an available one is taken into the lowest empty
slot, any other stays in its place. -/
def storeScan : Prop :=
  (∀ (n : Nat) (s : State), exec (.forceFlagReport n false) s = .next ((s.take (.forceFlagReport n false)).scan).settle ∧
    s.scan = State.scanFrom [] s.route.store s) ∧
  (∀ (kept : List StoreEntry) (s : State), State.scanFrom kept [] s = { s with route := { s.route with store := kept } }) ∧
  (∀ (kept rest : List StoreEntry) (e : StoreEntry) (s : State),
    let out := s.scanOne kept e
    State.scanFrom kept (e :: rest) s = State.scanFrom (if out.2 then kept ++ [e] else kept) rest out.1) ∧
  (∀ (kept : List StoreEntry) (e : StoreEntry) (d : RouteDef) (s : State), Tbl.find e.route s.desc.routes = some d →
    let out := s.scanOne kept e
    match s.unavailableObject d with
    | some o =>
      out.2 = false ∧
      Effect [] (s.claims ++ eventClaims s ⟨.failed (.unavailable o), none, e.route, d.kind, e.owner, e.purpose, e.tram⟩)
        (fun s => s.post .route 3 ([.u8 e.route, .u8 0, .u8 e.owner.code] ++ e.purpose.fields ++ [.u8 4] ++ (match o with
          | .sect m => [.u8 1, .u8 m] | .point m => [.u8 2, .u8 m]))) none s out.1
    | none =>
      match s.available d kept, s.freeSlot with
      | true, some slot =>
        (routePoints d).Nodup →
        let x : RouteEntry := takenEntry e.route e.owner e.purpose e.tram d s
        out.2 = false ∧ InTable slot x d s out.1 ∧
        Effect [.sections, .points, .routes] (s.claims ++ takingClaims slot x d s) (takingNotices slot x d s out.1) none s out.1
      | _, _ => out = (s, true))

/-- Reports of the point controller and of the occupancy monitor, withheld commands, and the store scan that a report makes, at
the route setter. -/
def Obligations.PointAndForceReports : Prop :=
  pointReportsOnAnEntry ∧ forceReportsAndWithheldCommands ∧ otherReportsOnAnEntry ∧ commandClaim ∧ withheldCommandsAreRenewed ∧
  requestTests ∧ storeScan

/-- R71, R72, R79: the route setter takes the halt flag; every route signal follows the law on signals; a change of the flag posts a
ROUTE_STATE notice with the new aspect for each entry in PROCEED whose points stand, at the set as at the release (log entry 69, DESIGN
CHOICE), by rising slot (log entry 65, DESIGN CHOICE). -/
def haltStopsTheSignals : Prop :=
  ∀ (v : Bool) (s : State),
    let stands (p : Nat × RouteEntry) : Bool := p.2.state = .proceed && (s.routeDef p.2.route).any (fun d => d.points.all (fun x =>
      (Tbl.find x.1 s.points).any (fun r => r.lock = some p.1 && r.state = detectedIn x.2)))
    ∃ u, exec (.routeHaltReport v) s = .next u.settle ∧
      KeepsAllBut [.routes] s u ∧ Answered none s u ∧ u.claims = s.claims.erase (.routeHaltReport v) ∧
      (Tbl.wf s.route.table → Notes (fun t => if s.route.halt = v then t
        else (s.route.table.filter stands).foldl (fun t p => routeNotice p.1 p.2 2 (!v) t) t) s u) ∧
      u.route = { s.route with halt := v } ∧
      ∀ n, n ∈ u.settle.route.proceed ↔ (1 ≤ n ∧ n ≤ 48 ∧ v = false ∧
        ∃ p ∈ s.route.table, p.2.state = .proceed ∧ ∃ d, s.routeDef p.2.route = some d ∧ d.origin = n ∧
          ∀ x ∈ d.points, ∃ r, Tbl.find x.1 s.points = some r ∧ r.lock = some p.1 ∧
            r.state = (if x.2 = .normal then .normal else .reverse))

/-- R39, R47, R81, R190: a restart at the route setter: nothing reserved, nothing in the table or the store, every point locked to
an entry of its own route unlocked, with the end of its standing loss condition; no event and no notice. -/
def routeRestartEmptiesTheTable : Prop :=
  ∀ s : State,
    let pointsOf (e : RouteEntry) : List Nat := ((s.routeDef e.route).map routePoints).getD []
    let ends : List Instr := (s.route.table.flatMap (fun p => unlockEnds p.1 (pointsOf p.2) s)).eraseDups
    ∃ u, exec .routeRestart s = .next u.settle ∧
      Effect [.sections, .points, .routes] (s.claims.erase .routeRestart ++ ends ++ [.restartTakenReport .route]) id none s u ∧
      u.route = { s.route with table := [], store := [] } ∧
      (∀ m, Tbl.find m u.sections = (Tbl.find m s.sections).map (fun r => { r with reservedBy := none })) ∧
      (∀ m, Tbl.find m u.points = (Tbl.find m s.points).map (fun r =>
        if s.route.table.any (fun p => r.lock = some p.1 && (pointsOf p.2).contains m) then
          { r with lock := none, lossCondition := false }
        else r))

/-- R72, R81: a report of the halt flag, and a restart, at the route setter. -/
def Obligations.RouteHaltAndRestart : Prop := haltStopsTheSignals ∧ routeRestartEmptiesTheTable

/-! ## Gate controllers (06) -/

/-- A gate's records of number g: its definition, and its state. -/
def GateAt (g : Nat) (d : GateDef) (x : Gate) (s : State) : Prop :=
  Tbl.find g s.desc.gates = some d ∧ Tbl.find g s.gates = some x

/-- The eight bytes that follow 0x5A in a reader frame (09 section 9.7). -/
structure TagBytes where
  flags : Byte
  fleetHigh : Byte
  fleetLow : Byte
  length : Byte
  mandatory : Byte
  wanted : Byte
  crcHigh : Byte
  crcLow : Byte

/-- The bytes in the order of the link. -/
def TagBytes.bytes (b : TagBytes) : List Byte :=
  [b.flags, b.fleetHigh, b.fleetLow, b.length, b.mandatory, b.wanted, b.crcHigh, b.crcLow]

/-- The fleet number of a reader frame. -/
def TagBytes.fleet (b : TagBytes) : Nat := b.fleetHigh.toNat * 256 + b.fleetLow.toNat

/-- R104: a valid frame of a side (bit 1 of the flags clear inbound, set outbound). -/
def TagBytes.valid (outbound : Bool) (b : TagBytes) : Prop :=
  crc16 [b.flags, b.fleetHigh, b.fleetLow, b.length, b.mandatory, b.wanted] = b.crcHigh ++ b.crcLow ∧
  b.flags.getLsbD 1 = outbound ∧ 1 ≤ b.fleet ∧ b.fleet ≤ 4095 ∧ 10 ≤ b.length.toNat ∧ b.length.toNat ≤ 80

/-- The frame that the bytes carry. -/
def TagBytes.frame (b : TagBytes) : ReaderFrame :=
  ⟨b.flags.getLsbD 0, b.fleet, b.length.toNat,
   ⟨b.mandatory.getLsbD 0, b.mandatory.getLsbD 1, b.mandatory.getLsbD 2, b.mandatory.getLsbD 3⟩,
   ⟨b.wanted.getLsbD 0, b.wanted.getLsbD 1, b.wanted.getLsbD 2, b.wanted.getLsbD 3⟩⟩

/-- R105, R108: a record as a frame fills it: the fleet where the number is free in the depot, or else the number claimed, with
mark CONFLICT. -/
def readRecord (s : State) (f : ReaderFrame) (a : Arrival) : Arrival :=
  let here : Bool := (s.findTram f.fleet).isSome || s.gates.any (fun p => p.2.queue.any (fun a => a.fleet = some f.fleet))
  { a with
    fleet := if here then none else some f.fleet, claimed := if here then some f.fleet else none
    length := some f.length, mandatory := some f.mandatory, wanted := some f.wanted
    mark := if here then .conflict else .none, readTime := s.minute }

/-- A WAITING record with nothing known. -/
def blankRecord : Arrival :=
  { fleet := none, claimed := none, length := none, mandatory := none, wanted := none, mark := .unread, state := .waiting
    siding := none, slot := none, paused := false, readTime := none, isWindow := false }

/-- R117: the held reasons of the queue after it has become this one, by a record joining it or otherwise. -/
def heldAfter (highMark : Nat) (joined : Bool) (h : Held) (queue : List Arrival) : Held :=
  { h with
    unresolved := queue.any (fun a => a.mark ≠ .none)
    queueHigh := !queue.isEmpty && (h.queueHigh || (joined && decide (highMark ≤ queue.length))) }

/-- The ARRIVAL_QUEUE notice of a record at a position (R123). -/
def queueNotice (g pos : Nat) (a : Arrival) (cause : List Field) (s : State) : State :=
  s.post .gate 1 (.u8 g :: arrivalFields pos a ++ cause)

/-- A taking that goes on to head processing on an occasion (R114). -/
def headIf (occasion : Bool) (g : Nat) (t : State) : State := if occasion then t.processHead g else t

/-- R104, R108, R110: an inbound frame that makes no record: not valid, early, repeated, or a second or late one in a pass. -/
def inboundFrameWithoutARecord : Prop :=
  ∀ (g : Nat) (b : TagBytes) (d : GateDef) (x : Gate) (s : State), GateAt g d x s → x.rxIn = none →
    (¬ b.valid false →
      ∃ u, exec (.inboundFrame g (0x5A :: b.bytes)) s = .next u.settle ∧ Effect [.gates] s.claims id none s u ∧
        Put g x s.gates u.gates) ∧
    (b.valid false → x.window ∉ [.wait, .untimed, .unread] ∨ x.inToggle = some b.frame.toggle →
      let early : Bool := x.window = .closed
      let anew : Bool := !early && decide (x.inToggle ≠ some b.frame.toggle)
      ∃ u, exec (.inboundFrame g (0x5A :: b.bytes)) s = .next u.settle ∧
        Effect [.gates, .sections] s.claims id none s u ∧
        Put g { x with
          early := if early ∧ x.early = none then some ⟨b.frame, s.param.readerWait * 1000⟩ else x.early
          inToggle := if anew then some b.frame.toggle else x.inToggle } s.gates u.gates ∧
        ∀ m, Tbl.find m u.sections = (Tbl.find m s.sections).map (fun r =>
          if m = d.reader ∧ anew ∧ x.window = .read then { r with noise := true } else r))

/-- R105, R107, R108, R111, R117: a first frame in an open window behind at least one record: a record at the tail, or an
overrun. -/
def inboundFrameMakesARecord : Prop :=
  ∀ (g : Nat) (b : TagBytes) (d : GateDef) (x : Gate) (s : State), GateAt g d x s → x.rxIn = none →
    b.valid false → (x.window = .wait ∨ x.window = .untimed) → x.inToggle ≠ some b.frame.toggle →
    (x.queue.length = 4 →
      ∃ u, exec (.inboundFrame g (0x5A :: b.bytes)) s = .next u.settle ∧
        Effect [.gates] (s.claims ++ [.alarmRaise (.gateOverrun g)]) id none s u ∧
        Put g { x with inToggle := some b.frame.toggle, window := .overrun, waitTimer := none
                       held := { x.held with overrun := true } } s.gates u.gates) ∧
    (1 ≤ x.queue.length → x.queue.length < 4 →
      let here : Bool := (s.findTram b.fleet).isSome || s.gates.any (fun p => p.2.queue.any (fun a => a.fleet = some b.fleet))
      let a : Arrival :=
        { fleet := if here then none else some b.fleet, claimed := if here then some b.fleet else none
          length := some b.length.toNat, mandatory := some b.frame.mandatory, wanted := some b.frame.wanted
          mark := if here then .conflict else .none, state := .waiting, siding := none, slot := none, paused := false
          readTime := s.minute, isWindow := false }
      ∃ u, exec (.inboundFrame g (0x5A :: b.bytes)) s = .next u.settle ∧
        Effect [.gates] s.claims (fun s => s.post .gate 1 (.u8 g :: arrivalFields (x.queue.length + 1) a ++ [.u8 1])) none s u ∧
        Put g { x with
          inToggle := some b.frame.toggle, window := .read, waitTimer := none, queue := x.queue ++ [a]
          held := { x.held with
            unresolved := (x.queue ++ [a]).any (fun y => y.mark ≠ .none)
            queueHigh := x.held.queueHigh || decide (s.param.queueHighMark ≤ x.queue.length + 1) } } s.gates u.gates)

/-- R105, R108, R111, R114: a first frame in an open window with an empty queue makes a new head, which is processed; a late
frame fills the window record that still stands UNREAD, and processes it where it is the head. -/
def inboundFrameAtTheHead : Prop :=
  ∀ (g : Nat) (b : TagBytes) (d : GateDef) (x : Gate) (s : State), GateAt g d x s → x.rxIn = none →
    b.valid false → x.inToggle ≠ some b.frame.toggle →
    let mark : Nat := s.param.queueHighMark
    (x.window = .wait ∨ x.window = .untimed → x.queue = [] →
      let a : Arrival := readRecord s b.frame blankRecord
      ∃ t, exec (.inboundFrame g (0x5A :: b.bytes)) s = .next (t.processHead g).settle ∧
        Effect [.gates] s.claims (queueNotice g 1 a [.u8 1]) none s t ∧
        Put g { x with
          inToggle := some b.frame.toggle, window := .read, waitTimer := none, placeNone := none, queue := [a]
          held := heldAfter mark true x.held [a] } s.gates t.gates) ∧
    (x.window = .unread →
      match x.queue.findIdx? (fun a => a.isWindow && a.mark = .unread) with
      | none =>
        ∃ u, exec (.inboundFrame g (0x5A :: b.bytes)) s = .next u.settle ∧ Effect [.gates] s.claims id none s u ∧
          Put g { x with inToggle := some b.frame.toggle, window := .read } s.gates u.gates
      | some i => ∀ a, x.queue[i]? = some a →
        let q : List Arrival := x.queue.set i (readRecord s b.frame a)
        ∃ t, exec (.inboundFrame g (0x5A :: b.bytes)) s = .next (headIf (i = 0) g t).settle ∧
          Effect [.gates] s.claims (queueNotice g (i + 1) (readRecord s b.frame a) [.u8 3]) none s t ∧
          Put g { x with
            inToggle := some b.frame.toggle, window := .read, queue := q, held := heldAfter mark false x.held q } s.gates t.gates)

/-- 09 section 9.7, R104: how the bytes of a gate's reader link make frames, however many commands bring them. A command of several
bytes is one of each after another. A byte before 0x5A is passed over, 0x5A begins a frame, the seven bytes that follow it are held,
and with the eighth they are taken as the same frame is that comes in one command while none is being assembled; `held` are the bytes
held of a frame that has begun. -/
def BytesMakeFrames (g : Nat) (c : List Byte → Instr) (held : Gate → Option (List Byte))
    (hold : Option (List Byte) → Gate → Gate) : Prop :=
  ∀ (x : Gate) (s : State), Tbl.find g s.gates = some x →
    (∀ as bs : List Byte, ∃ u, exec (c as) s = .next u.settle ∧ exec (c (as ++ bs)) s = exec (c bs) u) ∧
    ∀ b : Byte,
      let holds (bytes : Option (List Byte)) : Prop :=
        ∃ u, exec (c [b]) s = .next u.settle ∧ Effect [.gates] s.claims id none s u ∧ Put g (hold bytes x) s.gates u.gates
      (held x = none → holds (if b = 0x5A then some [] else none)) ∧
      ∀ got, held x = some got →
        (got.length < 7 → holds (some (got ++ [b]))) ∧
        (got.length = 7 → ∃ t, Effect [.gates] s.claims id none s t ∧ Put g (hold none x) s.gates t.gates ∧
          exec (c [b]) s = exec (c (0x5A :: (got ++ [b]))) t)

/-- 09 section 9.7, R104: the bytes of a gate's inbound link. -/
def inboundBytesMakeFrames : Prop :=
  ∀ g, BytesMakeFrames g (.inboundFrame g) Gate.rxIn (fun bytes x => { x with rxIn := bytes })

/-- R104–R110: the bytes of an inbound link, and an inbound frame at a gate, with and without a record made. -/
def Obligations.InboundFrames : Prop :=
  inboundBytesMakeFrames ∧ inboundFrameWithoutARecord ∧ inboundFrameMakesARecord ∧ inboundFrameAtTheHead

/-- 09 section 9.7, R104: the bytes of a gate's outbound link; a frame that is not valid changes nothing. -/
def outboundBytesMakeFrames : Prop :=
  (∀ g, BytesMakeFrames g (.outboundFrame g) Gate.rxOut (fun bytes x => { x with rxOut := bytes })) ∧
  ∀ (g : Nat) (b : TagBytes) (d : GateDef) (x : Gate) (s : State), GateAt g d x s → x.rxOut = none → ¬ b.valid true →
    ∃ u, exec (.outboundFrame g (0x5A :: b.bytes)) s = .next u.settle ∧ Effect [.gates] s.claims id none s u ∧
      Put g x s.gates u.gates

/-- R120: a valid outbound frame at a defined gate; and the bytes that make it (09 section 9.7, R104). That a frame with a needs bit of 4
to 7 set is valid is log entry 13 (DESIGN CHOICE). -/
def Obligations.OutboundFrameIsKept : Prop :=
  outboundBytesMakeFrames ∧
  ∀ (g : Nat) (b : TagBytes) (d : GateDef) (x : Gate) (s : State), GateAt g d x s → x.rxOut = none → b.valid true →
    let anew : Bool := x.outToggle ≠ some b.frame.toggle
    let route : Option Nat := match s.reservedBy d.gateOut with
      | some slot => match Tbl.find slot s.route.table with
        | some e => if e.kind = .departure ∧ s.isOccupied d.gateOut then some e.route else none
        | none => none
      | none => none
    ∃ u, exec (.outboundFrame g (0x5A :: b.bytes)) s = .next u.settle ∧ Effect [.gates] s.claims id none s u ∧
      Put g { x with
        outToggle := if anew then some b.frame.toggle else x.outToggle
        outRead := match route with
          | some n => if anew ∧ x.outRead.all (fun o => o.route ≠ n) then some ⟨b.fleet, n, s.minute⟩ else x.outRead
          | none => x.outRead } s.gates u.gates

/-- R106, R107, R109, R110: the pass window opens and closes; its timer and the early-read timer run out. Where a record joins
an empty queue, `unreadRecordJoins` says what it is. -/
def passWindowOpensAndCloses : Prop :=
  ∀ (g : Nat) (c : EdgeCause) (d : GateDef) (x : Gate) (s : State), GateAt g d x s →
    (x.window = .closed → x.early = none →
      let full : Bool := x.queue.length = 4
      ∃ u, exec (.readerOccupyEdge g c) s = .next u.settle ∧
        Effect [.gates] (s.claims.erase (.readerOccupyEdge g c) ++ (if full then [.alarmRaise (.gateOverrun g)] else [])) id none s u ∧
        Put g (if full then { x with window := .overrun, waitTimer := none, held := { x.held with overrun := true } }
          else { x with window := .wait, waitTimer := some (s.param.readerWait * 1000) }) s.gates u.gates) ∧
    (x.window ≠ .closed → exec (.readerOccupyEdge g c) s = .next (s.take (.readerOccupyEdge g c)).settle) ∧
    (x.window ≠ .wait →
      ∃ u, exec (.readerClearEdge g c) s = .next u.settle ∧
        Effect [.gates] (s.claims.erase (.readerClearEdge g c)) id none s u ∧
        Put g { x with window := .closed, waitTimer := none, queue := x.queue.map (fun a => { a with isWindow := false }) }
          s.gates u.gates) ∧
    (x.window = .wait → x.queue.length = 4 →
      ∃ u, exec (.readerWaitExpiry g) s = .next u.settle ∧
        Effect [.gates] (s.claims ++ [.alarmRaise (.gateOverrun g)]) id none s u ∧
        Put g { x with window := .overrun, waitTimer := none, held := { x.held with overrun := true } } s.gates u.gates) ∧
    (∃ u, exec (.earlyReadExpiry g) s = .next u.settle ∧ Effect [.gates] s.claims id none s u ∧
      Put g { x with early := none } s.gates u.gates)

/-- R109: an UNREAD record joins the tail, at the expiry of the reader wait as the window record, at a clearance as none. -/
def unreadRecordJoins : Prop :=
  ∀ (g : Nat) (c : EdgeCause) (d : GateDef) (x : Gate) (s : State), GateAt g d x s →
    x.window = .wait → x.queue.length < 4 →
    let unread (w : Bool) : Arrival :=
      { fleet := none, claimed := none, length := none, mandatory := none, wanted := none, mark := .unread, state := .waiting
        siding := none, slot := none, paused := false, readTime := s.minute, isWindow := w }
    let joined (q : List Arrival) (w : PassWindow) : Gate := { x with
      window := w, waitTimer := none, queue := q
      placeNone := if x.queue = [] then none else x.placeNone
      held := { x.held with
        unresolved := true
        queueHigh := x.held.queueHigh || decide (s.param.queueHighMark ≤ x.queue.length + 1) } }
    let notice (s : State) : State := s.post .gate 1 (.u8 g :: arrivalFields (x.queue.length + 1) (unread true) ++ [.u8 2])
    (∃ u, exec (.readerWaitExpiry g) s = .next u.settle ∧ Effect [.gates] s.claims notice none s u ∧
      Put g (joined (x.queue ++ [unread true]) .unread) s.gates u.gates) ∧
    (∃ u, exec (.readerClearEdge g c) s = .next u.settle ∧
      Effect [.gates] (s.claims.erase (.readerClearEdge g c)) notice none s u ∧
      Put g (joined ((x.queue ++ [unread true]).map (fun a => { a with isWindow := false })) .closed) s.gates u.gates)

/-- R106–R110: a window that opens takes the early read as its first frame; one that closes in WAIT with 4 records queued is an
overrun. -/
def earlyReadAtTheOpening : Prop :=
  ∀ (g : Nat) (c : EdgeCause) (d : GateDef) (x : Gate) (s : State), GateAt g d x s →
    (∀ (f : ReaderFrame) (k : Nat), x.window = .closed → x.early = some ⟨f, k⟩ →
      let anew : Bool := x.inToggle ≠ some f.toggle
      let y : Gate := { x with early := none, inToggle := some f.toggle }
      let a : Arrival := readRecord s f blankRecord
      ∃ t, exec (.readerOccupyEdge g c) s = .next (headIf (anew && x.queue.isEmpty) g t).settle ∧
        Effect [.gates]
          (s.claims.erase (.readerOccupyEdge g c) ++ (if x.queue.length = 4 then [.alarmRaise (.gateOverrun g)] else []))
          (fun s => if anew ∧ x.queue.length ≠ 4 then queueNotice g (x.queue.length + 1) a [.u8 1] s else s) none s t ∧
        Put g (
          if x.queue.length = 4 then { y with window := .overrun, waitTimer := none, held := { x.held with overrun := true } }
          else if anew then { y with
            window := .read, waitTimer := none, queue := x.queue ++ [a]
            placeNone := if x.queue = [] then none else x.placeNone
            held := heldAfter s.param.queueHighMark true x.held (x.queue ++ [a]) }
          else { y with window := .wait, waitTimer := some (s.param.readerWait * 1000) }) s.gates t.gates) ∧
    (x.window = .wait → x.queue.length = 4 →
      ∃ u, exec (.readerClearEdge g c) s = .next u.settle ∧
        Effect [.gates] (s.claims.erase (.readerClearEdge g c) ++ [.alarmRaise (.gateOverrun g)]) id none s u ∧
        Put g { x with
          window := .closed, waitTimer := none, held := { x.held with overrun := true }
          queue := x.queue.map (fun a => { a with isWindow := false }) } s.gates u.gates)

/-- R105–R110: the pass window, from its opening to its record. -/
def Obligations.PassWindow : Prop := passWindowOpensAndCloses ∧ unreadRecordJoins ∧ earlyReadAtTheOpening

/-- R126: the stacking report that ends a taking, to every gate, with the free capacities as the taking leaves them. -/
def reports (u : State) (cause : StackCause) (releaseGate : Option Nat) : List Instr :=
  (Tbl.keys u.gates).map (fun g => .stackingReport g ⟨cause, releaseGate, u.freeCapacity 1, u.freeCapacity 2⟩)

/-- R117: a stacking report gives the free capacity and its thresholds. -/
def stackingReportSetsCapacity : Prop :=
  ∀ (g : Nat) (rep : StackReport) (x : Gate) (s : State), Tbl.find g s.gates = some x →
    let free : Nat := if g = 1 then rep.capacity1 else rep.capacity2
    let low : Bool :=
      if free < s.param.capacityReserve then true
      else if s.param.capacityReserve + s.param.capacityBand ≤ free then false else x.held.capacityLow
    ∃ u y, exec (.stackingReport g rep) s = .next u.settle ∧ Tbl.find g u.gates = some y ∧
      y.freeCapacity = some free ∧ y.held = { x.held with capacityLow := low } ∧
      (rep.releaseGate = some g ∨ x.ownReport = some rep →
        Effect [.gates] (s.claims.erase (.stackingReport g rep)) id none s u ∧
        Put g { x with
          freeCapacity := some free, held := { x.held with capacityLow := low }
          ownReport := if x.ownReport = some rep then none else x.ownReport } s.gates u.gates) ∧
      (rep.releaseGate ≠ some g → x.ownReport ≠ some rep →
        ∃ t, u = t.processHead g ∧ Effect [.gates] (s.claims.erase (.stackingReport g rep)) id none s t ∧
          Put g { x with freeCapacity := some free, held := { x.held with capacityLow := low } } s.gates t.gates)

/-- R114, R115: head processing: a head that is not to be placed is left as it stands; NO_PLACE is noticed at a change of its
reason; a siding is taken and the arrival route requested, and a refusal of it releases the siding again. -/
def headProcessing : Prop :=
  ∀ (g : Nat) (x : Gate) (s : State), Tbl.find g s.gates = some x →
    let t := s.processHead g
    (x.queue = [] → t = s) ∧
    (∀ a rest, x.queue = a :: rest →
      (a.state ≠ .waiting ∨ a.mark ≠ .none ∨ a.paused = true ∨ a.fleet = none ∨ a.length = none ∨ a.mandatory = none ∨
        a.wanted = none → t = s) ∧
      ∀ f l ma wa, a.state = .waiting → a.mark = .none → a.paused = false → a.fleet = some f → a.length = some l →
        a.mandatory = some ma → a.wanted = some wa →
        match s.allocate g f l ma wa with
        | (_, .duplicate) => t = s
        | (_, .noPlace why) =>
          if x.placeNone = some why then t = s
          else Effect [.gates] s.claims
              (fun s => s.post .gate 3 [.u8 g, .u16 f, .u8 (match why with | .needs => 1 | .capacity => 2 | .order => 3)]) none s t ∧
            Put g { x with placeNone := some why } s.gates t.gates
        | (v, .siding n) =>
          ∀ k d, s.lookup .arrival g n = some k → Tbl.find k s.desc.routes = some d → d.kind = .arrival →
            match requestRefusal k d s with
            | some (why, _) =>
              let back : Arrival := { a with state := .waiting, siding := none, slot := none }
              KeepsAllBut [.gates] s t ∧ Answered none s t ∧
              t.claims = v.claims ++ reports t .released (some g) ∧
              Put g { x with
                placeNone := none, queue := back :: rest
                ownReport := some ⟨.reserved, none, v.freeCapacity 1, v.freeCapacity 2⟩ } s.gates t.gates ∧
              Notes (fun t => queueNotice g 1 back [.u8 9, .u8 why.code] (t.releaseClaim g f)) v t
            | none => (routePoints d).Nodup →
              let placed : Arrival := { a with state := .allocated, siding := some n, slot := (slotTaken d s).or a.slot }
              KeepsAllBut [.sections, .points, .routes, .gates, .stabling] s t ∧ Answered none s t ∧ t.stab = v.stab ∧
              t.claims = v.claims ++ requestClaims k .auto (.gateArrival g f) none d s ∧
              Notes (fun v => queueNotice g 1 placed [.u8 7] (requestNotices k .auto (.gateArrival g f) none d s t v)) v t ∧
              Put g { x with placeNone := none, queue := placed :: rest } s.gates t.gates ∧
              Requested k .auto (.gateArrival g f) none d s t)

/-- R114, R115, R117: a stacking report at a gate, and the head processing that it and the other occasions bring about. -/
def Obligations.StackingReportSetsCapacity : Prop := stackingReportSetsCapacity ∧ headProcessing

/-- R118: GATE_HOLD, GATE_RELEASE and the halt report change the held-reason set, and nothing else; a restart adds RESTART;
entry to RUN leaves RESTART alone in the set. -/
def Obligations.HeldReasonsOnClaims : Prop :=
  (∀ (q : Req) (g : Nat) (v : Bool) (d : GateDef) (x : Gate) (s : State), GateAt g d x s →
    (q.port = .desk → InRun q s →
      (∃ u, exec (.gateHold q g) s = .next u.settle ∧
        Effect [.gates] (s.claims.erase (.gateHold q g)) id (some (.gateHold, q, ⟨.done, none, []⟩)) s u ∧
        Put g { x with held := { x.held with forced := true } } s.gates u.gates) ∧
      (∃ u, exec (.gateRelease q g) s = .next u.settle ∧
        Effect [.gates] (s.claims.erase (.gateRelease q g)) id (some (.gateRelease, q, ⟨.done, none, []⟩)) s u ∧
        Put g { x with held := { x.held with forced := false, restart := false } } s.gates u.gates)) ∧
    (∃ u, exec (.gateHaltReport g v) s = .next u.settle ∧
      Effect [.gates] (s.claims.erase (.gateHaltReport g v)) id none s u ∧
      Put g { x with held := { x.held with halt := v } } s.gates u.gates) ∧
    (∃ (u : State) (y : Gate), exec (.gateRestart g) s = .next u.settle ∧ Tbl.find g u.gates = some y ∧
      y.held = { x.held with restart := true })) ∧
  (∀ (q : Req) (g : Nat) (s : State), q.port = .planner → s.op = .config → s.desc.commitFault = none →
    ∃ u : State, exec (.configCommit q) s = .next u.settle ∧
      ∀ y, Tbl.find g u.gates = some y → y.held = ⟨false, false, false, false, false, false, true⟩)

/-- R122: LINE_HOLD and LINE_RELEASE set and clear the line-hold flag, and nothing else. -/
def lineHoldFlag : Prop :=
  ∀ (q : Req) (g : Nat) (d : GateDef) (x : Gate) (s : State), GateAt g d x s → q.port = .line → InRun q s →
    (∃ u, exec (.lineHold q g) s = .next u.settle ∧
      Effect [.gates] (s.claims.erase (.lineHold q g)) (fun s => if x.lineHold then s else s.post .gate 7 [.u8 g, .u8 2])
        (some (.lineHold, q, ⟨.done, none, []⟩)) s u ∧
      Put g { x with lineHold := true } s.gates u.gates) ∧
    (∃ u, exec (.lineRelease q g) s = .next u.settle ∧
      Effect [.gates] (s.claims.erase (.lineRelease q g)) (fun s => if x.lineHold then s.post .gate 7 [.u8 g, .u8 1] else s)
        (some (.lineRelease, q, ⟨.done, none, []⟩)) s u ∧
      Put g { x with lineHold := false } s.gates u.gates)

/-- R107: GATE_CLEAR_OVERRUN. -/
def clearOverrun : Prop :=
  ∀ (q : Req) (g : Nat) (d : GateDef) (x : Gate) (s : State), GateAt g d x s → q.port = .desk → InRun q s →
    let full : Bool := x.queue.length = 4
    ∃ u, exec (.gateClearOverrun q g) s = .next u.settle ∧
      Effect [.gates]
        (s.claims.erase (.gateClearOverrun q g) ++
          (if !full && x.held.overrun then [.alarmConditionEnd (.gateOverrun g)] else []))
        id (some (.gateClearOverrun, q, if full then ⟨.refused, some .full, []⟩ else ⟨.done, none, []⟩)) s u ∧
      Put g (if full then x else { x with held := { x.held with overrun := false } }) s.gates u.gates

/-- R107, R122: the line-hold flag, and GATE_CLEAR_OVERRUN. -/
def Obligations.LineHoldAndOverrun : Prop := lineHoldFlag ∧ clearOverrun

/-- A set byte with bits 4 to 7 zero (09 section 9.7). -/
def isSetByte (b : Byte) : Prop := b.toNat < 16

/-- R112, R113: what the desk's arrival requests are refused for, in order; a refusal changes nothing. -/
def arrivalRequestsRefused : Prop :=
  ∀ (q : Req) (g p f l : Nat) (ma wa : Byte) (d : GateDef) (x : Gate) (s : State),
    GateAt g d x s → q.port = .desk → InRun q s → isSetByte ma → isSetByte wa →
    let record : Option Arrival := if p = 0 then none else x.queue[p - 1]?
    let inRange : Bool := decide (1 ≤ f ∧ f ≤ 4095 ∧ 10 ≤ l ∧ l ≤ 80)
    let here : Bool := decide (s.identity f ≠ .free)
    let refused (c : Instr) (k : Kind) (why : Reason) : Prop :=
      ∃ u, exec c s = .next u.settle ∧ Effect [] (s.claims.erase c) id (some (k, q, ⟨.refused, some why, []⟩)) s u
    (match record with
     | none => refused (.arrivalIdentify q g p f l ma wa) .arrivalIdentify .badArgument
     | some a =>
       if !inRange then refused (.arrivalIdentify q g p f l ma wa) .arrivalIdentify .badArgument
       else if a.mark = .none then refused (.arrivalIdentify q g p f l ma wa) .arrivalIdentify .wrongState
       else here = true → refused (.arrivalIdentify q g p f l ma wa) .arrivalIdentify .duplicate) ∧
    (match record with
     | none => refused (.arrivalDiscard q g p) .arrivalDiscard .badArgument
     | some a => a.state ≠ .waiting → refused (.arrivalDiscard q g p) .arrivalDiscard .wrongState) ∧
    (if !inRange then refused (.arrivalAdd q g f l ma wa) .arrivalAdd .badArgument
     else if x.queue.length = 4 then refused (.arrivalAdd q g f l ma wa) .arrivalAdd .full
     else here = true → refused (.arrivalAdd q g f l ma wa) .arrivalAdd .duplicate) ∧
    (x.queue = [] → refused (.arrivalResume q g) .arrivalResume .wrongState)

/-- R112, R113: the desk's arrival requests taken. Head processing (R114) may follow, so of the queue afterwards the statement
gives what head processing cannot change: the fleets in order, and the record resolved. -/
def arrivalRequestsTaken : Prop :=
  ∀ (q : Req) (g p f l : Nat) (ma wa : Byte) (a : Arrival) (d : GateDef) (x : Gate) (s : State),
    GateAt g d x s → q.port = .desk → InRun q s → isSetByte ma → isSetByte wa →
    1 ≤ f → f ≤ 4095 → 10 ≤ l → l ≤ 80 → s.identity f = .free →
    (1 ≤ p → x.queue[p - 1]? = some a → a.mark ≠ .none →
      ∃ u y b, exec (.arrivalIdentify q g p f l ma wa) s = .next u.settle ∧
        Answered (some (.arrivalIdentify, q, ⟨.done, none, []⟩)) s u ∧ Tbl.find g u.gates = some y ∧
        y.queue.map Arrival.fleet = (x.queue.map Arrival.fleet).set (p - 1) (some f) ∧ y.queue[p - 1]? = some b ∧
        b.claimed = none ∧ b.length = some l ∧ b.mandatory = some (Needs.ofLow ma) ∧ b.wanted = some (Needs.ofLow wa) ∧
        b.mark = .none ∧ b.paused = a.paused ∧ b.readTime = s.minute) ∧
    (1 ≤ p → x.queue[p - 1]? = some a → a.state = .waiting →
      ∃ u y, exec (.arrivalDiscard q g p) s = .next u.settle ∧
        Answered (some (.arrivalDiscard, q, ⟨.done, none, []⟩)) s u ∧ Tbl.find g u.gates = some y ∧
        y.queue.map Arrival.fleet = (x.queue.map Arrival.fleet).eraseIdx (p - 1)) ∧
    (x.queue.length < 4 →
      ∃ u y, exec (.arrivalAdd q g f l ma wa) s = .next u.settle ∧
        Answered (some (.arrivalAdd, q, ⟨.done, none, [.u8 (x.queue.length + 1)]⟩)) s u ∧ Tbl.find g u.gates = some y ∧
        y.queue.map Arrival.fleet = x.queue.map Arrival.fleet ++ [some f]) ∧
    (x.queue ≠ [] →
      ∃ u y b, exec (.arrivalResume q g) s = .next u.settle ∧
        Answered (some (.arrivalResume, q, ⟨.done, none, []⟩)) s u ∧ Tbl.find g u.gates = some y ∧
        y.queue.map Arrival.fleet = x.queue.map Arrival.fleet ∧ y.queue.head? = some b ∧ b.paused = false)

/-- R112–R114, R117: what the desk's arrival requests, taken, leave before head processing, and which of them process the
head. -/
def arrivalRequestsProcessTheHead : Prop :=
  ∀ (q : Req) (g p f l : Nat) (ma wa : Byte) (a : Arrival) (d : GateDef) (x : Gate) (s : State),
    GateAt g d x s → q.port = .desk → InRun q s → isSetByte ma → isSetByte wa →
    let inRange : Prop := 1 ≤ f ∧ f ≤ 4095 ∧ 10 ≤ l ∧ l ≤ 80
    let known (a : Arrival) : Arrival := { a with
      fleet := some f, claimed := none, length := some l, mandatory := some (Needs.ofLow ma), wanted := some (Needs.ofLow wa)
      mark := .none, readTime := s.minute }
    let leaves (c : Instr) (k : Kind) (results : List Field) (head joined : Bool) (queue : List Arrival)
        (posts : State → State) : Prop :=
      ∃ t u, exec c s = .next u.settle ∧ Effect [.gates] (s.claims.erase c) posts none s t ∧
        Put g { x with
          queue := queue, held := heldAfter s.param.queueHighMark joined x.held queue
          placeNone := if head && decide (k = .arrivalDiscard ∨ k = .arrivalAdd) then none else x.placeNone } s.gates t.gates ∧
        Effect [] (headIf head g t).claims id (some (k, q, ⟨.done, none, results⟩)) (headIf head g t) u
    (inRange → s.identity f = .free → 1 ≤ p → x.queue[p - 1]? = some a → a.mark ≠ .none →
      leaves (.arrivalIdentify q g p f l ma wa) .arrivalIdentify [] (p = 1) false (x.queue.set (p - 1) (known a))
        (queueNotice g p (known a) [.u8 4])) ∧
    (1 ≤ p → x.queue[p - 1]? = some a → a.state = .waiting →
      leaves (.arrivalDiscard q g p) .arrivalDiscard [] (p = 1) false (x.queue.eraseIdx (p - 1)) (queueNotice g p a [.u8 6])) ∧
    (inRange → s.identity f = .free → x.queue.length < 4 →
      leaves (.arrivalAdd q g f l ma wa) .arrivalAdd [.u8 (x.queue.length + 1)] (x.queue = []) true
        (x.queue ++ [known blankRecord]) (queueNotice g (x.queue.length + 1) (known blankRecord) [.u8 5])) ∧
    (∀ b rest, x.queue = b :: rest →
      ∃ t u, exec (.arrivalResume q g) s = .next u.settle ∧
        Effect [.gates] (s.claims.erase (.arrivalResume q g))
          (fun s => if b.paused then queueNotice g 1 { b with paused := false } [.u8 12] s else s) none s t ∧
        Put g { x with queue := { b with paused := false } :: rest } s.gates t.gates ∧
        Effect [] (t.processHead g).claims id (some (.arrivalResume, q, ⟨.done, none, []⟩)) (t.processHead g) u)

/-- R112–R114: the desk's requests on the arrival queue, refused and taken. -/
def Obligations.ArrivalRequests : Prop := arrivalRequestsRefused ∧ arrivalRequestsTaken ∧ arrivalRequestsProcessTheHead

/-- R116: a progress event of a gate's arrival route on the record of its fleet, at place i. -/
def arrivalRouteEventsAtTheGate : Prop :=
  ∀ (g g' i f : Nat) (ev : RouteEvent) (a : Arrival) (x : Gate) (s : State), Tbl.find g s.gates = some x →
    ev.purpose = .gateArrival g' f → x.queue.findIdx? (fun y => y.fleet = some f) = some i → x.queue[i]? = some a →
    let left : List Instr := s.claims.erase (.gateArrivalEvent g ev)
    let returned : Arrival := { a with state := .waiting, siding := none, slot := none }
    (ev.event = .proceed → a.state = .allocated →
      let b : Arrival := { a with state := .routed, slot := ev.slot }
      ∃ u, exec (.gateArrivalEvent g ev) s = .next u.settle ∧
        Effect [.gates] left (fun s => s.post .gate 1 (.u8 g :: arrivalFields (i + 1) b ++ [.u8 8])) none s u ∧
        Put g { x with queue := x.queue.set i b } s.gates u.gates) ∧
    (ev.event = .firstEntered →
      ∃ u y, exec (.gateArrivalEvent g ev) s = .next u.settle ∧ Answered none s u ∧ Tbl.find g u.gates = some y ∧
        y.queue.map Arrival.fleet = (x.queue.map Arrival.fleet).eraseIdx i) ∧
    (ev.event = .expired ∨ (∃ why, ev.event = .failed why) → a.state ≠ .waiting → i ≠ 0 →
      ∃ u, exec (.gateArrivalEvent g ev) s = .next u.settle ∧
        Effect [.gates] left (fun s => s.post .gate 1 (.u8 g :: arrivalFields (i + 1) returned ++
          [.u8 10, .u8 (if ev.event = .expired then 6 else 5)])) none s u ∧
        Put g { x with queue := x.queue.set i returned } s.gates u.gates) ∧
    (ev.event = .expired ∨ (∃ why, ev.event = .failed why) →
      ∃ u y, exec (.gateArrivalEvent g ev) s = .next u.settle ∧ Answered none s u ∧ Tbl.find g u.gates = some y ∧
        y.queue.map Arrival.fleet = x.queue.map Arrival.fleet) ∧
    (ev.event = .cancelled → a.state ≠ .waiting →
      ∃ u, exec (.gateArrivalEvent g ev) s = .next u.settle ∧
        Effect [.gates] left (fun s => s.post .gate 1 (.u8 g :: arrivalFields (i + 1) { returned with paused := true } ++ [.u8 11]))
          none s u ∧
        Put g { x with queue := x.queue.set i { returned with paused := true } } s.gates u.gates)

/-- R121: the events of a departure route at its gate: its end, and those that change nothing there. -/
def departureRouteEventsAtTheGate : Prop :=
  ∀ (g : Nat) (ev : RouteEvent) (x : Gate) (s : State), Tbl.find g s.gates = some x →
    let left : List Instr := s.claims.erase (.gateDepartureEvent g ev)
    let read : Option OutRead := if x.outRead.any (fun o => o.route = ev.route) then x.outRead else none
    (ev.event = .complete → read.all (fun o => ev.tram = some o.fleet) = true →
      ∃ u, exec (.gateDepartureEvent g ev) s = .next u.settle ∧
        Effect [.gates] left (fun s => s.post .gate 6
          [.u8 g, .u8 ev.route, .u16 (ev.tram.getD 65535), .u16 ((read.map OutRead.fleet).getD 65535)]) none s u ∧
        Put g { x with outRead := none } s.gates u.gates) ∧
    (ev.event = .complete → read.all (fun o => ev.tram = some o.fleet) = false →
      ∃ u rest, exec (.gateDepartureEvent g ev) s = .next u.settle ∧ Answered none s u ∧
        KeepsAllBut [.gates, .stabling] s u ∧ u.claims = left ++ [.alarmRaise (.wrongTramOut (ev.tram.getD 0))] ++ rest ∧
        Put g { x with outRead := none } s.gates u.gates ∧
        ∀ n r, (s.routeDef ev.route).bind RouteDef.fromObj = some n → Tbl.find n u.stab.sidings = some r → r.census = .doubt) ∧
    (ev.event ∈ [.expired, .cancelled, .forceReleased] ∨ (∃ why, ev.event = .failed why) →
      ∃ u, exec (.gateDepartureEvent g ev) s = .next u.settle ∧ Effect [.gates] left id none s u ∧
        Put g { x with outRead := if read.isSome then none else x.outRead } s.gates u.gates) ∧
    (ev.event ∈ [.proceed, .firstEntered] ∨ (∃ k, ev.event = .elementReleased k) →
      exec (.gateDepartureEvent g ev) s = .next (s.take (.gateDepartureEvent g ev)).settle)

/-- R114, R116: what an arrival route's event leaves before head processing, and which of them process the head; any other event,
and one whose fleet no record holds, changes nothing. -/
def arrivalRouteEventsProcessTheHead : Prop :=
  ∀ (g g' f : Nat) (ev : RouteEvent) (x : Gate) (s : State), Tbl.find g s.gates = some x → ev.purpose = .gateArrival g' f →
    let left : List Instr := s.claims.erase (.gateArrivalEvent g ev)
    let nothing : Prop := exec (.gateArrivalEvent g ev) s = .next (s.take (.gateArrivalEvent g ev)).settle
    match x.queue.findIdx? (fun y => y.fleet = some f) with
    | none => nothing
    | some i => ∀ a, x.queue[i]? = some a →
      let back : Arrival := { a with state := .waiting, siding := none, slot := none }
      let leaves (y : Gate) (posts : State → State) : Prop :=
        ∃ t, exec (.gateArrivalEvent g ev) s = .next (headIf (i = 0) g t).settle ∧ Effect [.gates] left posts none s t ∧
          Put g y s.gates t.gates
      match ev.event with
      | .firstEntered =>
        leaves { x with
            queue := x.queue.eraseIdx i, held := heldAfter s.param.queueHighMark false x.held (x.queue.eraseIdx i)
            placeNone := if i = 0 then none else x.placeNone }
          (fun s => s.post .gate 2 [.u8 g, .u16 (a.fleet.getD 65535), .u8 (a.siding.getD 0), .u8 (ev.slot.getD 0)])
      | .failed _ => if a.state = .waiting then nothing
        else leaves { x with queue := x.queue.set i back } (queueNotice g (i + 1) back [.u8 10, .u8 5])
      | .expired => if a.state = .waiting then nothing
        else leaves { x with queue := x.queue.set i back } (queueNotice g (i + 1) back [.u8 10, .u8 6])
      | .proceed => a.state ≠ .allocated → nothing
      | .cancelled => a.state = .waiting → nothing
      | _ => nothing

/-- R121: a read of another tram than the route's raises WRONG_TRAM_OUT and makes a doubt claim for the siding that the route
leaves, then for the siding in whose stack the fleet read stands. -/
def wrongTramMakesDoubtClaims : Prop :=
  ∀ (g : Nat) (ev : RouteEvent) (o : OutRead) (x : Gate) (s : State), Tbl.find g s.gates = some x → ev.event = .complete →
    x.outRead = some o → o.route = ev.route → ev.tram ≠ some o.fleet →
    let raised : State := (s.take (.gateDepartureEvent g ev)).raise (.wrongTramOut (ev.tram.getD 0))
    let left : State := match (s.routeDef ev.route).bind RouteDef.fromObj with
      | some n => raised.doubtClaim n .doubtClaim
      | none => raised
    let both : State := match s.findTram o.fleet with
      | some (n, _) => left.doubtClaim n .doubtClaim
      | none => left
    ∃ u, exec (.gateDepartureEvent g ev) s = .next u.settle ∧ u.stab = both.stab ∧ u.claims = both.claims ∧
      Notes (fun _ => both) s u

/-- R114, R116, R120, R121: the progress events of arrival and departure routes at a gate. -/
def Obligations.RouteEventsAtTheGate : Prop :=
  arrivalRouteEventsAtTheGate ∧ departureRouteEventsAtTheGate ∧ arrivalRouteEventsProcessTheHead ∧ wrongTramMakesDoubtClaims

/-- R124: a restart at a gate controller; it posts a notice for each record that it changes and makes a release claim for each
that was ALLOCATED or ROUTED, record by record from the head (what a release claim does: `claimsOnAStack`). -/
def Obligations.GateRestartReturnsRecords : Prop :=
  ∀ (g : Nat) (d : GateDef) (x : Gate) (s : State), GateAt g d x s →
    let back (a : Arrival) : Arrival :=
      { a with state := .waiting, siding := none, slot := none, paused := false, isWindow := false }
    let changes (a : Arrival) : Bool := decide (a.state ≠ .waiting) || a.siding.isSome || a.slot.isSome || a.paused
    let returned (t : State) (p : Arrival × Nat) : State :=
      let t := if changes p.1 then queueNotice g (p.2 + 1) (back p.1) [.u8 13] t else t
      match p.1.state, p.1.fleet with
      | .waiting, _ => t
      | _, some f => t.releaseClaim g f
      | _, none => t
    let t : State := x.queue.zipIdx.foldl returned (s.take (.gateRestart g))
    ∃ u, exec (.gateRestart g) s = .next u.settle ∧ KeepsAllBut [.gates, .stabling] s u ∧ Answered none s u ∧
      u.claims.getLast? = some (.restartTakenReport (.gate g)) ∧
      u.claims = t.claims ++ [.restartTakenReport (.gate g)] ∧ Notes (fun _ => t) s u ∧
      u.stab = t.stab ∧ u.stab.shunts = s.stab.shunts ∧ u.stab.handed = s.stab.handed ∧
      Put g { x with
        queue := x.queue.map (fun a =>
          { a with state := .waiting, siding := none, slot := none, paused := false, isWindow := false })
        window := if s.isOccupied d.reader then .untimed else .closed
        waitTimer := none, early := none, outRead := none, placeNone := none
        held := { x.held with restart := true } } s.gates u.gates

/-! ## Stabling block (07) -/

/-- R147: the STACK_CHANGE notice; states RESERVED 1, STABLED 2, CALLED 3, LEAVING 4, REMOVED 5 (log entry 59). -/
def stackNotice (n f pos state cause : Nat) (s : State) : State :=
  s.post .stabling 2 [.u8 n, .u16 f, .u8 pos, .u8 state, .u8 cause]

/-- R147: the SIDING_STATE notice. -/
def sidingNotice (n : Nat) (r : SidingRec) (cause : Nat) (s : State) : State :=
  s.post .stabling 3 [.u8 n, .u8 (if r.census = .known then 1 else 2), .u8 (if r.blocked then 2 else 1), .u8 r.abilities.byte,
    .u8 (r.incoming.getD 0), .u8 cause]

/-- R147: the SHUNT_PHASE notice; phases OUT_WAIT 1 to IN_MOVING 4, ENDED 5 (log entry 59). -/
def shuntNotice (h : Nat) (e : ShuntEntry) (phase : Nat) (cause : List Field) (s : State) : State :=
  s.post .stabling 5 ([.u8 h, .u16 e.fleet, .u8 e.source, .u8 e.target, .u8 phase] ++ cause)

/-- Of the stabling block one siding record alone changes: the other sidings, the shunt table and the hand-over are as
before. -/
def OnlySiding (n : Nat) (r : SidingRec) (s u : State) : Prop :=
  Put n r s.stab.sidings u.stab.sidings ∧ u.stab.shunts = s.stab.shunts ∧ u.stab.handed = s.stab.handed

/-- The record of a fleet stands at place i (from 0) of siding n. -/
def Stands (f n : Nat) (r : SidingRec) (i : Nat) (x : StackRec) (s : State) : Prop :=
  s.findTram f = some (n, r, i, x) ∧ Tbl.find n s.stab.sidings = some r

/-- A siding with the record of a fleet changed. -/
def withRecord (f : Nat) (g : StackRec → StackRec) (r : SidingRec) : SidingRec :=
  { r with stack := r.stack.map (fun x => if x.fleet = f then g x else x) }

/-- A siding with the record of a fleet removed. -/
def withoutRecord (f : Nat) (r : SidingRec) : SidingRec := { r with stack := r.stack.filter (fun x => x.fleet ≠ f) }

/-- A record back in STABLED, with no purpose. -/
def backToStabled (x : StackRec) : StackRec := { x with state := .stabled, purpose := none, sinceRestart := false }

/-- R127: what makes a siding a candidate, and the free capacity of a gate. -/
def candidatesAndCapacity : Prop :=
  ∀ (s : State) (g : Nat),
    (∀ (n : Nat) (r : SidingRec), s.candidate g n r = true ↔
      r.census = .known ∧ r.blocked = false ∧ r.incoming = none ∧ (∀ x, r.stack.getLast? = some x → x.state = .stabled) ∧
      r.stack.length < 12 ∧
      ∃ k d, s.lookup .arrival g n = some k ∧ s.routeDef k = some d ∧ (∀ p ∈ d.points, s.outOfService p.1 = false) ∧
        ∀ m ∈ d.sections, s.isForced m = false) ∧
    s.freeCapacity g = (s.stab.sidings.map (fun p => if s.candidate g p.1 p.2 then
      p.2.length - (p.2.stack.map (fun x => x.length + s.param.spacing)).sum else 0)).sum

/-- R128–R131: what an allocation claim answers, and what it places. -/
def allocationPlacesWhereTheTramFits : Prop :=
  ∀ (g f l : Nat) (ma wa : Needs) (s t : State) (n : Nat), Tbl.wf s.stab.sidings → s.allocate g f l ma wa = (t, .siding n) →
    s.findTram f = none ∧
    ∃ r, Tbl.find n s.stab.sidings = some r ∧ s.candidate g n r = true ∧
      l + s.param.spacing ≤ r.length - (r.stack.map (fun x => x.length + s.param.spacing)).sum ∧
      covers r.abilities ma = true ∧
      (s.param.inversion = .hold → s.inOrder (s.dueOf f) r = true) ∧
      Put n { r with stack := r.stack ++ [⟨f, l, ma, wa, .reserved, false, none, some (.gateArrival g), s.stab.handed⟩] }
        s.stab.sidings t.stab.sidings ∧
      KeepsAllBut [.stabling] s t ∧ t.claims = s.claims ++ reports t .reserved none

/-- R128: the due of a fleet, from the roster entry that carries it. -/
def dueOfFleet (s : State) (f : Nat) : Option Nat := (s.roster.duties.find? (fun e => e.fleet = some f)).map Duty.due

/-- R128: a siding is eligible for a tram at a gate. -/
def isEligible (s : State) (g l : Nat) (ma : Needs) (p : Nat × SidingRec) : Bool :=
  s.candidate g p.1 p.2 && covers p.2.abilities ma &&
  decide (l + s.param.spacing ≤ p.2.length - (p.2.stack.map (fun x => x.length + s.param.spacing)).sum)

/-- R129: a siding is in order for a due: empty, or the due no later than that of its outermost record, an absent one counting
as later than every minute. -/
def isInOrder (s : State) (d : Option Nat) (p : Nat × SidingRec) : Bool :=
  match p.2.stack.getLast? with
  | none => true
  | some x => match d, dueOfFleet s x.fleet with
    | _, none => true
    | none, some _ => false
    | some a, some b => a ≤ b

/-- R129: the five keys of a siding, smallest first; the slack of an absent due against a present one, which R130 asks for and no
rule states, is the free value of log entry 30. -/
def rankingKeys (s : State) (d : Option Nat) (l : Nat) (wa : Needs) (p : Nat × SidingRec) : List Nat :=
  let included : Nat := (if wa.covered && p.2.abilities.covered then 1 else 0) + (if wa.supply && p.2.abilities.supply then 1 else 0) +
    (if wa.pit && p.2.abilities.pit then 1 else 0) + (if wa.sand && p.2.abilities.sand then 1 else 0)
  let slackThere : Nat := match p.2.stack.getLast? with
    | none => 0
    | some x => match d, dueOfFleet s x.fleet with
      | none, none => 0
      | some _, none => 2880
      | some a, some b => b - a
      | none, some b => Config.slackOfAbsentDue b
  [4 - included, if p.2.stack.isEmpty then 1 else 0, slackThere,
   p.2.length - (p.2.stack.map (fun x => x.length + s.param.spacing)).sum - (l + s.param.spacing), p.1]

/-- R130: d − d′, on which every siding ties where d is absent. -/
def inversionKey (s : State) (d : Option Nat) (p : Nat × SidingRec) : Nat :=
  match d, (p.2.stack.getLast?).bind (fun x => dueOfFleet s x.fleet) with
  | some a, some b => a - b
  | _, _ => 0

/-- R128–R130: the siding that is chosen, and the reasons for which none is; keys compare in order, the first that differs
deciding. -/
def choiceIsRanked : Prop :=
  ∀ (s : State) (g f l : Nat) (ma wa : Needs),
    let d := dueOfFleet s f
    let el := s.stab.sidings.filter (isEligible s g l ma)
    let cands := s.stab.sidings.filter (fun p => s.candidate g p.1 p.2)
    let first (keys : Nat × SidingRec → List Nat) (l : List (Nat × SidingRec)) (n : Nat) : Prop :=
      ∃ p ∈ l, p.1 = n ∧ ∀ p' ∈ l, keys p ≤ keys p'
    match s.choose g f l ma wa with
    | .place n false => first (rankingKeys s d l wa) (el.filter (isInOrder s d)) n
    | .place n true => el.filter (isInOrder s d) = [] ∧ s.param.inversion = .accept ∧
        first (fun p => inversionKey s d p :: rankingKeys s d l wa p) el n
    | .noPlace .order => el ≠ [] ∧ el.filter (isInOrder s d) = [] ∧ s.param.inversion = .hold
    | .noPlace .needs => el = [] ∧ cands ≠ [] ∧ ∀ p ∈ cands, covers p.2.abilities ma = false
    | .noPlace .capacity => el = [] ∧ (cands = [] ∨ ∃ p ∈ cands, covers p.2.abilities ma = true)

/-- 00 section 3.3: the abilities cover a set of needs. -/
def coveringIsInclusion : Prop :=
  ∀ (ab ma : Needs), covers ab ma = true ↔
    (ma.covered = true → ab.covered = true) ∧ (ma.supply = true → ab.supply = true) ∧ (ma.pit = true → ab.pit = true) ∧
    (ma.sand = true → ab.sand = true)

/-- R128, R130, R131: the answer to an allocation claim follows the choice; only a placement changes anything, and it is noticed,
an inversion too. -/
def allocationFollowsTheChoice : Prop :=
  ∀ (g f l : Nat) (ma wa : Needs) (s : State),
    let out := s.allocate g f l ma wa
    if (s.findTram f).isSome then out = (s, .duplicate)
    else match s.choose g f l ma wa with
      | .noPlace why => out = (s, .noPlace why)
      | .place n inverted => out.2 = .siding n ∧ ∀ r, Tbl.find n s.stab.sidings = some r →
          Answered none s out.1 ∧ out.1.stab.shunts = s.stab.shunts ∧ out.1.stab.handed = s.stab.handed ∧
          Notes (fun s =>
            let s := stackNotice n f (r.stack.length + 1) 1 1 s
            match inverted, r.stack.getLast? with
            | true, some o => s.post .stabling 4 [.u16 f, .u8 n, .u16 o.fleet]
            | _, _ => s) s out.1

/-- R131, R133, R137: the release claim of a gate, the uncall claim of the roster block, and a doubt claim, each on what it finds;
otherwise it changes nothing; and the call claim, whose report carries the figure of R127 (log entry 29, DEDUCED). -/
def claimsOnAStack : Prop :=
  (∀ (f n i : Nat) (p : StackPurpose) (r : SidingRec) (x : StackRec) (s : State), Stands f n r i x s →
    s.callCheck f = .ok (n, i) →
    let t := (s.callClaim f p).1
    Effect [.stabling] (s.claims ++ reports t .called none) (stackNotice n f (i + 1) 3 3) none s t ∧
    OnlySiding n (withRecord f (fun y => { y with state := .called, purpose := some p, sinceRestart := s.stab.handed }) r) s t) ∧
  (∀ (g f n i : Nat) (p : StackPurpose) (r : SidingRec) (x : StackRec) (s : State), Stands f n r i x s →
    (let t := s.releaseClaim g f
     if x.state = .reserved ∧ x.purpose = some (.gateArrival g) ∧ x.entered = false then
       Effect [.stabling] (s.claims ++ reports t .released (some g)) (stackNotice n f (i + 1) 5 2) none s t ∧
       OnlySiding n (withoutRecord f r) s t
     else t = s) ∧
    (let t := s.uncallClaim f p
     if x.state = .called ∧ x.purpose = some p then
       Effect [.stabling] (s.claims ++ reports t .uncalled none) (stackNotice n f (i + 1) 2 4) none s t ∧
       OnlySiding n (withRecord f backToStabled r) s t
     else t = s)) ∧
  (∀ (g f : Nat) (p : StackPurpose) (s : State), s.findTram f = none → s.releaseClaim g f = s ∧ s.uncallClaim f p = s) ∧
  (∀ (n : Nat) (c : StackCause) (r : SidingRec) (s : State), Tbl.find n s.stab.sidings = some r →
    let t := s.doubtClaim n c
    let y : SidingRec := { r with census := .doubt }
    if r.census = .known then
      Effect [.stabling] (s.claims ++ reports t c none) (sidingNotice n y c.code) none s t ∧ OnlySiding n y s t
    else t = s) ∧
  (∀ (n : Nat) (c : StackCause) (s : State), Tbl.find n s.stab.sidings = none → s.doubtClaim n c = s)

/-- R127–R131, R133, R137: candidates, free capacity, what an allocation chooses and places, and the other claims on a stack. -/
def Obligations.CandidatesAndAllocation : Prop :=
  candidatesAndCapacity ∧ allocationPlacesWhereTheTramFits ∧ choiceIsRanked ∧ coveringIsInclusion ∧ allocationFollowsTheChoice ∧
  claimsOnAStack

/-- R132: a progress event of an arrival route on its RESERVED record. -/
def arrivalRouteEventsOnTheStack : Prop :=
  ∀ (g f n i : Nat) (r : SidingRec) (x : StackRec) (ev : RouteEvent) (s : State),
    ev.purpose = .gateArrival g f → Stands f n r i x s → x.state = .reserved → x.purpose = some (.gateArrival g) →
    let left : List Instr := s.claims.erase (.stablingArrivalEvent ev)
    (ev.event = .firstEntered →
      ∃ u, exec (.stablingArrivalEvent ev) s = .next u.settle ∧ Effect [.stabling] left id none s u ∧
        OnlySiding n (withRecord f (fun y => { y with entered := true }) r) s u) ∧
    (ev.event = .complete →
      ∃ u, exec (.stablingArrivalEvent ev) s = .next u.settle ∧
        Effect [.stabling] (left ++ reports u .stabled none)
          (fun s => s.post .stabling 1 [.u16 f, .u8 n, .u8 (i + 1)]) none s u ∧
        OnlySiding n (withRecord f (fun y => { backToStabled y with entered := false, stabledAt := s.minute }) r) s u) ∧
    (ev.event ∈ [.expired, .cancelled] ∨ (∃ why, ev.event = .failed why) →
      ∃ u, exec (.stablingArrivalEvent ev) s = .next u.settle ∧
        Effect [.stabling] (left ++ reports u .released none) (stackNotice n f (i + 1) 5 2) none s u ∧
        OnlySiding n (withoutRecord f r) s u) ∧
    (ev.event = .forceReleased →
      let y : SidingRec := { withoutRecord f r with census := .doubt }
      ∃ u, exec (.stablingArrivalEvent ev) s = .next u.settle ∧
        Effect [.stabling] (left ++ reports u .removed none)
          (fun s => if r.census = .known then sidingNotice n y 18 (stackNotice n f (i + 1) 5 7 s)
            else stackNotice n f (i + 1) 5 7 s) none s u ∧
        OnlySiding n y s u)

/-- R134: a progress event of a departure route on the record with its purpose. -/
def departureRouteEventsOnTheStack : Prop :=
  ∀ (f n i : Nat) (p : StackPurpose) (r : SidingRec) (x : StackRec) (ev : RouteEvent) (s : State),
    ((∃ d, ev.purpose = .dutyDeparture d f ∧ p = .dutyDeparture d) ∨ ∃ g, ev.purpose = .fleetDeparture f g ∧ p = .fleetDeparture g) →
    Stands f n r i x s → x.purpose = some p →
    let left : List Instr := s.claims.erase (.stablingDepartureEvent ev)
    (x.state = .called → ev.event = .firstEntered →
      ∃ u, exec (.stablingDepartureEvent ev) s = .next u.settle ∧
        Effect [.stabling] (left ++ reports u .leaving none) (stackNotice n f (i + 1) 4 5) none s u ∧
        OnlySiding n (withRecord f (fun y => { y with state := .leaving }) r) s u) ∧
    (x.state = .leaving → ev.event = .elementReleased 1 ∨ ev.event = .complete →
      ∃ u, exec (.stablingDepartureEvent ev) s = .next u.settle ∧
        Effect [.stabling] (left ++ reports u .left none) (stackNotice n f (i + 1) 5 6) none s u ∧
        OnlySiding n (withoutRecord f r) s u) ∧
    (x.state = .called → ev.event ∈ [.expired, .cancelled] ∨ (∃ why, ev.event = .failed why) →
      ∃ u, exec (.stablingDepartureEvent ev) s = .next u.settle ∧
        Effect [.stabling] (left ++ reports u .uncalled none) (stackNotice n f (i + 1) 2 4) none s u ∧
        OnlySiding n (withRecord f backToStabled r) s u) ∧
    (x.state = .leaving → ev.event = .forceReleased →
      let y : SidingRec := { withoutRecord f r with census := .doubt }
      ∃ u, exec (.stablingDepartureEvent ev) s = .next u.settle ∧
        Effect [.stabling] (left ++ reports u .removed none ++ [.alarmRaise (.departureAbandoned f)])
          (fun s => if r.census = .known then sidingNotice n y 18 (stackNotice n f (i + 1) 5 7 s)
            else stackNotice n f (i + 1) 5 7 s) none s u ∧
        OnlySiding n y s u)

/-- R134: the pairings of a record's state and an event that have an effect. -/
def departurePairing (state : StackState) (ev : Progress) : Bool :=
  match state, ev with
  | .called, .firstEntered | .called, .failed _ | .called, .expired | .called, .cancelled => true
  | .leaving, .complete | .leaving, .forceReleased => true
  | .leaving, .elementReleased k => k = 1
  | _, _ => false

/-- R132, R134: an arrival event that finds no RESERVED record of its fleet and gate changes nothing, nor do PROCEED and
ELEMENT-RELEASED on one; and any other pairing of a departure event with its record changes nothing. -/
def otherPairingsChangeNothing : Prop :=
  ∀ (f : Nat) (ev : RouteEvent) (s : State),
    (∀ g, ev.purpose = .gateArrival g f →
      (∀ n r i x, s.findTram f = some (n, r, i, x) → x.state = .reserved → x.purpose = some (.gateArrival g) →
        ev.event = .proceed ∨ ∃ k, ev.event = .elementReleased k) →
      exec (.stablingArrivalEvent ev) s = .next (s.take (.stablingArrivalEvent ev)).settle) ∧
    (∀ p n r i x, ((∃ d, ev.purpose = .dutyDeparture d f ∧ p = .dutyDeparture d) ∨
        ∃ g, ev.purpose = .fleetDeparture f g ∧ p = .fleetDeparture g) →
      s.findTram f = some (n, r, i, x) → x.purpose = some p → departurePairing x.state ev.event = false →
      exec (.stablingDepartureEvent ev) s = .next (s.take (.stablingDepartureEvent ev)).settle)

/-- R134, R137: a departure event that finds no record with its purpose: FORCE-RELEASED raises DEPARTURE_ABANDONED, and the siding that
the event's route leaves, by the departure lookup, goes to DOUBT, where it was KNOWN with its notice and its stacking report; any
other event changes nothing. -/
def departureRecordIsGone : Prop :=
  ∀ (f : Nat) (p : StackPurpose) (ev : RouteEvent) (s : State),
    ((∃ d, ev.purpose = .dutyDeparture d f ∧ p = .dutyDeparture d) ∨ ∃ g, ev.purpose = .fleetDeparture f g ∧ p = .fleetDeparture g) →
    (∀ n r i x, s.findTram f = some (n, r, i, x) → x.purpose ≠ some p) →
    (ev.event ≠ .forceReleased →
      exec (.stablingDepartureEvent ev) s = .next (s.take (.stablingDepartureEvent ev)).settle) ∧
    (ev.event = .forceReleased →
      let known : Option (Nat × SidingRec) := (((Tbl.find ev.route s.desc.routes).bind RouteDef.fromObj).bind (fun n =>
        (Tbl.find n s.stab.sidings).map (fun r => (n, r)))).filter (fun p => p.2.census = .known)
      ∃ u, exec (.stablingDepartureEvent ev) s = .next u.settle ∧
        Effect [.stabling]
          (s.claims.erase (.stablingDepartureEvent ev) ++ (if known.isSome then reports u .forceReleased none else []) ++
            [.alarmRaise (.departureAbandoned f)])
          (fun s => match known with | some (n, r) => sidingNotice n { r with census := .doubt } 18 s | none => s) none s u ∧
        match known with
        | some (n, r) => OnlySiding n { r with census := .doubt } s u
        | none => u.stab = s.stab)

/-- R132, R134: the progress events of arrival and departure routes on the stack records, and where they find none. -/
def Obligations.RouteEventsOnTheStack : Prop :=
  arrivalRouteEventsOnTheStack ∧ departureRouteEventsOnTheStack ∧ otherPairingsChangeNothing ∧ departureRecordIsGone

/-- R138: a confirmed edge of a body section against the stack. -/
def Obligations.BodyEdgeCrossCheck : Prop :=
  ∀ (m n : Nat) (st : Occ) (c : EdgeCause) (r : SidingRec) (s : State),
    (Tbl.find m s.desc.sections).bind SectionDef.siding = some n → Tbl.find n s.stab.sidings = some r →
    let mismatch : Bool := decide (r.census = .known) &&
      (if st = .occupied then r.stack.isEmpty || (decide (r.stack.length = 1) && r.stack.all (fun x => x.state = .reserved && !x.entered))
       else r.stack.any (fun x => x.state = .stabled))
    ∃ u, exec (.bodyEdge m st c) s = .next u.settle ∧
      Effect [.stabling]
        (s.claims.erase (.bodyEdge m st c) ++
          (if mismatch then reports u .bodyMismatch none ++ [.alarmRaise (.bodyMismatch n)] else []))
        (fun s => if mismatch then sidingNotice n { r with census := .doubt } 17 s else s) none s u ∧
      OnlySiding n (if mismatch then { r with census := .doubt } else r) s u

/-- R135, R136: CENSUS_SET from the planner, row by row. -/
def Obligations.CensusIsDecided : Prop :=
  ∀ (q : Req) (n : Nat) (es : List CensusEntry) (r : SidingRec) (s : State), q.port = .planner → InRun q s →
    Tbl.find n s.stab.sidings = some r → (∀ e ∈ es, isSetByte e.mandatory ∧ isSetByte e.wanted) →
    let elsewhere (f : Nat) : Bool :=
      s.stab.sidings.any (fun p => p.1 ≠ n && p.2.stack.any (fun x => x.fleet = f)) ||
      s.gates.any (fun p => p.2.queue.any (fun a => a.fleet = some f))
    let bad : Option Ans :=
      if r.stack.any (fun x => x.state ≠ .stabled) || r.incoming.isSome || (s.reservedBy r.mouth).isSome then
        some ⟨.refused, some .wrongState, []⟩
      else if 12 < es.length ∨ es.any (fun e => !(1 ≤ e.fleet && e.fleet ≤ 4095 && 10 ≤ e.length && e.length ≤ 80)) then
        some ⟨.refused, some .badArgument, []⟩
      else if r.length < (es.map (fun e => e.length + s.param.spacing)).sum then some ⟨.refused, some .full, []⟩
      else match es.zipIdx.find? (fun p => (es.take p.2).any (fun e => e.fleet = p.1.fleet) || elsewhere p.1.fleet) with
        | some p => some ⟨.refused, some .duplicate, [.u16 p.1.fleet]⟩
        | none =>
          if (es.isEmpty && s.isOccupied r.body) || (!es.isEmpty && s.isClear r.body) then
            some ⟨.refused, some .bodyMismatch, []⟩ else none
    let y : SidingRec := { r with
      census := .known
      stack := es.map (fun e => ⟨e.fleet, e.length, Needs.ofLow e.mandatory, Needs.ofLow e.wanted, .stabled, false, s.minute,
        none, false⟩) }
    ∃ u, exec (.censusSet q n es) s = .next u.settle ∧
      Effect [.stabling]
        (s.claims.erase (.censusSet q n es) ++ (if bad.isNone then reports u .census none else []))
        (fun s => if bad.isNone then sidingNotice n y 10 s else s)
        (some (.censusSet, q, bad.getD ⟨.done, none, []⟩)) s u ∧
      OnlySiding n (if bad.isNone then y else r) s u

/-- R137, R139: SIDING_BLOCK, SIDING_UNBLOCK, SIDING_ABILITIES and SIDING_DOUBT of a defined siding: one field takes a value; a
change is noticed and reported. -/
def Obligations.SidingFieldsChange : Prop :=
  ∀ (q : Req) (n : Nat) (r : SidingRec) (s : State), InRun q s → Tbl.find n s.stab.sidings = some r →
    let takes (c : Instr) (k : Kind) (y : SidingRec) (cause : StackCause) (code : Nat) : Prop :=
      ∃ u, exec c s = .next u.settle ∧
        Effect [.stabling] (s.claims.erase c ++ (if y = r then [] else reports u cause none))
          (fun s => if y = r then s else sidingNotice n y code s) (some (k, q, ⟨.done, none, []⟩)) s u ∧
        OnlySiding n y s u
    (q.port = .desk →
      takes (.sidingBlock q n) .sidingBlock { r with blocked := true } .blocked 12 ∧
      takes (.sidingUnblock q n) .sidingUnblock { r with blocked := false } .unblocked 13 ∧
      takes (.sidingDoubt q n) .sidingDoubt { r with census := .doubt } .doubt 14) ∧
    (q.port = .planner → ∀ ab, isSetByte ab →
      takes (.sidingAbilities q n ab) .sidingAbilities
        { r with abilities := ⟨ab.getLsbD 0, ab.getLsbD 1, ab.getLsbD 2, ab.getLsbD 3⟩ } .abilities 11)

/-- R133, R140: what a SHUNT is refused for, in order; a refusal changes nothing. -/
def shuntRefusals : Prop :=
  ∀ (q : Req) (f t : Nat) (s : State), (q.port = .desk ∨ q.port = .planner) → InRun q s →
    ∀ (tr : SidingRec), Tbl.find t s.stab.sidings = some tr →
    let refused (why : Reason) (l : List Field) : Prop :=
      ∃ u, exec (.shunt q f t) s = .next u.settle ∧
        Effect [] (s.claims.erase (.shunt q f t)) id (some (.shunt, q, ⟨.refused, some why, l⟩)) s u
    (if f = 0 ∨ 4095 < f then refused .badArgument []
     else match s.findTram f with
      | none => refused .unknownTram []
      | some (n, r, i, x) =>
        if x.state = .reserved then refused .unknownTram []
        else if x.state = .called ∨ x.state = .leaving then refused .inUse []
        else if r.census = .doubt then refused .doubt []
        else if r.blocked ∨ r.incoming.isSome then refused .unavailable [.u8 n]
        else if i + 1 ≠ r.stack.length then
          let outside := ((r.stack.drop (i + 1)).reverse.take 5).map StackRec.fleet
          refused .blocked (.u8 outside.length :: outside.map .u16)
        else if t = n then refused .badArgument []
        else if tr.census = .doubt then refused .doubt []
        else if tr.blocked ∨ tr.incoming.isSome then refused .unavailable [.u8 t]
        else if tr.stack.getLast?.any (fun y => y.state ≠ .stabled) then refused .inUse [.u8 t]
        else if 12 ≤ tr.stack.length ∨
            tr.length - (tr.stack.map (fun y => y.length + s.param.spacing)).sum < x.length + s.param.spacing then refused .full []
        else if ¬ covers tr.abilities x.mandatory then refused .noPlace [.u8 1]
        else
          let both := [1, 2].filter (fun h => (s.lookup .shuntOut n h).isSome && (s.lookup .shuntIn h t).isSome)
          if both = [] then refused .unavailable []
          else both.all (fun h => (Tbl.find h s.stab.shunts).isSome) → refused .full [])

/-- R141, R146: the ORDER_INVERSION notice of a tram put on a siding in front of one due out before it; none on an empty siding. -/
def inversionNotice (f t : Nat) (tr : SidingRec) (before : State) (s : State) : State :=
  match tr.stack.getLast? with
  | some o => if isInOrder before (dueOfFleet before f) (t, tr) then s else s.post .stabling 4 [.u16 f, .u8 t, .u16 o.fleet]
  | none => s

/-- R60–R66, R141, R147: a SHUNT that passes its checks: where the route setter refuses the out route, its refusal is the answer and
nothing changes; else entry, incoming field and call, the out route in the table or the store, and the route setter's answer with
the entry number. The notices of the request stand before those of the shunt (log entry 64, DESIGN CHOICE), SHUNT_PHASE has cause none
(log entry 70, DESIGN CHOICE), and the report of the call carries the figure of R127 (log entry 29, DEDUCED). -/
def shuntStarts : Prop :=
  ∀ (q : Req) (f t n i h k : Nat) (r tr : SidingRec) (x : StackRec) (d : RouteDef) (s : State),
    (q.port = .desk ∨ q.port = .planner) → InRun q s → Tbl.wf s.stab.sidings →
    1 ≤ f → f ≤ 4095 → Stands f n r i x s → s.callCheck f = .ok (n, i) →
    Tbl.find t s.stab.sidings = some tr → t ≠ n → s.targetRefusal t x.length x.mandatory none = none →
    [1, 2].find? (fun h => s.hasShuntRoutes n t h && (Tbl.find h s.stab.shunts).isNone) = some h →
    s.lookup .shuntOut n h = some k → s.routeDef k = some d → d.kind = .shuntOut →
    let owner : Owner := if q.port = .desk then .desk else .planner
    match requestRefusal k d s with
    | some (why, object) =>
      ∃ u, exec (.shunt q f t) s = .next u.settle ∧
        Effect [] (s.claims.erase (.shunt q f t)) id (some (.shunt, q, ⟨.refused, some why, object⟩)) s u
    | none => (routePoints d).Nodup →
      ∃ u, exec (.shunt q f t) s = .next u.settle ∧
      Effect [.sections, .points, .routes, .stabling]
        (s.claims.erase (.shunt q f t) ++ requestClaims k owner (.shuntEntry h f) (some f) d s ++ reports u .called none)
        (fun a =>
          let a := stackNotice n f (i + 1) 3 3 (requestNotices k owner (.shuntEntry h f) (some f) d s u a)
          let a := shuntNotice h ⟨f, n, t, owner, .outWait, k, none, .none⟩ 1 [.u8 0] (sidingNotice t { tr with incoming := some h } 3 a)
          inversionNotice f t tr s a)
        (some (.shunt, q, requestAnswer d [.u8 (requestPlace d s), .u8 h] s)) s u ∧
      Requested k owner (.shuntEntry h f) (some f) d s u ∧
      Put h ⟨f, n, t, owner, .outWait, k, none, .none⟩ s.stab.shunts u.stab.shunts ∧
      u.stab.handed = s.stab.handed ∧
      Tbl.find t u.stab.sidings = some { tr with incoming := some h } ∧
      Tbl.find n u.stab.sidings = some (withRecord f (fun y =>
        { y with state := .called, purpose := some (.shuntEntry h), sinceRestart := s.stab.handed }) r) ∧
      ∀ m, m ≠ t → m ≠ n → Tbl.find m u.stab.sidings = Tbl.find m s.stab.sidings

/-- R133, R140, R141: SHUNT, refused and started. -/
def Obligations.ShuntIsDecided : Prop := shuntRefusals ∧ shuntStarts

/-- R91–R96: the stabling block's cancel claim on a route, with what it answers: on a table entry of purpose SHUNT_ENTRY by its state,
on a stored request of that purpose, on a route of another purpose, and on one that stands nowhere. -/
def cancelClaimOnAShuntRoute : Prop :=
  ∀ (k : Nat) (d : RouteDef) (s : State), Tbl.find k s.desc.routes = some d →
    let out := s.cancelShuntRoute k
    let refused (why : Reason) (l : List Field) : Prop := out = (s, ⟨.refused, some why, l⟩)
    (∀ slot e, s.active k = some (slot, e) → Tbl.find slot s.route.table = some e → e.route = k →
      match e.purpose with
      | .shuntEntry _ _ => EntryCancelled s.claims slot e d s out.1 out.2
      | _ => refused .notPermitted []) ∧
    (s.active k = none → match s.stored k with
      | none => refused .wrongState [.u8 0]
      | some e => match e.purpose with
        | .shuntEntry _ _ => out.2 = ⟨.done, none, []⟩ ∧ ∃ t, StoredLeaves s.claims e d 1 s t ∧ out.1 = t.scan
        | _ => refused .notPermitted [])

/-- R96, R146: SHUNT_CANCEL: its refusals; in OUT_WAIT the answer of the cancel claim on the out route, whatever it is
(`cancelClaimOnAShuntRoute`). -/
def shuntCancel : Prop :=
  ∀ (q : Req) (h : Nat) (s : State), (q.port = .desk ∨ q.port = .planner) → InRun q s →
    let c : Instr := .shuntCancel q h
    let answers (t : State) (a : Ans) : Prop :=
      ∃ u, exec c s = .next u.settle ∧ Effect [] t.claims id (some (.shuntCancel, q, a)) t u
    let refused (why : Reason) (l : List Field) : Prop := answers (s.take c) ⟨.refused, some why, l⟩
    match Tbl.find h s.stab.shunts with
    | none => refused .wrongState []
    | some e =>
      if q.port = .planner ∧ e.owner = .desk then refused .notPermitted []
      else if e.phase ≠ .outWait then
        refused .wrongState [.u8 (match e.phase with | .outWait => 1 | .outMoving => 2 | .inWait => 3 | .inMoving => 4)]
      else
        let out := (s.take c).cancelShuntRoute e.outRoute
        answers out.1 out.2

/-- R146: DONE with the route setter's answer, as its status, its reason or 0, and its results (log entry 8). -/
def doneWith (a : Ans) : Ans :=
  ⟨.done, none, [.u8 a.status.code, .u8 ((a.reason.map Reason.code).getD 0)] ++ a.results⟩

/-- R146: SHUNT_RETARGET: its own refusals; in IN_WAIT the checks of the new target, the entry's own record neither the outermost
one nor in the free length, yet one of the 12; nothing to do; the in route requested again; or the record moves to the new target,
where the in route stood in the store or in SETTING after its withdrawal, and the in route is requested anew (`inRouteIsRequested`).
The order of the notices of the move is the model's choice (log entry 64). -/
def shuntRetarget : Prop :=
  ∀ (q : Req) (h t n i : Nat) (e : ShuntEntry) (r tr : SidingRec) (x : StackRec) (s : State), q.port = .desk → InRun q s →
    Tbl.wf s.stab.sidings → Tbl.find t s.stab.sidings = some tr → Tbl.find h s.stab.shunts = some e →
    let c : Instr := .shuntRetarget q h t
    let answers (v : State) (a : Ans) : Prop :=
      ∃ u, exec c s = .next u.settle ∧ Effect [] v.claims id (some (.shuntRetarget, q, a)) v u
    let refused (why : Reason) (l : List Field) : Prop := answers (s.take c) ⟨.refused, some why, l⟩
    if e.phase ≠ .inWait then
      refused .wrongState [.u8 (match e.phase with | .outWait => 1 | .outMoving => 2 | .inWait => 3 | .inMoving => 4)]
    else if e.standing = .table then refused .inUse []
    else Stands e.fleet n r i x s →
      let others := tr.stack.filter (fun y => y.fleet ≠ e.fleet)
      if t = e.source then refused .badArgument []
      else if tr.census = .doubt then refused .doubt []
      else if tr.blocked ∨ tr.incoming.isSome then refused .unavailable [.u8 t]
      else if others.getLast?.any (fun y => y.state ≠ .stabled) then refused .inUse [.u8 t]
      else if 12 ≤ tr.stack.length ∨
          tr.length - (others.map (fun y => y.length + s.param.spacing)).sum < x.length + s.param.spacing then refused .full []
      else if ¬ covers tr.abilities x.mandatory then refused .noPlace [.u8 1]
      else if (s.lookup .shuntIn h t).isNone then refused .unavailable []
      else if t = e.target then
        if e.standing = .stored then answers (s.take c) ⟨.done, none, []⟩
        else
          let out := (s.take c).requestIn h .requested
          answers out.1 (doneWith out.2)
      else
        let moves (v : State) : Prop := t ≠ n → ∃ m,
          Effect [.stabling] (v.claims ++ reports m .moved none)
            (fun a => inversionNotice e.fleet t tr s
              (stackNotice t e.fleet (tr.stack.length + 1) 1 8 (stackNotice n e.fleet (i + 1) 5 8 a))) none v m ∧
          Put h { e with target := t, inRoute := none, standing := .none } s.stab.shunts m.stab.shunts ∧
          m.stab.handed = s.stab.handed ∧
          (∀ j, Tbl.find j m.stab.sidings = if j = t then some { tr with stack := tr.stack ++ [x] }
            else if j = n then some (withoutRecord e.fleet r) else Tbl.find j s.stab.sidings) ∧
          let out := m.requestIn h .requested
          answers out.1 (doneWith out.2)
        match e.standing, e.inRoute with
        | .stored, some k =>
          let withdrawn := (s.take c).cancelShuntRoute k
          match withdrawn.2.status with
          | .done => moves withdrawn.1
          | .refused => answers withdrawn.1 withdrawn.2
          | _ => answers withdrawn.1 ⟨.refused, some .inUse, []⟩
        | _, _ => moves (s.take c)

/-- R96, R146: SHUNT_CANCEL and SHUNT_RETARGET. -/
def Obligations.ShuntRequests : Prop := cancelClaimOnAShuntRoute ∧ shuntCancel ∧ shuntRetarget

/-- R147: the SIDING_STATE notice of a target whose incoming-shunt field is cleared; none where it was none. -/
def clearedNotice (t : Nat) (tr : SidingRec) (cause : Nat) (s : State) : State :=
  if tr.incoming.isSome then sidingNotice t { tr with incoming := none } cause s else s

/-- R137, R147: the SIDING_STATE notice of a siding that a force release puts in DOUBT; none where it stood so. -/
def doubtedNotice (n : Nat) (r : SidingRec) (s : State) : State :=
  if r.census = .known then sidingNotice n { r with census := .doubt } 18 s else s

/-- R142: the record of a shunt moved to its target; it counts no more as called since a hand-over (log entry 58). -/
def movedRecord (h : Nat) (x : StackRec) : StackRec :=
  { x with state := .reserved, entered := false, stabledAt := none, purpose := some (.shuntEntry h), sinceRestart := false }

/-- R142, R147: the notices of that move, from place i of the source to the target's outer end. -/
def moveNotices (e : ShuntEntry) (i : Nat) (tr : SidingRec) (s : State) : State :=
  clearedNotice e.target tr 8 (stackNotice e.target e.fleet (tr.stack.length + 1) 1 8 (stackNotice e.source e.fleet (i + 1) 5 8 s))

/-- R142, R145, R147: the out route's events on a shunt; an event of another fleet or route is none of its own (log entry 36, DEDUCED;
`otherShuntEventsChangeNothing`). Orders and causes where the rules give none: log entries 64 and 70 (DESIGN CHOICE). -/
def shuntOutRouteEvents : Prop :=
  ∀ (h f i : Nat) (e : ShuntEntry) (r tr : SidingRec) (x : StackRec) (ev : RouteEvent) (s : State),
    ev.purpose = .shuntEntry h f → Tbl.find h s.stab.shunts = some e → e.fleet = f → e.outRoute = ev.route →
    Stands f e.source r i x s → Tbl.find e.target s.stab.sidings = some tr → e.target ≠ e.source →
    let left : List Instr := s.claims.erase (.shuntOutEvent ev)
    let sidings (u : State) (source target : SidingRec) : Prop := u.stab.handed = s.stab.handed ∧
      ∀ m, Tbl.find m u.stab.sidings = if m = e.source then some source else if m = e.target then some target
        else Tbl.find m s.stab.sidings
    (e.phase = .outWait → ev.event = .firstEntered →
      ∃ u, exec (.shuntOutEvent ev) s = .next u.settle ∧
        Effect [.stabling] (left ++ reports u .leaving none)
          (fun s => shuntNotice h e 2 [.u8 0] (stackNotice e.source f (i + 1) 4 5 s)) none s u ∧
        sidings u (withRecord f (fun y => { y with state := .leaving }) r) tr ∧
        Put h { e with phase := .outMoving } s.stab.shunts u.stab.shunts) ∧
    (e.phase = .outWait → ev.event ∈ [.expired, .cancelled] ∨ (∃ why, ev.event = .failed why) →
      ∃ u, exec (.shuntOutEvent ev) s = .next u.settle ∧
        Effect [.stabling] (left ++ reports u .uncalled none)
          (fun s => shuntNotice h e 5 [.u8 1, .u8 (if ev.event = .expired then 6 else if ev.event = .cancelled then 7 else 5)]
            (clearedNotice e.target tr 4 (stackNotice e.source f (i + 1) 2 4 s))) none s u ∧
        sidings u (withRecord f backToStabled r) { tr with incoming := none } ∧ Del h s.stab.shunts u.stab.shunts) ∧
    (e.phase = .outMoving → ev.event = .elementReleased 1 → x.state = .leaving →
      ∃ u, exec (.shuntOutEvent ev) s = .next u.settle ∧
        Effect [.stabling] (left ++ reports u .moved none) (moveNotices e i tr) none s u ∧
        sidings u (withoutRecord f r) { tr with incoming := none, stack := tr.stack ++ [movedRecord h x] } ∧
        u.stab.shunts = s.stab.shunts) ∧
    (e.phase = .outMoving → ev.event = .forceReleased →
      ∃ u, exec (.shuntOutEvent ev) s = .next u.settle ∧
        Effect [.stabling] (left ++ reports u .removed none ++ [.alarmRaise (.departureAbandoned f)])
          (fun s => shuntNotice h e 5 [.u8 1, .u8 8]
            (clearedNotice e.target tr 7 (doubtedNotice e.source r (stackNotice e.source f (i + 1) 5 7 s)))) none s u ∧
        sidings u { withoutRecord f r with census := .doubt } { tr with incoming := none } ∧ Del h s.stab.shunts u.stab.shunts)

/-- R144, R147: the in route's events on a shunt whose record stands on the target; the event is the cause of ENDED (log entry 70,
DESIGN CHOICE). -/
def shuntInRouteEvents : Prop :=
  ∀ (h f i : Nat) (e : ShuntEntry) (r : SidingRec) (x : StackRec) (ev : RouteEvent) (s : State),
    ev.purpose = .shuntEntry h f → Tbl.find h s.stab.shunts = some e → e.fleet = f → e.inRoute = some ev.route →
    Stands f e.target r i x s →
    let left : List Instr := s.claims.erase (.shuntInEvent ev)
    (ev.event = .proceed →
      ∃ u, exec (.shuntInEvent ev) s = .next u.settle ∧ Effect [.stabling] left id none s u ∧
        Put h { e with standing := .table } s.stab.shunts u.stab.shunts ∧ u.stab.sidings = s.stab.sidings ∧
        u.stab.handed = s.stab.handed) ∧
    (ev.event = .firstEntered →
      ∃ u, exec (.shuntInEvent ev) s = .next u.settle ∧
        Effect [.stabling] left (shuntNotice h e 4 [.u8 0]) none s u ∧
        Put h { e with phase := .inMoving } s.stab.shunts u.stab.shunts ∧
        Put e.target (withRecord f (fun y => { y with entered := true }) r) s.stab.sidings u.stab.sidings ∧
        u.stab.handed = s.stab.handed) ∧
    (ev.event = .complete →
      ∃ u, exec (.shuntInEvent ev) s = .next u.settle ∧
        Effect [.stabling] (left ++ reports u .stabled none)
          (fun s => shuntNotice h e 5 [.u8 1, .u8 4] (s.post .stabling 1 [.u16 f, .u8 e.target, .u8 (i + 1)])) none s u ∧
        Del h s.stab.shunts u.stab.shunts ∧
        Put e.target (withRecord f (fun y => { backToStabled y with entered := false, stabledAt := s.minute }) r)
          s.stab.sidings u.stab.sidings ∧ u.stab.handed = s.stab.handed) ∧
    (ev.event = .cancelled →
      ∃ u, exec (.shuntInEvent ev) s = .next u.settle ∧
        Effect [.stabling] left (fun s => shuntNotice h e
          (match e.phase with | .outWait => 1 | .outMoving => 2 | .inWait => 3 | .inMoving => 4) [.u8 5] s) none s u ∧
        Put h { e with inRoute := none, standing := .none } s.stab.shunts u.stab.shunts ∧ u.stab.sidings = s.stab.sidings ∧
        u.stab.handed = s.stab.handed) ∧
    (ev.event = .forceReleased →
      ∃ u, exec (.shuntInEvent ev) s = .next u.settle ∧
        Effect [.stabling] (left ++ reports u .removed none)
          (fun s => shuntNotice h e 5 [.u8 1, .u8 8] (doubtedNotice e.target r (stackNotice e.target f (i + 1) 5 7 s))) none s u ∧
        Del h s.stab.shunts u.stab.shunts ∧
        Put e.target { withoutRecord f r with census := .doubt } s.stab.sidings u.stab.sidings ∧ u.stab.handed = s.stab.handed)

/-- The code of a shunt's phase. -/
def phaseOf (e : ShuntEntry) : Nat := match e.phase with | .outWait => 1 | .outMoving => 2 | .inWait => 3 | .inMoving => 4

/-- R143: the request of the in route, with the cause noticed with it (log entry 42): not made for a blocked target; refused;
taken into the table; or stored. -/
def inRouteIsRequested : Prop :=
  ∀ (h : Nat) (asked : ShuntCause) (e : ShuntEntry) (s : State), Tbl.find h s.stab.shunts = some e →
    let out := s.requestIn h asked
    let t := out.1
    let none' : ShuntEntry := { e with inRoute := none, standing := .none }
    let fails (posts : State → State) (a : Ans) : Prop :=
      out.2 = a ∧ Effect [.stabling] s.claims posts none s t ∧ Put h none' s.stab.shunts t.stab.shunts ∧
      t.stab.sidings = s.stab.sidings ∧ t.stab.handed = s.stab.handed
    let refused (why : Reason) (object : List Field) : Prop :=
      fails (fun s => shuntNotice h e (phaseOf e) [.u8 3, .u8 why.code] (shuntNotice h e (phaseOf e) asked.fields s))
        ⟨.refused, some why, object⟩
    if (Tbl.find e.target s.stab.sidings).any SidingRec.blocked then
      fails (shuntNotice h e (phaseOf e) [.u8 2]) ⟨.refused, some .unavailable, [.u8 e.target]⟩
    else match s.lookup .shuntIn h e.target with
      | none => fails (shuntNotice h e (phaseOf e) [.u8 3, .u8 4]) ⟨.refused, some .unavailable, []⟩
      | some k => ∀ d, Tbl.find k s.desc.routes = some d → d.kind = .shuntIn →
        match requestRefusal k d s with
        | some (why, object) => refused why object
        | none => (routePoints d).Nodup →
          Effect [.sections, .points, .routes, .stabling]
            (s.claims ++ requestClaims k e.owner (.shuntEntry h e.fleet) (some e.fleet) d s)
            (fun a => shuntNotice h e (phaseOf e) asked.fields
              (requestNotices k e.owner (.shuntEntry h e.fleet) (some e.fleet) d s t a)) none s t ∧
          Put h { e with inRoute := some k, standing := if (slotTaken d s).isSome then .table else .stored }
            s.stab.shunts t.stab.shunts ∧
          t.stab.sidings = s.stab.sidings ∧ t.stab.handed = s.stab.handed ∧
          out.2 = requestAnswer d [.u8 (requestPlace d s)] s ∧
          Requested k e.owner (.shuntEntry h e.fleet) (some e.fleet) d s t

/-- R142–R145: COMPLETE of the out route, after the move and with it; its force release with the record already on the target;
and FAILED and EXPIRED of the in route, after which it is requested again. -/
def shuntRoutesEnd : Prop :=
  ∀ (h f i : Nat) (e : ShuntEntry) (r other : SidingRec) (x : StackRec) (ev : RouteEvent) (s : State),
    ev.purpose = .shuntEntry h f → Tbl.find h s.stab.shunts = some e → e.fleet = f → e.target ≠ e.source →
    (e.phase = .outMoving → e.outRoute = ev.route → Stands f e.target r i x s → Tbl.find e.source s.stab.sidings = some other →
      (ev.event = .complete →
        ∃ t, exec (.shuntOutEvent ev) s = .next ((t.requestIn h .requested).1).settle ∧
          Effect [.stabling] (s.claims.erase (.shuntOutEvent ev)) (shuntNotice h e 3 [.u8 0]) none s t ∧
          Put h { e with phase := .inWait } s.stab.shunts t.stab.shunts ∧
          t.stab.sidings = s.stab.sidings ∧ t.stab.handed = s.stab.handed) ∧
      (ev.event = .forceReleased →
        ∃ u, exec (.shuntOutEvent ev) s = .next u.settle ∧
          Effect [.stabling]
            (s.claims.erase (.shuntOutEvent ev) ++ reports u .removed none ++ [.alarmRaise (.departureAbandoned f)])
            (fun s => shuntNotice h e 5 [.u8 1, .u8 8]
              (clearedNotice e.target r 7 (doubtedNotice e.source other (stackNotice e.target f (i + 1) 5 7 s)))) none s u ∧
          Del h s.stab.shunts u.stab.shunts ∧ u.stab.handed = s.stab.handed ∧
          ∀ m, Tbl.find m u.stab.sidings = if m = e.source then some { other with census := .doubt }
            else if m = e.target then some { withoutRecord f r with incoming := none } else Tbl.find m s.stab.sidings)) ∧
    (e.phase = .outMoving → e.outRoute = ev.route → Stands f e.source r i x s → x.state = .leaving →
      Tbl.find e.target s.stab.sidings = some other → ev.event = .complete →
      ∃ t, exec (.shuntOutEvent ev) s = .next ((t.requestIn h .requested).1).settle ∧
        Effect [.stabling] (s.claims.erase (.shuntOutEvent ev) ++ reports t .moved none)
          (fun s => shuntNotice h e 3 [.u8 0] (moveNotices e i other s)) none s t ∧
        Put h { e with phase := .inWait } s.stab.shunts t.stab.shunts ∧ t.stab.handed = s.stab.handed ∧
        ∀ m, Tbl.find m t.stab.sidings = if m = e.source then some (withoutRecord f r)
          else if m = e.target then some { other with incoming := none, stack := other.stack ++ [movedRecord h x] }
          else Tbl.find m s.stab.sidings) ∧
    (e.inRoute = some ev.route → s.findTram f ≠ none → ev.event = .expired ∨ (∃ why, ev.event = .failed why) →
      exec (.shuntInEvent ev) s =
        .next (((s.take (.shuntInEvent ev)).requestIn h (.requestedAgain ev.event)).1).settle ∧
      (ShuntCause.requestedAgain ev.event).fields = [.u8 4, .u8 (if ev.event = .expired then 6 else 5)]) ∧
    ShuntCause.requested.fields = [.u8 6]

/-- R142: the pairings of a shunt's phase and an event of its out route that have an effect; the release of element 1 has one while
the record is LEAVING on the source. -/
def outPairing (phase : ShuntPhase) (ev : Progress) : Bool :=
  match phase, ev with
  | .outWait, .firstEntered | .outWait, .failed _ | .outWait, .expired | .outWait, .cancelled => true
  | .outMoving, .complete | .outMoving, .forceReleased => true
  | .outMoving, .elementReleased k => k = 1
  | _, _ => false

/-- R76, R142, R144: an event of a route that is not the out route of its entry, or not its in route, changes nothing, nor does one
whose entry has gone or is another fleet's (log entry 36, DEDUCED); and any other pairing of a phase with an event of the out route,
and ELEMENT-RELEASED of the in route, change nothing. -/
def otherShuntEventsChangeNothing : Prop :=
  ∀ (h f : Nat) (ev : RouteEvent) (s : State), ev.purpose = .shuntEntry h f →
    ((∀ e, Tbl.find h s.stab.shunts = some e → e.fleet = f → e.outRoute = ev.route → outPairing e.phase ev.event = false ∨
        (ev.event = .elementReleased 1 ∧ ∀ n r i x, s.findTram f = some (n, r, i, x) → n ≠ e.source ∨ x.state ≠ .leaving)) →
      exec (.shuntOutEvent ev) s = .next (s.take (.shuntOutEvent ev)).settle) ∧
    ((∀ e, Tbl.find h s.stab.shunts = some e → e.fleet = f → e.inRoute = some ev.route → ∃ k, ev.event = .elementReleased k) →
      exec (.shuntInEvent ev) s = .next (s.take (.shuntInEvent ev)).settle)

/-- R142–R145: the progress events of a shunt's routes, and the request of its in route. -/
def Obligations.ShuntRouteEvents : Prop :=
  shuntOutRouteEvents ∧ shuntInRouteEvents ∧ inRouteIsRequested ∧ shuntRoutesEnd ∧ otherShuntEventsChangeNothing

/-- R148: a record after a restart; none where it is removed. -/
def restartedRecord (x : StackRec) : Option StackRec :=
  if x.sinceRestart then some { x with sinceRestart := false }
  else if x.state = .reserved then none
  else if x.state = .stabled then some x
  else some (backToStabled x)

/-- R147, R148: the notices of one siding at a restart: STACK_CHANGE of each record that is removed or becomes STABLED, then
SIDING_STATE where its census or its incoming-shunt field changes. -/
def restartNotices (s : State) (p : Nat × SidingRec) : State :=
  let s := p.2.stack.zipIdx.foldl (fun s x => match restartedRecord x.1 with
    | none => stackNotice p.1 x.1.fleet (x.2 + 1) 5 15 s
    | some y => if y.state = x.1.state then s else stackNotice p.1 x.1.fleet (x.2 + 1) 2 15 s) s
  let doubted : Bool := p.2.stack.any (fun x => !x.sinceRestart && (x.state = .reserved || x.state = .leaving))
  if (doubted && decide (p.2.census = .known)) || p.2.incoming.isSome then
    sidingNotice p.1 { p.2 with incoming := none, census := if doubted then .doubt else p.2.census } 15 s
  else s

/-- R148: a restart at the stabling block (records called since the hand-over: log entries 34 and 58). The order of its notices, by
rising siding and from the buffer stop, and that the emptied shunt table posts no SHUNT_PHASE of phase ENDED are the model's choice
(log entries 65 and 67). -/
def Obligations.StablingRestartSettles : Prop :=
  ∀ s : State, ∃ u, exec .stablingRestart s = .next u.settle ∧ KeepsAllBut [.stabling] s u ∧ Answered none s u ∧
    (Tbl.wf s.stab.sidings → Notes (fun t => s.stab.sidings.foldl restartNotices t) s u) ∧
    u.claims = s.claims.erase .stablingRestart ++
      (s.stab.sidings.filter (fun p => p.2.stack.any (fun x => !x.sinceRestart && x.state = .reserved &&
        (x.entered || match x.purpose with | some (.shuntEntry _) => true | _ => false)))).map (fun p => .alarmRaise (.stranded p.1)) ++
      reports u .restart none ++ [.restartTakenReport .stabling] ∧
    u.stab.shunts = [] ∧ u.stab.handed = false ∧
    ∀ m, Tbl.find m u.stab.sidings = (Tbl.find m s.stab.sidings).map (fun r => { r with
      stack := r.stack.filterMap restartedRecord, incoming := none
      census := if r.stack.any (fun x => !x.sinceRestart && (x.state = .reserved || x.state = .leaving)) then .doubt else r.census })

/-! ## Roster block (08) -/

/-- A tram stands where a call for a departure to a gate finds it (R133, R153). -/
def MayBeCalled (f siding g i : Nat) (r : SidingRec) (x : StackRec) (s : State) : Prop :=
  Stands f siding r i x s ∧ s.callCheck f = .ok (siding, i) ∧ s.lineHeld g = false

/-- What is given of a departure that can be made: the tram may be called, and its route is not refused. -/
def MayDepart (f siding g k i : Nat) (r : SidingRec) (x : StackRec) (d : RouteDef) (s : State) : Prop :=
  MayBeCalled f siding g i r x s ∧ s.lookup .departure siding g = some k ∧ s.routeDef k = some d ∧ d.kind = .departure ∧
  requestRefusal k d s = none ∧ (routePoints d).Nodup

/-- R156: the refusal of a departure whose tram has been called: there is no route, or the route setter's refusal of it. -/
def departureRefusal (siding g : Nat) (s : State) : Option (Reason × List Field) :=
  match s.lookup .departure siding g with
  | none => some (.unavailable, [.u8 siding])
  | some k => (s.routeDef k).bind (fun d => if d.kind = .departure then requestRefusal k d s else none)

/-- R133, R156: a call that a refused route undoes: the record is called and back in STABLED, each with its notice and its
reports, with the figure of R127 (log entry 29, DEDUCED), and of the roster the duties are as given. -/
def CallUndone (f siding i : Nat) (p : StackPurpose) (r : SidingRec) (duties : List Duty) (left : List Instr)
    (answer : Option (Kind × Req × Ans)) (s u : State) : Prop :=
  Effect [.stabling, .roster] (left ++ reports (s.callClaim f p).1 .called none ++ reports u .uncalled none)
    (fun s => stackNotice siding f (i + 1) 2 4 (stackNotice siding f (i + 1) 3 3 s)) answer s u ∧
  OnlySiding siding (withRecord f backToStabled r) s u ∧ u.roster = { s.roster with duties := duties }

/-- R155, R156: a duty's entry with its selection binding undone. -/
def unbound (y : Duty) : Duty := if y.bound then { y with fleet := none, bound := false } else y

/-- R155: a tram is the one selected for an open duty: the candidate with the earliest stabled-at, an absent one counting as 0,
then of the lower siding. -/
def IsSelected (e : Duty) (f siding : Nat) (r : SidingRec) (x : StackRec) (s : State) : Prop :=
  let candidate := s.selectable e.gate e.minLength (s.roster.duties.filterMap Duty.fleet)
  x.fleet = f ∧ (siding, r) ∈ s.stab.sidings ∧ candidate (siding, r) = some (siding, x) ∧
  ∀ p ∈ s.stab.sidings, ∀ n y, candidate p = some (n, y) →
    (n = siding ∧ y = x) ∨ x.stabledAt.getD 0 < y.stabledAt.getD 0 ∨ (x.stabledAt.getD 0 = y.stabledAt.getD 0 ∧ siding < n)

/-- R133, R153, R156: what a departure made changes beside the roster: the record is CALLED, which is reported, and the route stands in
the table or the store for its owner; the notices are those of the call and of the request, and then that of the departure. The report
of the call carries the figure of R127 (log entry 29, DEDUCED). -/
def DepartureMade (duty : Option Nat) (f siding g k i : Nat) (owner : Owner) (r : SidingRec) (d : RouteDef) (left : List Instr)
    (answer : Option (Kind × Req × Ans)) (s u : State) : Prop :=
  let p : StackPurpose := match duty with | some n => .dutyDeparture n | none => .fleetDeparture g
  let purpose : Purpose := match duty with | some n => .dutyDeparture n f | none => .fleetDeparture f g
  Effect [.sections, .points, .routes, .stabling, .roster]
    (left ++ reports (s.callClaim f p).1 .called none ++ requestClaims k owner purpose (some f) d s)
    (fun a => (requestNotices k owner purpose (some f) d s u (stackNotice siding f (i + 1) 3 3 a)).post .roster 4
      [.u16 (duty.getD 65535), .u16 f, .u8 siding, .u8 g, .u8 k, .u8 owner.code, .u8 (requestPlace d s)]) answer s u ∧
  Requested k owner purpose (some f) d s u ∧
  OnlySiding siding (withRecord f (fun y => { y with state := .called, purpose := some p, sinceRestart := s.stab.handed }) r) s u

/-- R155, R156: a departure made for a duty: its departure record stands in the duty's entry, which an open duty's selection binds to
the fleet. -/
def DutyDeparts (n f siding g k i : Nat) (bound : Bool) (owner : Owner) (r : SidingRec) (d : RouteDef) (left : List Instr)
    (answer : Option (Kind × Req × Ans)) (s u : State) : Prop :=
  let dep : Departure := ⟨f, siding, g, k, owner, slotTaken d s, .called⟩
  DepartureMade (some n) f siding g k i owner r d left answer s u ∧
  u.roster = { s.roster with duties := s.roster.duties.map (fun y => if y.duty = n then
    { y with fleet := if bound then some f else y.fleet, bound := bound || y.bound, departure := some dep, lastRefusal := none }
    else y) }

/-- R150: CLOCK_SET, and the minute timer's expiry where it makes no minute event or finds no PLANNED entry. -/
def clockIsSetAndAdvances : Prop :=
  (∀ (q : Req) (m : Nat) (s : State), q.port = .planner → InRun q s →
    ∃ u, exec (.clockSet q m) s = .next u.settle ∧
      Effect [.roster] (s.claims.erase (.clockSet q m))
        (fun x => if m ≤ 2879 then
          ({ x with roster := u.roster }).post .roster 1 [.u16 (s.roster.clock.getD 65535), .u16 m] else x)
        (some (.clockSet, q, if m ≤ 2879 then ⟨.done, none, []⟩ else ⟨.refused, some .badArgument, []⟩)) s u ∧
      u.roster = if m ≤ 2879 then { s.roster with clock := some m, minuteTimer := some 60000 } else s.roster) ∧
  (∀ s : State, (∀ d ∈ s.roster.duties, d.departure.isSome) ∨ s.roster.clock = none ∨ s.roster.clock = some 2879 →
    ∃ u, exec .minuteTimerExpiry s = .next u.settle ∧ Effect [.roster] s.claims id none s u ∧
      u.roster = match s.roster.clock with
        | none => s.roster
        | some m => { s.roster with clock := some (if m < 2879 then m + 1 else m), minuteTimer := some 60000 })

/-- The DUE_BLOCKED notice of an entry: reason BLOCKED 13 (R173), NOT_READY 3 (log entry 8), with the fleets outside. -/
def dueNotice (n : Nat) (f : Option Nat) (reason : Nat) (outside : List Field) (s : State) : State :=
  s.post .roster 6 ([.u16 n, .u16 (f.getD 65535), .u8 reason] ++ outside)

/-- R160: the minute event takes the PLANNED entries in roster order; the auto-call of an entry is passed by where one of its
conditions does not hold, and else is a DEPART by duty for owner AUTO, whose refusal the entry keeps. -/
def minuteEventCalls : Prop :=
  (∀ (m : Nat) (s : State), s.roster.clock = some m → m < 2879 →
    exec .minuteTimerExpiry s = .next
      (((s.roster.duties.filter (fun d => d.departure.isNone)).map Duty.duty).foldl (State.minuteTests (m + 1))
        { s with roster := { s.roster with clock := some (m + 1), minuteTimer := some 60000 } }).settle) ∧
  ∀ (now : Nat) (e : Duty) (s : State),
    (s.autoDue now e = true ↔ e.due ≤ now + s.param.callLead ∧ s.roster.auto e.gate = true ∧ s.lineHeld e.gate = false ∧
      s.roster.halt = false) ∧
    (s.autoDue now e = false → s.autoCall now e = s) ∧
    ∀ t why l, s.autoDue now e = true → s.departDuty e.duty .auto = (t, ⟨.refused, some why, l⟩) →
      let noted := t.onDuty e.duty (fun x => { x with lastRefusal := some why })
      s.autoCall now e = if why = .blocked ∧ e.dueNotified = false then
        dueNotice e.duty e.fleet 13 l (noted.onDuty e.duty (fun x => { x with dueNotified := true })) else noted

/-- R161, R162: what the due test and the late test do to the entry `e` of duty `n`, as it stands in `s`, is the passage from `s`
to `u`. -/
def DueAndLateTests (now n : Nat) (e : Duty) (s u : State) : Prop :=
  let stands (f : Nat) : Option (Nat × List Nat) :=
    match s.findTram f with
    | some (_, r, i, x) =>
      if x.state = .stabled then
        if i + 1 = r.stack.length then none
        else some (13, (((r.stack.drop (i + 1)).reverse).take 5).map StackRec.fleet)
      else some (3, [])
    | none => some (3, [])
  let due : Option (Nat × Nat × List Nat) :=
    match e.fleet with
    | some f => if e.dueNotified = false ∧ e.due ≤ now + s.param.dueNoticeLead then (stands f).map (fun p => (f, p)) else none
    | none => none
  let late : Bool := !e.lateNotified && decide (e.due < now)
  Effect [.roster] s.claims
    (fun s =>
      let s := match due with | some (f, k, l) => dueNotice n (some f) k (.u8 l.length :: l.map .u16) s | none => s
      if late then s.post .roster 7 [.u16 n, .u16 e.due, .u16 (e.fleet.getD 65535), .u8 ((e.lastRefusal.map Reason.code).getD 0)]
      else s) none s u ∧
  u.roster = { s.roster with duties := s.roster.duties.map (fun d => if d.duty = n then
    { d with dueNotified := d.dueNotified || due.isSome, lateNotified := d.lateNotified || late } else d) }

/-- R160–R162: the tests of the minute event on one entry. One that is not PLANNED is passed by; a PLANNED one has its auto-call
test, and then, as that test left it, the due test and the late test, unless the auto-call took it to CALLED. -/
def minuteEventTests : Prop :=
  ∀ (now n : Nat) (s : State),
    let entry (t : State) : Option Duty := t.roster.duties.find? (fun d => d.duty = n)
    match entry s with
    | none => s.minuteTests now n = s
    | some e =>
      if e.departure.isSome then s.minuteTests now n = s
      else
        let called := s.autoCall now e
        match entry called with
        | none => s.minuteTests now n = called
        | some y =>
          if y.departure.isSome then s.minuteTests now n = called else DueAndLateTests now n y called (s.minuteTests now n)

/-- R153–R155, R160: an auto-call whose tram cannot be called, or for which no tram can be selected, is refused as a DEPART is and
changes nothing itself; that of a call undone is `departIsUndone`. -/
def autoCallIsRefused : Prop :=
  ∀ (n : Nat) (e : Duty) (s : State), s.roster.duties.find? (fun d => d.duty = n) = some e → e.departure = none →
    s.lineHeld e.gate = false →
    match e.fleet with
    | some f => ∀ a, s.callCheck f = .error a → s.departDuty n .auto = (s, a)
    | none => (∀ p ∈ s.stab.sidings, s.selectable e.gate e.minLength (s.roster.duties.filterMap Duty.fleet) p = none) →
        s.departDuty n .auto = (s, ⟨.refused, some .noTram, []⟩)

/-- R153–R156, R160: an auto-call that can be made, of a duty with a fleet or of an open one, makes the departure for owner AUTO,
and answers nobody; it keeps no refusal. -/
def autoCallIsMade : Prop :=
  ∀ (now n f siding k i : Nat) (e : Duty) (r : SidingRec) (x : StackRec) (d : RouteDef) (s : State),
    s.autoDue now e = true → s.roster.duties.find? (fun y => y.duty = n) = some e → e.departure = none →
    MayDepart f siding e.gate k i r x d s → e.fleet = some f ∨ (e.fleet = none ∧ IsSelected e f siding r x s) →
    DutyDeparts n f siding e.gate k i e.fleet.isNone .auto r d s.claims none s (s.autoCall now e)

/-- R150, R160–R162: the clock, and the minute event's tests. -/
def Obligations.ClockAndMinuteEvent : Prop :=
  clockIsSetAndAdvances ∧ minuteEventCalls ∧ minuteEventTests ∧ autoCallIsMade ∧ autoCallIsRefused

/-- R151: ROSTER_ADD from the planner. -/
def rosterAdds : Prop :=
  ∀ (q : Req) (n due g : Nat) (f l : Option Nat) (s : State), q.port = .planner → InRun q s →
    let inRange : Bool := decide (1 ≤ n ∧ n ≤ 999 ∧ due ≤ 2879) && (Tbl.find g s.gates).isSome &&
      f.all (fun x => decide (1 ≤ x ∧ x ≤ 4095)) && l.all (fun x => decide (10 ≤ x ∧ x ≤ 80))
    let why : Option Ans :=
      if !inRange then some ⟨.refused, some .badArgument, []⟩
      else if 96 ≤ s.roster.duties.length then some ⟨.refused, some .full, []⟩
      else (s.roster.duties.find? (fun d => d.duty = n || (f.isSome && d.fleet = f))).map (fun d =>
        ⟨.refused, some .duplicate, [.u16 d.duty]⟩)
    let d : Duty := ⟨n, due, g, f, l, false, false, false, none, none⟩
    ∃ u, exec (.rosterAdd q n due g f l) s = .next u.settle ∧
      Effect [.roster] (s.claims.erase (.rosterAdd q n due g f l))
        (fun s => if why.isNone then s.post .roster 2 [.u16 n, .u16 due, .u8 g, .u16 (f.getD 65535), .u8 1, .u8 1] else s)
        (some (.rosterAdd, q, why.getD ⟨.done, none, []⟩)) s u ∧
      if why.isSome then u.roster = s.roster
      else ∃ a b, s.roster.duties = a ++ b ∧ u.roster = { s.roster with duties := a ++ d :: b } ∧
        (∀ x ∈ a, x.due < due ∨ (x.due = due ∧ x.duty ≤ n)) ∧
        ∀ x, b.head? = some x → due < x.due ∨ (due = x.due ∧ n < x.duty)

/-- R152: ROSTER_REMOVE and ROSTER_CLEAR from the planner, the latter's notices in roster order (log entry 65, DESIGN CHOICE), each with
the entry as it last stood (72, DESIGN CHOICE). -/
def rosterRemoves : Prop :=
  ∀ (q : Req) (s : State), q.port = .planner → InRun q s →
    (∀ n, let found := s.roster.duties.find? (fun d => d.duty = n)
      let gone : Option Duty := found.filter (fun d => d.departure.isNone)
      ∃ u, exec (.rosterRemove q n) s = .next u.settle ∧
        Effect [.roster] (s.claims.erase (.rosterRemove q n))
          (fun s => match gone with
            | some d => s.post .roster 2 [.u16 n, .u16 d.due, .u8 d.gate, .u16 (d.fleet.getD 65535), .u8 1, .u8 2]
            | none => s)
          (some (.rosterRemove, q, if gone.isSome then ⟨.done, none, []⟩
            else ⟨.refused, some (if found.isSome then .wrongState else .badArgument), []⟩)) s u ∧
        u.roster = if gone.isSome then { s.roster with duties := s.roster.duties.filter (fun d => d.duty ≠ n) } else s.roster) ∧
    (let gone := s.roster.duties.filter (fun d => d.departure.isNone)
      ∃ u, exec (.rosterClear q) s = .next u.settle ∧
        Effect [.roster] (s.claims.erase (.rosterClear q))
          (fun s => gone.foldl (fun s d =>
            s.post .roster 2 [.u16 d.duty, .u16 d.due, .u8 d.gate, .u16 (d.fleet.getD 65535), .u8 1, .u8 2]) s)
          (some (.rosterClear, q, ⟨.done, none, [.u8 gone.length]⟩)) s u ∧
        u.roster = { s.roster with duties := s.roster.duties.filter (fun d => d.departure.isSome) })

/-- R152: ROSTER_AUTO from the planner; settings on 1, off 2 (log entry 8). -/
def rosterAutoSets : Prop :=
  ∀ (q : Req) (g st : Nat) (s : State), q.port = .planner → InRun q s →
    let ok : Bool := (st = 1 || st = 2) && (Tbl.find g s.gates).isSome
    let was : Bool := if g = 1 then s.roster.auto1 else s.roster.auto2
    let v : Bool := decide (st = 1)
    ∃ u, exec (.rosterAuto q g st) s = .next u.settle ∧
      Effect [.roster] (s.claims.erase (.rosterAuto q g st))
        (fun s => if ok && v ≠ was then s.post .roster 3 [.u8 g, .u8 st] else s)
        (some (.rosterAuto, q, if ok then ⟨.done, none, []⟩ else ⟨.refused, some .badArgument, []⟩)) s u ∧
      u.roster = if ok then if g = 1 then { s.roster with auto1 := v } else { s.roster with auto2 := v } else s.roster

/-- R151, R152: the planner's requests on the roster. -/
def Obligations.RosterEntriesComeAndGo : Prop := rosterAdds ∧ rosterRemoves ∧ rosterAutoSets

/-- R153–R155: what a DEPART is refused for before a tram is called or by the call, in order; such a refusal changes
nothing. -/
def departRefusals : Prop :=
  ∀ (q : Req) (s : State), InRun q s →
    let answers (c : Instr) (a : Ans) : Prop :=
      ∃ u, exec c s = .next u.settle ∧ Effect [] (s.claims.erase c) id (some (.depart, q, a)) s u
    let refused (c : Instr) (why : Reason) (l : List Field) : Prop := answers c ⟨.refused, some why, l⟩
    (∀ n, let c : Instr := .depart q (some n) none none
      match s.roster.duties.find? (fun d => d.duty = n) with
      | none => refused c .badArgument []
      | some d =>
        if d.departure.isSome then refused c .inUse [.u16 (d.fleet.getD 65535)]
        else if s.lineHeld d.gate then refused c .lineHeld []
        else match d.fleet with
          | some f => ∀ a, s.callCheck f = .error a → answers c a
          | none => (∀ p ∈ s.stab.sidings, s.selectable d.gate d.minLength (s.roster.duties.filterMap Duty.fleet) p = none) →
              refused c .noTram []) ∧
    (∀ f g, let c : Instr := .depart q none (some f) (some g)
      if f = 0 ∨ 4095 < f ∨ Tbl.find g s.gates = none then refused c .badArgument []
      else if s.lineHeld g then refused c .lineHeld []
      else match s.roster.duties.find? (fun d => d.fleet = some f) with
        | some d => refused c .conflict [.u16 d.duty]
        | none => ∀ a, s.callCheck f = .error a → answers c a) ∧
    (∀ d f g, ¬ (d.isSome ∧ f = none ∧ g = none) → ¬ (d = none ∧ f.isSome ∧ g.isSome) → refused (.depart q d f g) .badArgument [])

/-- R154, R156: a DEPART of a named tram that can be made: the record is CALLED, the route requested, the departure record
made, and the answer is the route setter's, with duty, fleet, siding, route and slot or position. -/
def departIsMade : Prop :=
  ∀ (q : Req) (f siding g k i : Nat) (r : SidingRec) (x : StackRec) (d : RouteDef) (s : State),
    InRun q s → MayDepart f siding g k i r x d s →
    let owner : Owner := match q.port with | .desk => .desk | .planner => .planner | .line => .line
    let made (c : Instr) (duty : Option Nat) (put : Departure → Roster) : Prop :=
      ∃ u, exec c s = .next u.settle ∧
        DepartureMade duty f siding g k i owner r d (s.claims.erase c) (some (.depart, q, requestAnswer d
          [.u16 (duty.getD 65535), .u16 f, .u8 siding, .u8 k, .u8 (requestPlace d s)] s)) s u ∧
        u.roster = put ⟨f, siding, g, k, owner, slotTaken d s, .called⟩
    (∀ n e, s.roster.duties.find? (fun y => y.duty = n) = some e → e.departure = none → e.fleet = some f → e.gate = g →
      made (.depart q (some n) none none) (some n) (fun dep => { s.roster with
        duties := s.roster.duties.map (fun y => if y.duty = n then { y with departure := some dep, lastRefusal := none } else y) })) ∧
    (1 ≤ f → f ≤ 4095 → (Tbl.find g s.gates).isSome → (∀ y ∈ s.roster.duties, y.fleet ≠ some f) →
      made (.depart q none (some f) (some g)) none (fun dep => { s.roster with
        fleetDepartures := s.roster.fleetDepartures.filter (fun y => y.fleet ≠ f) ++ [dep] }))

/-- R155: what makes the outermost record of a siding a candidate for an open duty at a gate; the fleets that the roster carries
are none. -/
def selectionCandidates : Prop :=
  ∀ (g : Nat) (least : Option Nat) (carried : List Nat) (n : Nat) (r : SidingRec) (s : State),
    match s.selectable g least carried (n, r) with
    | none => ∀ x, r.stack.getLast? = some x → x.state ≠ .stabled ∨ x.fleet ∈ carried ∨ (∃ m, least = some m ∧ x.length < m) ∨
        r.census = .doubt ∨ r.blocked = true ∨ r.incoming.isSome = true ∨
        ∀ k d, s.lookup .departure n g = some k → Tbl.find k s.desc.routes = some d → s.unavailableObject d ≠ none
    | some (m, x) => m = n ∧ r.stack.getLast? = some x ∧ x.state = .stabled ∧ x.fleet ∉ carried ∧
        (∀ m, least = some m → m ≤ x.length) ∧ r.census = .known ∧ r.blocked = false ∧ r.incoming = none ∧
        ∃ k d, s.lookup .departure n g = some k ∧ Tbl.find k s.desc.routes = some d ∧ s.unavailableObject d = none

/-- R155, R156: a DEPART of an open duty that can be made: the tram selected is called and bound to the duty. -/
def openDutyDeparts : Prop :=
  ∀ (q : Req) (n f siding k i : Nat) (e : Duty) (r : SidingRec) (x : StackRec) (d : RouteDef) (s : State),
    InRun q s → s.roster.duties.find? (fun y => y.duty = n) = some e → e.departure = none → e.fleet = none →
    MayDepart f siding e.gate k i r x d s → IsSelected e f siding r x s →
    let owner : Owner := match q.port with | .desk => .desk | .planner => .planner | .line => .line
    let c : Instr := .depart q (some n) none none
    ∃ u, exec c s = .next u.settle ∧
      DutyDeparts n f siding e.gate k i true owner r d (s.claims.erase c) (some (.depart, q, requestAnswer d
        [.u16 n, .u16 f, .u8 siding, .u8 k, .u8 (requestPlace d s)] s)) s u

/-- R156: a departure whose tram is called and whose route is refused, or that has no route: the call is undone, and with it the
binding of a selection; from a master, for a duty with its fleet, an open one and a fleet, and within an auto-call. -/
def departIsUndone : Prop :=
  ∀ (q : Req) (f siding g i : Nat) (r : SidingRec) (x : StackRec) (why : Reason) (object : List Field) (s : State),
    MayBeCalled f siding g i r x s → departureRefusal siding g s = some (why, object) →
    let a : Ans := ⟨.refused, some why, object⟩
    let undone (c : Instr) (p : StackPurpose) (duties : List Duty) : Prop :=
      ∃ u, exec c s = .next u.settle ∧ CallUndone f siding i p r duties (s.claims.erase c) (some (.depart, q, a)) s u
    (∀ n e, s.roster.duties.find? (fun y => y.duty = n) = some e → e.departure = none → e.gate = g →
      e.fleet = some f ∨ (e.fleet = none ∧ IsSelected e f siding r x s) →
      let duties : List Duty := s.roster.duties.map (fun y => if y.duty = n then
        (if e.fleet = none then { y with fleet := none, bound := false } else unbound y) else y)
      (InRun q s → undone (.depart q (some n) none none) (.dutyDeparture n) duties) ∧
      ∀ owner, (s.departDuty n owner).2 = a ∧
        CallUndone f siding i (.dutyDeparture n) r duties s.claims none s (s.departDuty n owner).1) ∧
    (InRun q s → 1 ≤ f → f ≤ 4095 → (Tbl.find g s.gates).isSome → (∀ y ∈ s.roster.duties, y.fleet ≠ some f) →
      undone (.depart q none (some f) (some g)) (.fleetDeparture g) s.roster.duties)

/-- R153–R156: DEPART, refused, made and undone, of a named tram and of one selected. -/
def Obligations.DepartIsDecided : Prop :=
  departRefusals ∧ departIsMade ∧ selectionCandidates ∧ openDutyDeparts ∧ departIsUndone

/-- R158, R159: the progress events of a departure route on its departure record. ROSTER_CHANGE shows an entry that leaves as it last
stood (log entry 72, DESIGN CHOICE). -/
def departureEventsOnTheRecord : Prop :=
  ∀ (ev : RouteEvent) (f : Nat) (d : Departure) (s : State), d.fleet = f →
    let left : List Instr := s.claims.erase (.rosterDepartureEvent ev)
    let ends : Option Nat :=
      if d.progress = .called then none
      else match ev.event with | .complete => some 3 | .forceReleased => some 4 | _ => none
    let expires : Option Nat :=
      if d.progress = .called then
        match ev.event with | .failed _ => some 5 | .expired => some 6 | .cancelled => some 7 | _ => none
      else none
    let now : Departure :=
      if d.progress = .called ∧ ev.event = .proceed then { d with slot := ev.slot }
      else if d.progress = .called ∧ ev.event = .firstEntered then { d with slot := ev.slot, progress := .entered }
      else if d.progress = .entered ∧ ev.event = .elementReleased 1 then { d with progress := .pastMouth }
      else d
    (∀ n e, ev.purpose = .dutyDeparture n f → s.roster.duties.find? (fun y => y.duty = n) = some e → e.departure = some d →
      ∃ u, exec (.rosterDepartureEvent ev) s = .next u.settle ∧
        Effect [.roster] left
          (fun s => match ends, expires with
            | some c, _ => s.post .roster 2 [.u16 n, .u16 e.due, .u8 e.gate, .u16 (e.fleet.getD 65535), .u8 2, .u8 c]
            | none, some c => s.post .roster 5 [.u16 n, .u16 f, .u8 c]
            | none, none => s) none s u ∧
        u.roster = { s.roster with duties := (if ends.isSome then s.roster.duties.filter (fun y => y.duty ≠ n)
          else s.roster.duties.map (fun y =>
            if y.duty = n then
              if expires.isSome then { y with departure := none, fleet := if y.bound then none else y.fleet, bound := false }
              else { y with departure := some now }
            else y)) }) ∧
    (∀ g, ev.purpose = .fleetDeparture f g → s.roster.fleetDepartures.find? (fun y => y.fleet = f) = some d →
      ∃ u, exec (.rosterDepartureEvent ev) s = .next u.settle ∧
        Effect [.roster] left
          (fun s => match expires with | some c => s.post .roster 5 [.u16 65535, .u16 f, .u8 c] | none => s) none s u ∧
        u.roster = { s.roster with fleetDepartures := (
          if ends.isSome ∨ expires.isSome then s.roster.fleetDepartures.filter (fun y => y.fleet ≠ f)
          else s.roster.fleetDepartures.map (fun y => if y.fleet = f then now else y)) })

/-- R158: the departure record that an event's purpose link names, of a duty or of a fleet (log entry 36). -/
def recordFollowed (ev : RouteEvent) (s : State) : Option Departure :=
  match ev.purpose with
  | .dutyDeparture n f => ((s.roster.duties.find? (fun y => y.duty = n)).bind Duty.departure).filter (fun d => d.fleet = f)
  | .fleetDeparture f _ => s.roster.fleetDepartures.find? (fun y => y.fleet = f)
  | _ => none

/-- R158, R159: the progress events of a departure route on its departure record; an event that finds none changes nothing. -/
def Obligations.DepartureIsFollowed : Prop :=
  departureEventsOnTheRecord ∧
  ∀ (ev : RouteEvent) (s : State), recordFollowed ev s = none →
    exec (.rosterDepartureEvent ev) s = .next (s.take (.rosterDepartureEvent ev)).settle

/-- R165: an entry after a restart; none where it is removed. -/
def restartedDuty (e : Duty) : Option Duty :=
  match e.departure with
  | none => some e
  | some d =>
    if d.progress = .pastMouth then none
    else some { e with departure := none, fleet := if e.bound then none else e.fleet, bound := false }

/-- R149, R165: a report of the halt flag, and a restart, at the roster block. ROSTER_CHANGE shows an entry removed as it last stood and one
returned as it stands after (log entry 72, DESIGN CHOICE). -/
def Obligations.RosterHaltAndRestart : Prop :=
  (∀ (b : Bool) (s : State), ∃ u, exec (.rosterHaltReport b) s = .next u.settle ∧
    Effect [.roster] (s.claims.erase (.rosterHaltReport b)) id none s u ∧ u.roster = { s.roster with halt := b }) ∧
  (∀ s : State, (s.roster.duties.map Duty.duty).Nodup →
    ∃ u, exec .rosterRestart s = .next u.settle ∧ KeepsAllBut [.stabling, .roster] s u ∧ Answered none s u ∧
      u.roster = { s.roster with duties := s.roster.duties.filterMap restartedDuty, fleetDepartures := [] } ∧
      u.claims.getLast? = some (.restartTakenReport .roster) ∧
      u.stab.shunts = s.stab.shunts ∧ u.stab.handed = s.stab.handed ∧
      (let undo (t : State) (p : StackPurpose × Departure) : State := match p.2.progress with
          | .called => t.uncallClaim p.2.fleet p.1
          | .entered => (t.uncallClaim p.2.fleet p.1).doubtClaim p.2.siding .doubtClaim
          | .pastMouth => t.raise (.departureAbandoned p.2.fleet)
        let undoDuty (t : State) (y : Duty) : State := match y.departure with
          | none => t
          | some d =>
            let back : Duty := (restartedDuty y).getD y
            (undo t (.dutyDeparture y.duty, d)).post .roster 2 [.u16 y.duty, .u16 y.due, .u8 y.gate, .u16 (back.fleet.getD 65535),
              .u8 (if back.departure.isSome then 2 else 1), .u8 5]
        let t : State := s.roster.duties.foldl undoDuty (s.take .rosterRestart)
        let t : State := s.roster.fleetDepartures.foldl (fun t d => undo t (.fleetDeparture d.gate, d)) t
        u.stab = t.stab ∧ u.claims = t.claims ++ [.restartTakenReport .roster] ∧ Notes (fun _ => t) s u) ∧
      ∀ d, (∃ e ∈ s.roster.duties, e.departure = some d) ∨ d ∈ s.roster.fleetDepartures → d.progress = .pastMouth →
        Instr.alarmRaise (.departureAbandoned d.fleet) ∈ u.claims)

/-! ## Supervision (10) -/

/-- R183, R184: HALT and HALT_RELEASE from the desk: the flag takes its value, which is reported to every block that keeps a
copy of it; a flag already as asked changes nothing. -/
def haltIsReported : Prop :=
  ∀ (q : Req) (s : State), q.port = .desk → InRun q s →
    let takes (c : Instr) (k : Kind) (v : Bool) : Prop :=
      ∃ u, exec c s = .next u.settle ∧
        Effect [.supervision]
          (s.claims.erase c ++ (if s.sup.halt = v then [] else
            [.routeHaltReport v] ++ (Tbl.keys s.gates).map (fun g => .gateHaltReport g v) ++ [.rosterHaltReport v]))
          (fun s => if s.sup.halt = v then s else s.post .alarm 4 [.u8 (if v then 2 else 1)])
          (some (k, q, ⟨.done, none, []⟩)) s u ∧
        u.sup = { s.sup with halt := v }
    takes (.halt q) .halt true ∧ takes (.haltRelease q) .haltRelease false

/-- R190: a RESTART from the desk is handed to every block, and answered when the last of them has reported. -/
def restartWaitsForEveryBlock : Prop :=
  (∀ (q : Req) (s : State), q.port = .desk → InRun q s →
    let blocks : List Block := [.occupancy, .point, .route] ++ (Tbl.keys s.gates).map .gate ++ [.stabling, .roster]
    ∃ u, exec (.restart q) s = .next u.settle ∧
      Effect [.stabling, .supervision]
        (s.claims.erase (.restart q) ++ [.occupancyRestart, .pointRestart, .routeRestart] ++
          (Tbl.keys s.gates).map .gateRestart ++ [.stablingRestart, .rosterRestart]) id none s u ∧
      u.sup = { s.sup with restart := some ⟨blocks, q⟩ } ∧
      u.stab = { s.stab with handed := true }) ∧
  (∀ (b : Block) (s : State),
    let rest : List Block := (s.sup.restart.map (fun p => p.waiting.erase b)).getD []
    let last : Bool := s.sup.restart.isSome && rest.isEmpty
    ∃ u, exec (.restartTakenReport b) s = .next u.settle ∧
      Effect [.supervision] (s.claims.erase (.restartTakenReport b)) (fun s => if last then s.post .alarm 5 [] else s)
        (if last then s.sup.restart.map (fun p => (.restart, p.req, ⟨.done, none, []⟩)) else none) s u ∧
      u.sup = { s.sup with restart := if last then none else s.sup.restart.map (fun p => { p with waiting := rest }) })

/-- R183, R184, R190: HALT, HALT_RELEASE and RESTART at supervision. -/
def Obligations.HaltAndRestartAtSupervision : Prop := haltIsReported ∧ restartWaitsForEveryBlock

/-- R185: the alarms of class Condition. -/
def isCondition : Alarm → Bool
  | .unroutedOccupancy _ | .pointLostUnderRoute _ | .pointOutOfService _ | .gateOverrun _ => true
  | _ => false

/-- R186, R187: a raise: a repeat, a new entry or overflow; and the report of a condition's end (REMOVED 4, log entry
59). -/
def Obligations.AlarmsAreRaisedAndEnd : Prop :=
  (∀ (a : Alarm) (s : State),
    let state : AlarmState := if isCondition a then .raised else .cleared
    ∃ u, exec (.alarmRaise a) s = .next u.settle ∧
      match s.sup.alarms.findIdx? (fun e => e.alarm = a) with
      | some i => ∀ e, s.sup.alarms[i]? = some e →
        let x : AlarmEntry := { e with count := min 255 (e.count + 1), state := if isCondition a then .raised else e.state }
        Effect [.supervision] (s.claims.erase (.alarmRaise a))
          (fun s => s.post .alarm 1 (a.fields ++ [.u8 x.count, .u8 x.state.code, .u8 (i + 1)])) none s u ∧
        u.sup = { s.sup with alarms := s.sup.alarms.set i x }
      | none =>
        let room : Bool := decide (s.sup.alarms.length < 32)
        Effect [.supervision] (s.claims.erase (.alarmRaise a))
          (fun s => s.post .alarm 1 (a.fields ++ [.u8 1, .u8 state.code, .u8 (if room then s.sup.alarms.length + 1 else 0)]))
          none s u ∧
        u.sup = if room then { s.sup with alarms := s.sup.alarms ++ [⟨a, s.roster.clock, 1, state⟩] }
          else { s.sup with overflow := true }) ∧
  (∀ (a : Alarm) (s : State),
    let found : Option (Nat × AlarmState) := (s.sup.alarms.findIdx? (fun e => e.alarm = a)).bind (fun i =>
      (s.sup.alarms[i]?).map (fun e => (i, e.state)))
    ∃ u, exec (.alarmConditionEnd a) s = .next u.settle ∧
      Effect [.supervision] (s.claims.erase (.alarmConditionEnd a))
        (fun s => match found with
          | some (_, .raised) => s.post .alarm 2 (a.fields ++ [.u8 3])
          | some (_, .acked) => s.post .alarm 2 (a.fields ++ [.u8 4])
          | _ => s) none s u ∧
      u.sup = { s.sup with alarms := match found with
        | some (i, .raised) => s.sup.alarms.modify i (fun e => { e with state := .cleared })
        | some (i, .acked) => s.sup.alarms.eraseIdx i
        | _ => s.sup.alarms })

/-- R188: ALARM_ACK and ALARM_ACK_ALL from the desk (REMOVED 4, log entry 59); ALARM_ACK_ALL counts the RAISED entries as acknowledged
and the CLEARED ones as removed (log entry 74, DESIGN CHOICE). -/
def Obligations.AlarmsAreAcknowledged : Prop :=
  ∀ (q : Req) (s : State), q.port = .desk → InRun q s →
    (∀ (pos k o : Nat) (sc : Option Nat),
      let c : Instr := .alarmAck q pos k o sc
      let refused (why : Reason) : Prop :=
        ∃ u, exec c s = .next u.settle ∧
          Effect [] (s.claims.erase c) id (some (.alarmAck, q, ⟨.refused, some why, []⟩)) s u
      (Alarm.ofFields? k o sc = none → refused .badArgument) ∧
      ∀ a, Alarm.ofFields? k o sc = some a →
        match (if pos = 0 then none else s.sup.alarms[pos - 1]?) with
        | none => refused .badArgument
        | some e =>
          if e.alarm ≠ a then refused .wrongState
          else
            ∃ u, exec c s = .next u.settle ∧
              Effect [.supervision] (s.claims.erase c)
                (fun s => s.post .alarm 3 (a.fields ++ [.u8 (if e.state = .cleared then 4 else 2)]))
                (some (.alarmAck, q, ⟨.done, none, []⟩)) s u ∧
              u.sup = { s.sup with alarms := if e.state = .cleared then s.sup.alarms.eraseIdx (pos - 1)
                else s.sup.alarms.set (pos - 1) { e with state := .acked } }) ∧
    (let left : List AlarmEntry :=
        (s.sup.alarms.filter (fun e => e.state ≠ .cleared)).map (fun e => { e with state := .acked })
      let full : Bool := s.sup.overflow && decide (32 ≤ left.length)
      let fields : List Field := [.u8 (s.sup.alarms.countP (fun e => e.state = .raised)),
        .u8 (s.sup.alarms.countP (fun e => e.state = .cleared)), .u8 (if full then 2 else 1)]
      ∃ u, exec (.alarmAckAll q) s = .next u.settle ∧
        Effect [.supervision] (s.claims.erase (.alarmAckAll q)) (fun s => s.post .alarm 3 fields)
          (some (.alarmAckAll, q, ⟨.done, none, fields⟩)) s u ∧
        u.sup = { s.sup with alarms := left, overflow := full })

/-! ## Description store (01) -/

/-- A number in a range. -/
def isIn (n lo hi : Nat) : Bool := decide (lo ≤ n) && decide (n ≤ hi)

/-- A present number in a range, or an absent one. -/
def isInOpt (o : Option Nat) (lo hi : Nat) : Bool := o.all (fun n => isIn n lo hi)

/-- R11: a timer field's zero is taken as absent. -/
def noZero (o : Option Nat) : Option Nat := if o = some 0 then none else o

/-- R10: a route whose fields are all in their ranges: from and to by the kind (a YARD route's 1 to 24 by log entry 39, DEDUCED), 1 to
12 elements of 0 to 3 settings, 0 to 4 flank settings. -/
def fitsLayout (n : Nat) (d : RouteDef) : Bool :=
  let fromTop : Nat := match d.kind with | .arrival | .shuntIn => 2 | .departure | .shuntOut | .yard => 24
  let toTop : Nat := match d.kind with | .departure | .shuntOut => 2 | .arrival | .shuntIn | .yard => 24
  isIn n 1 128 && isIn d.origin 1 48 && isInOpt d.fromObj 1 fromTop && isInOpt d.toObj 1 toTop &&
  isInOpt d.approach 1 64 && isInOpt d.destination 1 64 && isIn d.path.length 1 12 && decide (d.flank.length ≤ 4) &&
  d.path.all (fun e => isIn e.sect 1 64 && decide (e.settings.length ≤ 3) && e.settings.all (fun x => isIn x.point 1 32)) &&
  d.flank.all (fun f => isIn f.point 1 32 && isIn f.protects 1 12)

/-- 09 section 9.7: the bytes of a ROUTE_DEF payload, as numbers. -/
def routeLayout (n : Nat) (d : RouteDef) : List Nat :=
  let kind : Nat := match d.kind with | .arrival => 1 | .departure => 2 | .shuntOut => 3 | .shuntIn => 4 | .yard => 5
  let setting (point : Nat) (p : Position) : Nat := 128 + (match p with | .normal => 0 | .reverse => 32) + (point - 1)
  [n, kind, d.origin, d.fromObj.getD 0, d.toObj.getD 0, d.approach.getD 0, d.destination.getD 0,
   d.flank.length * 16 + d.path.length] ++
  d.path.flatMap (fun e => e.sect :: e.settings.map (fun x => setting x.point x.position)) ++
  d.flank.flatMap (fun f => [setting f.point f.position, f.protects])

/-- R10, R180: a ROUTE_DEF payload stands for a route exactly where it is the layout of that route and all fields are in range. -/
def routePayloadsAreRead : Prop :=
  ∀ (p : List Byte) (n : Nat) (d : RouteDef),
    decodeRouteDef p = some (n, d) ↔ fitsLayout n d = true ∧ p.map BitVec.toNat = routeLayout n d

/-- R4–R11: a definition record from the planner in CONFIG: its field checks, and the record stored under its number. -/
def definitionsAreStored : Prop :=
  ∀ (q : Req) (s : State), q.port = .planner → s.op = .config →
    let loads (c : Instr) (k : Kind) (ok : Bool) (d : Description) : Prop :=
      ∃ u, exec c s = .next u.settle ∧
        Effect [.store] (s.claims.erase c) id
          (some (k, q, if ok then ⟨.done, none, []⟩ else ⟨.refused, some .badArgument, []⟩)) s u ∧
        u.op = s.op ∧ u.inForce = s.inForce ∧ u.desc = if ok then d else s.desc
    let kinds : List SectionKind := [.ladder, .approach, .reader, .gateOut, .mouth, .body, .headShunt]
    let selections : List Selection := [.none, .none, .occupy, .clear, .both]
    (∀ n k g sd sel, loads (.sectionDef q n k g sd sel) .sectionDef
      (isIn n 1 64 && isIn k 1 7 && isInOpt g 1 2 && isInOpt sd 1 24 && decide (sel ≤ 4))
      { s.desc with sections := Tbl.put n ⟨kinds.getD (k - 1) .ladder, g, sd, selections.getD sel .none⟩ s.desc.sections }) ∧
    (∀ n sc l, loads (.pointDef q n sc l) .pointDef (isIn n 1 32 && isInOpt sc 1 64 && (decide (l = 0) || isIn l 2 15))
      { s.desc with points := Tbl.put n ⟨sc, if l = 0 then 6 else l⟩ s.desc.points }) ∧
    (∀ n m b l ab, loads (.sidingDef q n m b l ab) .sidingDef
      (isIn n 1 24 && isIn m 1 64 && isIn b 1 64 && decide (l ≤ 65535) && decide (ab.toNat < 16))
      { s.desc with sidings := (
          Tbl.put n ⟨m, b, l, ⟨ab.getLsbD 0, ab.getLsbD 1, ab.getLsbD 2, ab.getLsbD 3⟩⟩ s.desc.sidings) }) ∧
    (∀ n sg rd ap out, loads (.gateDef q n sg rd ap out) .gateDef
      (isIn n 1 2 && isIn sg 1 48 && isIn rd 1 64 && isIn ap.length 1 4 && ap.all (fun m => isIn m 1 64) && isIn out 1 64)
      { s.desc with gates := Tbl.put n ⟨sg, rd, ap, out⟩ s.desc.gates }) ∧
    (∀ n m, loads (.headshuntDef q n m) .headshuntDef (isIn n 1 2 && isIn m 1 64)
      { s.desc with headShunts := Tbl.put n m s.desc.headShunts }) ∧
    (∀ p, loads (.routeDef q p) .routeDef (decodeRouteDef p).isSome
      { s.desc with routes := (match decodeRouteDef p with
          | some (n, d) => Tbl.put n d s.desc.routes
          | none => s.desc.routes) }) ∧
    (∀ f : ParamFields, loads (.yardParams q f) .yardParams
      (isInOpt (noZero f.occupyConfirm) 100 2000 && isInOpt (noZero f.clearConfirm) 1 10 && isInOpt (noZero f.coolDown) 10 60 &&
       isInOpt (noZero f.failureWindow) 60 3600 && isInOpt (noZero f.timeRelease) 10 120 &&
       isInOpt (noZero f.storeLimit) 30 600 && isInOpt (noZero f.readerWait) 1 5 && isInOpt f.spacing 1 5 &&
       isInOpt f.capacityReserve 0 400 && isInOpt f.capacityBand 0 200 && isInOpt f.queueHighMark 1 4 &&
       isInOpt f.callLead 0 30 && isInOpt f.dueNoticeLead 0 30 && isInOpt f.inversion 1 2 &&
       decide ((noZero f.occupyConfirm).getD 300 < (noZero f.clearConfirm).getD 3 * 1000))
      { s.desc with params := (some
          ⟨noZero f.occupyConfirm, noZero f.clearConfirm, noZero f.coolDown, noZero f.failureWindow, noZero f.timeRelease,
           noZero f.storeLimit, noZero f.readerWait, f.spacing, f.capacityReserve, f.capacityBand, f.queueHighMark, f.callLead,
           f.dueNoticeLead, f.inversion.map (fun c => if c = 2 then .accept else .hold)⟩) }) ∧
    (∀ (α : Type) (n : Nat) (a : α) (t : Tbl α), Put n a t (Tbl.put n a t))

/-- R4–R11, R180: the definition records, and what a ROUTE_DEF payload stands for. -/
def Obligations.DefinitionsAreStored : Prop := definitionsAreStored ∧ routePayloadsAreRead

/-- The first test of a list that fails, by its fault code. -/
def firstFailing (tests : List (Bool × Nat)) : Option Nat := (tests.find? (fun t => !t.1)).map Prod.snd

/-- Whether a number names a section of a kind. -/
def sectionIs (d : Description) (k : SectionKind) (n : Nat) : Bool := (Tbl.find n d.sections).any (fun r => r.kind = k)

/-- R13: the checks of a SECTION_DEF, in order, with the fault code of each (R181). -/
def sectionTests (d : Description) (n : Nat) (r : SectionDef) : List (Bool × Nat) :=
  let gate : Option GateDef := r.gate.bind (fun g => Tbl.find g d.gates)
  let siding : Option SidingDef := r.siding.bind (fun x => Tbl.find x d.sidings)
  [(r.gate.isSome = decide (r.kind ∈ [.approach, .reader, .gateOut]) && r.siding.isSome = decide (r.kind ∈ [.mouth, .body]), 1),
   (r.gate.isSome = gate.isSome && r.siding.isSome = siding.isSome, 2),
   (match r.kind with
    | .approach => gate.any (fun g => decide (n ∈ g.approach))
    | .reader => gate.any (fun g => g.reader = n)
    | .gateOut => gate.any (fun g => g.gateOut = n)
    | .mouth => siding.any (fun x => x.mouth = n)
    | .body => siding.any (fun x => x.body = n)
    | .ladder | .headShunt => true, 3)]

/-- R13: the checks of a POINT_DEF. -/
def pointTests (d : Description) (r : PointDef) : List (Bool × Nat) :=
  [(r.sect ≠ none, 4), (r.sect.any (fun n => (Tbl.find n d.sections).isSome), 2), (r.sect.any (sectionIs d .ladder), 5)]

/-- R13: the checks of a SIDING_DEF. -/
def sidingTests (d : Description) (n : Nat) (r : SidingDef) : List (Bool × Nat) :=
  let ofThis (m : Nat) : Bool := (Tbl.find m d.sections).any (fun x => x.siding = some n)
  [((Tbl.find r.mouth d.sections).isSome && (Tbl.find r.body d.sections).isSome, 2),
   (sectionIs d .mouth r.mouth && sectionIs d .body r.body, 5), (ofThis r.mouth && ofThis r.body, 3), (isIn r.length 20 400, 6)]

/-- R13: the checks of a GATE_DEF. -/
def gateTests (d : Description) (n : Nat) (r : GateDef) : List (Bool × Nat) :=
  let all : List Nat := [r.reader, r.gateOut] ++ r.approach
  [(all.all (fun m => (Tbl.find m d.sections).isSome), 2),
   (sectionIs d .reader r.reader && r.approach.all (sectionIs d .approach) && sectionIs d .gateOut r.gateOut, 5),
   (decide r.approach.Nodup, 7), (all.all (fun m => (Tbl.find m d.sections).any (fun x => x.gate = some n)), 3)]

/-- R13: the checks of a HEADSHUNT_DEF. -/
def headShuntTests (d : Description) (n m : Nat) : List (Bool × Nat) :=
  [((Tbl.find m d.sections).isSome, 2), (sectionIs d .headShunt m, 5), (d.headShunts.all (fun p => n ≤ p.1 || p.2 ≠ m), 3)]

/-- R10, R13: the checks of a ROUTE_DEF; `from`, `to` and the destination are present by kind. -/
def routeTests (d : Description) (n : Nat) (r : RouteDef) : List (Bool × Nat) :=
  let path : List Nat := r.path.map Element.sect
  let points : List Nat := r.path.flatMap (fun e => e.settings.map Setting.point) ++ r.flank.map Flank.point
  let isDefined (m : Nat) : Bool := (Tbl.find m d.sections).isSome
  let gate (o : Option Nat) : Option GateDef := o.bind (fun g => Tbl.find g d.gates)
  let siding (o : Option Nat) : Option SidingDef := o.bind (fun x => Tbl.find x d.sidings)
  let headShunt (o : Option Nat) : Option Nat := o.bind (fun h => Tbl.find h d.headShunts)
  let named : Bool := match r.kind with
    | .arrival => (r.fromObj.isNone || (gate r.fromObj).isSome) && (r.toObj.isNone || (siding r.toObj).isSome)
    | .departure => (r.fromObj.isNone || (siding r.fromObj).isSome) && (r.toObj.isNone || (gate r.toObj).isSome)
    | .shuntOut => (r.fromObj.isNone || (siding r.fromObj).isSome) && (r.toObj.isNone || (headShunt r.toObj).isSome)
    | .shuntIn => (r.fromObj.isNone || (headShunt r.fromObj).isSome) && (r.toObj.isNone || (siding r.toObj).isSome)
    | .yard => true
  [(match r.kind with
    | .arrival | .shuntOut | .shuntIn => r.fromObj.isSome && r.toObj.isSome && r.destination.isSome
    | .departure => r.fromObj.isSome && r.toObj.isSome && r.destination.isNone
    | .yard => r.fromObj.isNone && r.toObj.isNone, 1),
   (named && path.all isDefined && r.approach.all isDefined && r.destination.all isDefined &&
      points.all (fun p => (Tbl.find p d.points).isSome), 2),
   (r.path.all (fun e => e.settings.all (fun st => (Tbl.find st.point d.points).any (fun p => p.sect = some e.sect))), 8),
   (decide path.Nodup, 7), (decide points.Nodup, 9),
   (path.all (fun m => [.body, .headShunt, .approach, .reader].all (fun k => !sectionIs d k m)), 10),
   (path.all (fun m => r.approach ≠ some m && r.destination ≠ some m), 11),
   (r.flank.all (fun f => isIn f.protects 1 r.path.length), 12),
   (r.kind ≠ .arrival || (gate r.fromObj).any (fun g => g.signal = r.origin), 13),
   (r.kind ∉ [.arrival, .shuntIn] || (siding r.toObj).any (fun x => path.getLast? = some x.mouth), 14),
   (r.kind ∉ [.arrival, .shuntIn] || (siding r.toObj).any (fun x => r.destination = some x.body), 15),
   (r.kind ∉ [.departure, .shuntOut] || (siding r.fromObj).any (fun x => path.head? = some x.mouth), 16),
   (r.kind ≠ .departure || (gate r.toObj).any (fun g => path.getLast? = some g.gateOut), 17),
   (r.kind ≠ .shuntOut || (headShunt r.toObj).any (fun m => r.destination = some m), 18),
   (r.kind ≠ .yard || path.all (fun m => [.mouth, .body, .gateOut].all (fun k => !sectionIs d k m)), 19),
   (r.kind = .yard || d.routes.all (fun p => n ≤ p.1 || p.2.kind ≠ r.kind || p.2.fromObj ≠ r.fromObj || p.2.toObj ≠ r.toObj), 20)]

/-- R12: the first fault of a description, by record kind (the KIND of its definition request), number and fault code: the kinds
in order, within a kind by rising number, within a record in the order of its checks; then NO_GATE. -/
def firstFaultOf (d : Description) : Option (Nat × Nat × Nat) :=
  let among {α : Type} (kind : Nat) (tests : Nat → α → List (Bool × Nat)) (t : Tbl α) : Option (Nat × Nat × Nat) :=
    t.findSome? (fun p => (firstFailing (tests p.1 p.2)).map (fun f => (kind, p.1, f)))
  [among 0x08 (sectionTests d) d.sections, among 0x09 (fun _ => pointTests d) d.points, among 0x0A (sidingTests d) d.sidings,
   among 0x0B (gateTests d) d.gates, among 0x0C (headShuntTests d) d.headShunts, among 0x0D (routeTests d) d.routes,
   if d.gates = [] then some (0x0B, 1, 21) else none].findSome? id

/-- R12, R13, R181: a commit finds the first fault of the description. -/
def faultsAreFoundInOrder : Prop :=
  ∀ d : Description, d.commitFault.map (fun x => (x.1.code, x.2.1, x.2.2.code)) = firstFaultOf d

/-- R12, R14: CONFIG_COMMIT from the planner in CONFIG: the first fault refuses it; else every block takes up its starting
state, with the parameters held or their defaults (R11). -/
def commitIsDecided : Prop :=
  ∀ (q : Req) (s : State), q.port = .planner → s.op = .config →
    let level (n : Nat) : Occ := if s.pins.occupancy.getD (n - 1) .free = .free then .clear else .occupied
    let seen (n : Nat) : Reading :=
      readingShown (s.pins.normal.getD (n - 1) .notDetecting) (s.pins.reverse.getD (n - 1) .notDetecting)
    match s.desc.commitFault with
    | some (k, n, f) =>
      ∃ u, exec (.configCommit q) s = .next u.settle ∧
        Effect [] (s.claims.erase (.configCommit q)) id
          (some (.configCommit, q, ⟨.refused, some .badArgument, [.u8 k.code, .u8 n, .u8 f.code]⟩)) s u
    | none =>
      let p : ParamRec := s.desc.params.getD
        ⟨none, none, none, none, none, none, none, none, none, none, none, none, none, none⟩
      ∃ u, exec (.configCommit q) s = .next u.settle ∧
        Effect [.store, .sections, .points, .routes, .gates, .stabling, .roster, .supervision]
          (s.claims.erase (.configCommit q)) id (some (.configCommit, q, ⟨.done, none, []⟩)) s u ∧
        u.op = .run ∧ u.desc = s.desc ∧
        u.inForce = some ⟨p.occupyConfirm.getD 300, p.clearConfirm.getD 3, p.coolDown.getD 20, p.failureWindow.getD 600,
          p.timeRelease.getD 45, p.storeLimit.getD 180, p.readerWait.getD 2, p.spacing.getD 2, p.capacityReserve.getD 60,
          p.capacityBand.getD 40, p.queueHighMark.getD 3, p.callLead.getD 4, p.dueNoticeLead.getD 8, p.inversion.getD .hold⟩ ∧
        (∀ m, Tbl.find m u.sections = (Tbl.find m s.desc.sections).map (fun d =>
          ⟨d.kind, level m, level m, none, false, false, none, d.selection⟩)) ∧
        (∀ m, Tbl.find m u.points = (Tbl.find m s.desc.points).map (fun d =>
          ⟨d.sect.getD 0, d.throwLimit, settledAt (seen m), seen m, none, none, none, none, none, 0, none, false, false⟩)) ∧
        u.route = ⟨[], [], false, []⟩ ∧
        (∀ m, Tbl.find m u.gates = (Tbl.find m s.desc.gates).map (fun d =>
          ⟨[], if level d.reader = .occupied then .untimed else .closed, none, none, none,
           ⟨false, false, false, false, false, false, true⟩, none, none, false, none, none, false, none, none, none⟩)) ∧
        (∀ m, Tbl.find m u.stab.sidings = (Tbl.find m s.desc.sidings).map (fun d =>
          ⟨d.mouth, d.body, d.length, d.abilities, .doubt, false, none, []⟩)) ∧
        u.stab.shunts = [] ∧ u.stab.handed = false ∧ u.roster = ⟨none, none, [], [], false, false, false⟩ ∧
        u.sup = ⟨false, [], false, false, none⟩

/-- R11–R14: CONFIG_COMMIT, and the faults that its validation finds. -/
def Obligations.CommitEntersRun : Prop := commitIsDecided ∧ faultsAreFoundInOrder

/-! ## Control ports (09) -/

/-- The request kind and sender of a command that is a request. -/
def requestOf : Instr → Option (Kind × Req)
  | .status r => some (.status, r) | .subscribe r _ => some (.subscribe, r) | .portReset r => some (.portReset, r)
  | .tableSelect r _ _ _ => some (.tableSelect, r) | .tableNext r => some (.tableNext, r)
  | .sectionDef r _ _ _ _ _ => some (.sectionDef, r) | .pointDef r _ _ _ => some (.pointDef, r)
  | .sidingDef r _ _ _ _ _ => some (.sidingDef, r) | .gateDef r _ _ _ _ _ => some (.gateDef, r)
  | .headshuntDef r _ _ => some (.headshuntDef, r) | .routeDef r _ => some (.routeDef, r)
  | .yardParams r _ => some (.yardParams, r) | .configCommit r => some (.configCommit, r)
  | .sectionForceOn r _ | .sectionForceOff r _ => some (.sectionForce, r) | .sectionQuery r _ => some (.sectionQuery, r)
  | .pointThrow r _ _ => some (.pointThrow, r) | .pointBlock r _ => some (.pointBlock, r)
  | .pointRestore r _ => some (.pointRestore, r) | .pointQuery r _ => some (.pointQuery, r)
  | .routeSet r _ => some (.routeSet, r) | .routeCancel r _ => some (.routeCancel, r)
  | .routeResume r _ => some (.routeResume, r) | .routeForceRelease r _ => some (.routeForceRelease, r)
  | .arrivalIdentify r _ _ _ _ _ _ => some (.arrivalIdentify, r) | .arrivalDiscard r _ _ => some (.arrivalDiscard, r)
  | .arrivalAdd r _ _ _ _ _ => some (.arrivalAdd, r) | .arrivalResume r _ => some (.arrivalResume, r)
  | .gateHold r _ => some (.gateHold, r) | .gateRelease r _ => some (.gateRelease, r)
  | .gateClearOverrun r _ => some (.gateClearOverrun, r) | .lineHold r _ => some (.lineHold, r)
  | .lineRelease r _ => some (.lineRelease, r) | .censusSet r _ _ => some (.censusSet, r)
  | .sidingAbilities r _ _ => some (.sidingAbilities, r) | .sidingBlock r _ => some (.sidingBlock, r)
  | .sidingUnblock r _ => some (.sidingUnblock, r) | .sidingDoubt r _ => some (.sidingDoubt, r)
  | .shunt r _ _ => some (.shunt, r) | .shuntCancel r _ => some (.shuntCancel, r)
  | .shuntRetarget r _ _ => some (.shuntRetarget, r) | .clockSet r _ => some (.clockSet, r)
  | .rosterAdd r _ _ _ _ _ => some (.rosterAdd, r) | .rosterRemove r _ => some (.rosterRemove, r)
  | .rosterClear r => some (.rosterClear, r) | .rosterAuto r _ _ => some (.rosterAuto, r)
  | .depart r _ _ _ => some (.depart, r) | .halt r => some (.halt, r) | .haltRelease r => some (.haltRelease, r)
  | .restart r => some (.restart, r) | .alarmAck r _ _ _ _ => some (.alarmAck, r) | .alarmAckAll r => some (.alarmAckAll, r)
  | _ => none

/-- R171's kind table: the kinds that a port's role may make, as ranges of KIND. -/
def mayMake (p : Port) (kind : Nat) : Bool :=
  isIn kind 0x01 0x05 || kind = 0x19 || kind = 0x39 ||
  match p with
  | .desk => isIn kind 0x10 0x15 || isIn kind 0x18 0x1B || isIn kind 0x20 0x26 || isIn kind 0x2C 0x31 || isIn kind 0x3A 0x3E
  | .planner => isIn kind 0x08 0x0F || isIn kind 0x2A 0x2B || isIn kind 0x2F 0x30 || isIn kind 0x34 0x38
  | .line => isIn kind 0x27 0x28

/-- R2, R3, R171: every request is refused NOT_PERMITTED where the port's role may not make it, in either state; then
BAD_ARGUMENT for a code not given, or in RUN for a gate with no GATE_DEF; then WRONG_STATE for a definition record or a commit
in RUN and for anything but these and the port's own requests taken in CONFIG, as one is that its port handed on in CONFIG
(R14). A refusal changes nothing. -/
def checksBeforeTheOwner : Prop :=
  ∀ (c : Instr) (k : Kind) (q : Req) (s : State), requestOf c = some (k, q) →
    let taken : OpState := if s.op = .config ∨ (s.port q.port).inHand.any (fun h => h.isFor k q && h.handedIn = .config) = true
      then .config else .run
    let noGate : Bool := match c.gateNamed with
      | some g => decide (taken = .run) && (Tbl.find g s.desc.gates).isNone
      | none => false
    let loading : Bool := isIn k.code 0x08 0x0F
    let why : Option Reason :=
      if !mayMake q.port k.code then some .notPermitted
      else if !c.codesOk || noGate then some .badArgument
      else if (if loading then s.op = .run else taken = .config ∧ 0x05 < k.code) then some .wrongState
      else none
    ∀ r, why = some r →
      ∃ u, exec c s = .next u.settle ∧ Effect [] (s.claims.erase c) id (some (k, q, ⟨.refused, some r, []⟩)) s u

/-- R18, R28, R29, R31, R41, R49–R51, R60, R91, R99, R100, R135, R137, R139, R140, R146: a request from a port that may make it,
in RUN, naming a section, point, route or siding with no definition record, is refused BAD_ARGUMENT and changes nothing; an undefined
target of a SHUNT or SHUNT_RETARGET before any other refusal is the model's choice (log entry 57). -/
def undefinedObjectsAreRefused : Prop :=
  ∀ (q : Req) (n : Nat) (s : State), InRun q s →
    let refused (c : Instr) (k : Kind) : Prop :=
      ∃ u, exec c s = .next u.settle ∧ Effect [] (s.claims.erase c) id (some (k, q, ⟨.refused, some .badArgument, []⟩)) s u
    (q.port = .desk → Tbl.find n s.sections = none →
      refused (.sectionForceOn q n) .sectionForce ∧ refused (.sectionForceOff q n) .sectionForce ∧
      refused (.sectionQuery q n) .sectionQuery) ∧
    (q.port = .desk → Tbl.find n s.points = none →
      (∀ code, refused (.pointThrow q n code) .pointThrow) ∧ refused (.pointBlock q n) .pointBlock ∧
      refused (.pointRestore q n) .pointRestore ∧ refused (.pointQuery q n) .pointQuery) ∧
    (Tbl.find n s.desc.routes = none →
      refused (.routeCancel q n) .routeCancel ∧
      (q.port = .desk → refused (.routeSet q n) .routeSet ∧ refused (.routeResume q n) .routeResume ∧
        refused (.routeForceRelease q n) .routeForceRelease)) ∧
    (Tbl.find n s.stab.sidings = none →
      (q.port = .planner → (∀ es, refused (.censusSet q n es) .censusSet) ∧
        ∀ ab, refused (.sidingAbilities q n ab) .sidingAbilities) ∧
      (q.port = .desk → refused (.sidingBlock q n) .sidingBlock ∧ refused (.sidingUnblock q n) .sidingUnblock ∧
        refused (.sidingDoubt q n) .sidingDoubt ∧ ∀ h, refused (.shuntRetarget q h n) .shuntRetarget) ∧
      (q.port = .desk ∨ q.port = .planner → ∀ f, refused (.shunt q f n) .shunt))

/-- The enumerated and set fields of a request hold given codes (09 section 9.7, R176, R177, R181); a request with none of these
fields has nothing to check. -/
def givenCodes : Instr → Bool
  | .subscribe _ g => decide (g.toNat ≤ 0x7F)
  | .tableSelect _ t _ _ => isIn t 1 10
  | .sectionDef _ _ k _ _ sel => isIn k 1 7 && isIn sel 0 4
  | .sidingDef _ _ _ _ _ ab | .sidingAbilities _ _ ab => decide (ab.toNat ≤ 0x0F)
  | .routeDef _ p => 2 ≤ p.length && (p[1]?).any (fun k => isIn k.toNat 1 5)
  | .yardParams _ f => isInOpt f.inversion 1 2
  | .pointThrow _ _ pos => isIn pos 1 2
  | .arrivalIdentify _ _ _ _ _ ma wa | .arrivalAdd _ _ _ _ ma wa => decide (ma.toNat ≤ 0x0F) && decide (wa.toNat ≤ 0x0F)
  | .censusSet _ _ es => es.all (fun e => decide (e.mandatory.toNat ≤ 0x0F) && decide (e.wanted.toNat ≤ 0x0F))
  | .rosterAuto _ _ st => isIn st 1 2
  | .alarmAck _ _ k _ sc => isIn k 1 10 && (sc.isSome == decide (k = 6))
  | _ => true

/-- R171: the gate that a gate request names. -/
def gateOfRequest : Instr → Option Nat
  | .arrivalIdentify _ g _ _ _ _ _ => some g | .arrivalDiscard _ g _ => some g | .arrivalAdd _ g _ _ _ _ => some g
  | .arrivalResume _ g => some g | .gateHold _ g => some g | .gateRelease _ g => some g | .gateClearOverrun _ g => some g
  | .lineHold _ g => some g | .lineRelease _ g => some g
  | _ => none

/-- R171, R181: the codes that are given, and the gate that a request names. -/
def codesAreChecked : Prop := ∀ c : Instr, c.codesOk = givenCodes c ∧ c.gateNamed = gateOfRequest c

/-- R2, R3, R171: what a request is refused for before its owner looks at it, and where the object it names is not defined. -/
def Obligations.RequestsAreCheckedFirst : Prop := checksBeforeTheOwner ∧ undefinedObjectsAreRefused ∧ codesAreChecked

/-- R174, R176–R179: the requests that a port answers itself. -/
def portsAnswerTheirOwnRequests : Prop :=
  ∀ (q : Req) (s : State),
    let p : PortState := s.port q.port
    let held (g : Nat) : Nat := ((Tbl.find g s.gates).map (fun x => x.held.byte)).getD 0
    let answers (c : Instr) (k : Kind) (a : Ans) (f : PortState → PortState) : Prop :=
      ∃ u, exec c s = .next u.settle ∧ KeepsAllBut [.ports] s u ∧ u.claims = s.claims.erase c ∧
        Answered (some (k, q, a)) s u ∧ (∀ p', p' ≠ q.port → u.port p' = s.port p') ∧
        (u.port q.port).aside = (f p).aside ∧ (u.port q.port).notices = (f p).notices ∧
        (u.port q.port).noticesLost = (f p).noticesLost
    answers (.status q) .status
      ⟨.done, none, [.u8 (if s.op = .config then 1 else 2), .u8 (if s.sup.halt then 2 else 1), .u8 (held 1), .u8 (held 2),
        .u8 s.sup.alarms.length, .u8 (if s.sup.overflow then 2 else 1), .u8 (if p.noticesLost then 2 else 1),
        .u8 (if p.lineError then 2 else 1), .u16 (s.roster.clock.getD 65535)]⟩
      (fun p => { p with noticesLost := false, lineError := false }) ∧
    (∀ g : Byte, g.toNat < 128 → answers (.subscribe q g) .subscribe ⟨.done, none, [.u8 g.toNat]⟩
      (fun p => { p with subscription := ⟨g.getLsbD 0, g.getLsbD 1, g.getLsbD 2, g.getLsbD 3, g.getLsbD 4, g.getLsbD 5,
        g.getLsbD 6⟩ })) ∧
    (∃ u, exec (.portReset q) s = .next u.settle ∧ KeepsAllBut [.ports] s u ∧ u.claims = s.claims.erase (.portReset q) ∧
      (∀ p', p' ≠ q.port → u.port p' = s.port p') ∧
      (u.port q.port).aside = { p with queue := [], cursor := none, lineError := false }.aside ∧
      (u.port q.port).notices = [] ∧ (u.port q.port).noticesLost = false ∧
      let own : Bool := p.inHand.any (InHand.isFor .portReset q)
      (u.port q.port).path = (p.path.filter (fun a => !a.busy)).map (fun a =>
          if a.ofHand then { a with dropped := true } else a) ++
        [⟨0x03, q.tag, ⟨.done, none, []⟩, false, own, own && p.inHand.any InHand.dropped⟩] ∧
      (u.port q.port).inHand = p.inHand.map (fun h => if own then { h with answered := true } else { h with dropped := true })) ∧
    (∀ t qu i,
      let why : Option Reason :=
        if ¬ (1 ≤ t ∧ t ≤ 10) ∨ (i = 0 ∧ t ≠ 5) then some .badArgument
        else if s.op = .config ∧ t ≠ 1 ∧ t ≠ 2 ∧ t ≠ 10 then some .wrongState
        else if (t = 5 ∧ Tbl.find qu s.desc.sidings = none) ∨ (t = 6 ∧ Tbl.find qu s.desc.gates = none) then some .badArgument
        else none
      answers (.tableSelect q t qu i) .tableSelect
        (match why with | some r => ⟨.refused, some r, []⟩ | none => ⟨.done, none, []⟩)
        (fun p => if why.isSome then p else { p with cursor := some ⟨([.sections, .points, .routeTable, .routeStore, .stack,
          .arrivals, .roster, .shunts, .alarms, .catalogue] : List TableName).getD (t - 1) .sections, qu, i⟩ })) ∧
    (match p.cursor with
      | none => answers (.tableNext q) .tableNext ⟨.refused, some .wrongState, []⟩ id
      | some c =>
        match s.readTable c with
        | none => answers (.tableNext q) .tableNext ⟨.done, none, [.u8 0]⟩ id
        | some (i, fields) =>
          c.index ≤ i ∧ answers (.tableNext q) .tableNext ⟨.done, none, .u8 c.table.code :: .u8 i :: fields⟩
            (fun p => { p with cursor := some { c with index := i + 1 } }))

/-- A present number, or 0 (one byte), 0xFFFF (two bytes) or 0xFFFFFFFF (four bytes) where it is absent (09 section 9.7). -/
def numberOr0 (o : Option Nat) : Field := .u8 (match o with | some n => n | none => 0)
/-- A two-byte number, or 0xFFFF. -/
def numberOrFFFF (o : Option Nat) : Field := .u16 (match o with | some n => n | none => 0xFFFF)
/-- A flag, clear 1 or set 2 (log entry 8). -/
def flagField (b : Bool) : Field := .u8 (if b then 2 else 1)
/-- A purpose link: its kind by the table of 09 section 9.7, then its values in R55's order. -/
def purposeLink : Purpose → List Field
  | .none => [.u8 0]
  | .gateArrival g f => [.u8 1, .u8 g, .u16 f]
  | .shuntEntry h f => [.u8 2, .u8 h, .u16 f]
  | .dutyDeparture d f => [.u8 3, .u16 d, .u16 f]
  | .fleetDeparture f g => [.u8 4, .u16 f, .u8 g]

/-- R2, R3, R31: a record of the section table (log entry 37). -/
def sectionTableRecord (s : State) (n : Nat) (d : SectionDef) : List Field :=
  match Tbl.find n s.sections with
  | some r => [.u8 n, .u8 r.kind.code, .u8 (if r.level = .clear then 1 else 2), .u8 (if r.confirmed = .clear then 1 else 2),
      .u8 (match r.pending with | none => 0 | some p => if p.toward = .clear then 1 else 2),
      numberOrFFFF (r.pending.map Pending.left), flagField r.forced, numberOr0 r.reservedBy, .u8 r.selection.code,
      flagField r.noise, numberOr0 d.gate, numberOr0 d.siding]
  | none => [.u8 n, .u8 d.kind.code, numberOr0 d.gate, numberOr0 d.siding, .u8 d.selection.code]

/-- R2, R3, R51: a record of the point table (log entry 37). -/
def pointTableRecord (s : State) (n : Nat) (d : PointDef) : List Field :=
  match Tbl.find n s.points with
  | some r => [.u8 n, .u8 r.sect, .u8 r.throwLimit, .u8 r.state.code, .u8 r.reading.code, positionField r.commanded,
      numberOr0 r.lock, numberOrFFFF (if r.throwTimer.isSome then r.throwTimer else r.coolTimer), .u8 r.failures,
      .u32 (match r.firstFailure with | some t => s.seconds - t | none => 0xFFFFFFFF), flagField r.lossLatch]
  | none => [.u8 n, numberOr0 d.sect, .u8 d.throwLimit]

/-- R55, R80: a route table entry with the aspect of its origin signal; the time left of a timer is in seconds, a part of one
free (log entry 27). -/
def entryRecord (s : State) (slot : Nat) (e : RouteEntry) : List Field :=
  [.u8 slot, .u8 e.route, .u8 e.kind.code, .u8 e.owner.code, .u8 e.state.code, numberOrFFFF e.tram, .u8 e.front, .u8 e.released,
   .u8 ((if e.causes.pointLost then 1 else 0) + (if e.causes.irregular then 2 else 0) + (if e.causes.unexpected then 4 else 0)),
   .u8 e.irregular.length] ++ e.irregular.map .u8 ++ [.u8 e.withheld.length] ++ e.withheld.map .u8 ++
  [match e.timer with | some k => secondsLeft k | none => .u8 0] ++ purposeLink e.purpose ++
  [.u8 (if (Tbl.find e.route s.desc.routes).any (fun d => s.aspect d.origin) then 2 else 1)]

/-- 09 section 9.7: a siding-stack record. -/
def stackRecord (pos : Nat) (x : StackRec) : List Field :=
  [.u8 pos, .u16 x.fleet, .u8 x.length, .u8 x.mandatory.byte, .u8 x.wanted.byte,
   .u8 (match x.state with | .reserved => 1 | .stabled => 2 | .called => 3 | .leaving => 4), .u8 (if x.entered then 1 else 0),
   numberOrFFFF x.stabledAt] ++
  (match x.purpose with
    | none => [.u8 0, .u16 0xFFFF]
    | some (.gateArrival g) => [.u8 1, .u16 g]
    | some (.shuntEntry h) => [.u8 2, .u16 h]
    | some (.dutyDeparture d) => [.u8 3, .u16 d]
    | some (.fleetDeparture g) => [.u8 4, .u16 g])

/-- 06 section 6.1: an arrival record. -/
def arrivalRecord (pos : Nat) (a : Arrival) : List Field :=
  [.u8 pos, numberOrFFFF a.fleet, numberOrFFFF a.claimed, numberOr0 a.length, .u8 ((a.mandatory.map Needs.byte).getD 0),
   .u8 ((a.wanted.map Needs.byte).getD 0), .u8 (match a.mark with | .none => 1 | .unread => 2 | .conflict => 3),
   .u8 (match a.state with | .waiting => 1 | .allocated => 2 | .routed => 3), numberOr0 a.siding, numberOr0 a.slot,
   flagField a.paused, numberOrFFFF a.readTime]

/-- 08 section 8.3: a departure record. -/
def departureRecord (d : Departure) : List Field :=
  [.u16 d.fleet, .u8 d.siding, .u8 d.gate, .u8 d.route, .u8 d.owner.code, numberOr0 d.slot,
   .u8 (match d.progress with | .called => 1 | .entered => 2 | .pastMouth => 3)]

/-- R157: a roster entry with its departure record where present. -/
def rosterRecord (e : Duty) : List Field :=
  [.u16 e.duty, .u16 e.due, .u8 e.gate, numberOrFFFF e.fleet, numberOr0 e.minLength, .u8 (if e.departure.isSome then 2 else 1),
   flagField e.bound, flagField e.dueNotified, flagField e.lateNotified, numberOr0 (e.lastRefusal.map Reason.code)] ++
  (match e.departure with | some d => departureRecord d | none => [])

/-- 07 section 7.6: a shunt table entry. -/
def shuntRecord (h : Nat) (e : ShuntEntry) : List Field :=
  [.u8 h, .u16 e.fleet, .u8 e.source, .u8 e.target, .u8 (if e.owner = .planner then 1 else 2), .u8 (phaseOf e), .u8 e.outRoute,
   numberOr0 e.inRoute, .u8 (match e.standing with | .none => 1 | .stored => 2 | .table => 3)]

/-- R178: what a read at a cursor finds: the record of its table at the index or after it, with the record's own index. -/
def recordAt (s : State) (c : Cursor) : Option (Nat × List Field) :=
  let numbered {α : Type} (t : Tbl α) (f : Nat → α → List Field) : Option (Nat × List Field) :=
    (t.filter (fun p => c.index ≤ p.1)).head?.map (fun p => (p.1, f p.1 p.2))
  let listed {α : Type} (l : List α) (f : Nat → α → List Field) : Option (Nat × List Field) :=
    if c.index = 0 then none else (l[c.index - 1]?).map (fun x => (c.index, f c.index x))
  match c.table with
  | .sections => numbered s.desc.sections (sectionTableRecord s)
  | .points => numbered s.desc.points (pointTableRecord s)
  | .routeTable => numbered s.route.table (entryRecord s)
  | .routeStore => listed s.route.store (fun pos e =>
      [.u8 pos, .u8 e.route, .u8 e.owner.code] ++ purposeLink e.purpose ++ [numberOrFFFF e.tram, .u32 e.timer])
  | .stack => (Tbl.find c.qualifier s.stab.sidings).bind (fun r =>
      if c.index = 0 then some (0, [.u8 c.qualifier, .u8 r.mouth, .u8 r.body, .u16 r.length, .u8 r.abilities.byte,
        .u8 (if r.census = .known then 1 else 2), flagField r.blocked, numberOr0 r.incoming,
        .u16 (r.length - (r.stack.map (fun x => x.length + s.param.spacing)).sum)])
      else listed r.stack stackRecord)
  | .arrivals => (Tbl.find c.qualifier s.gates).bind (fun x => listed x.queue arrivalRecord)
  | .roster => listed (s.roster.duties.map rosterRecord ++ s.roster.fleetDepartures.map departureRecord) (fun _ f => f)
  | .shunts => numbered s.stab.shunts shuntRecord
  | .alarms => listed s.sup.alarms (fun pos a => [.u8 pos] ++ a.alarm.fields ++ [numberOrFFFF a.raiseTime, .u8 a.count,
      .u8 (match a.state with | .raised => 1 | .acked => 2 | .cleared => 3)])
  | .catalogue =>
    if c.index ≤ 1 then (Tbl.find c.qualifier s.desc.routes).map (fun d =>
      (1, (encodeRouteDef c.qualifier d).map (fun b => .u8 b.toNat)))
    else none

/-- R178, R31, R51, R80, R157: what a table read finds. -/
def tableRecords : Prop := ∀ (s : State) (c : Cursor), s.readTable c = recordAt s c

/-- R174, R176–R179: the requests that a port answers itself, and what the records of the tables hold. -/
def Obligations.PortsAnswerTheirOwnRequests : Prop := portsAnswerTheirOwnRequests ∧ tableRecords

/-- Only one port changes. -/
def OnlyPort (p : Port) (x : PortState) (s u : State) : Prop :=
  KeepsAllBut [.ports] s u ∧ u.port p = x ∧ ∀ p', p' ≠ p → u.port p' = s.port p'

/-- R168, R169, R172, R179: a gap in a frame, a break, and the end of a frame being sent. -/
def Obligations.LineEventsAtAPort : Prop :=
  ∀ (p : Port) (s : State),
    let x : PortState := s.port p
    (∃ u, exec (.frameGap p) s = .next u.settle ∧ u.claims = s.claims ∧
      OnlyPort p (if x.receiver = .hunt then x else { x with receiver := .hunt, lineError := true }) s u) ∧
    (∃ u, exec (.lineBreak p) s = .next u.settle ∧ u.claims = s.claims ∧
      OnlyPort p { x with
        receiver := .hunt, queue := [], notices := [], cursor := none, noticesLost := false, lineError := false
        path := (x.path.filter (fun a => !a.busy)).map (fun a => if a.ofHand then { a with dropped := true } else a)
        inHand := x.inHand.map (fun h => { h with dropped := true }) } s u) ∧
    (∃ u, exec (.frameSent p) s = .next u.settle ∧ u.claims = s.claims ∧
      OnlyPort p { x with
        sending := none
        inHand := match x.sending with | some (.answer a) => if a.ofHand then none else x.inHand | _ => x.inHand } s u)

/-- The characters of a frame on the line, each with a good stop bit (R167, 09 section 9.7). -/
def frameChars (bytes : List Byte) : List LineChar := bytes.map (fun b => ⟨b, true⟩)

/-- R168, R170, R171: a frame received in HUNT: queued while a request is in hand, or BUSY, or discarded; with nothing waiting,
it is checked and handed to its owner, or refused; and a frame whose CRC does not match. -/
def framesAreReceived : Prop :=
  ∀ (p : Port) (kind tag : Byte) (payload : List Byte) (s : State), payload.length ≤ 56 → (s.port p).receiver = .hunt →
    let x : PortState := s.port p
    let bytes : List Byte := BitVec.ofNat 8 (payload.length + 2) :: kind :: tag :: payload
    let chars : List LineChar := frameChars (0xA5 :: bytes ++ crcBytes bytes)
    let takes (claims : List Instr) (y : PortState) : Prop :=
      ∃ u, exec (.controlFrame p chars) s = .next u.settle ∧ u.claims = claims ∧ OnlyPort p y s u
    (x.inHand.isSome →
      let busy : Nat := (x.path.filter Answer.busy).length +
        (match x.sending with | some (.answer a) => if a.busy then 1 else 0 | _ => 0)
      takes s.claims
        (if x.queue.length < 4 then { x with queue := x.queue ++ [⟨kind, tag, payload⟩] }
         else if busy < 4 then { x with path := x.path ++ [⟨kind, tag, ⟨.refused, some .busy, []⟩, true, false, false⟩] }
         else { x with lineError := true })) ∧
    (x.inHand = none → x.queue = [] →
      let refused (r : Reason) : Prop :=
        takes s.claims { x with
          inHand := some ⟨kind, tag, s.op, true, false⟩
          path := x.path ++ [⟨kind, tag, ⟨.refused, some r, []⟩, false, true, false⟩] }
      match Kind.ofCode? kind.toNat with
      | none => refused .badArgument
      | some k =>
        if !mayMake p kind.toNat then refused .notPermitted
        else match decodeRequest k ⟨p, tag⟩ payload with
          | none => refused .badArgument
          | some c =>
            if !c.codesOk || (match c.gateNamed with
              | some g => decide (s.op = .run) && (Tbl.find g s.desc.gates).isNone | none => false) then refused .badArgument
            else 0x05 < kind.toNat → takes (s.claims ++ [c]) { x with inHand := some ⟨kind, tag, s.op, false, false⟩ }) ∧
    (∀ crc : List Byte, crc.length = 2 → crc ≠ crcBytes bytes → x.inHand.isSome ∨ x.queue = [] →
      ∃ u, exec (.controlFrame p (frameChars (0xA5 :: bytes ++ crc))) s = .next u.settle ∧ u.claims = s.claims ∧
        OnlyPort p { x with lineError := true } s u)

/-- R167, R168: one character at a receiver: what it makes of the SYNC byte, of a framing error, of a LENGTH out of its bounds, of a
byte within the frame, and of a last byte that leaves the CRC unmatched. -/
def receiverTakesACharacter : Prop :=
  ∀ (p : Port) (b : Byte) (good : Bool) (s : State), (s.port p).inHand.isSome ∨ (s.port p).queue = [] →
    let x : PortState := s.port p
    let takes (y : PortState) : Prop :=
      ∃ u, exec (.controlFrame p [⟨b, good⟩]) s = .next u.settle ∧ u.claims = s.claims ∧ OnlyPort p y s u
    let discards : Prop := takes { x with receiver := .hunt, lineError := true }
    match x.receiver with
    | .hunt => takes (if good = true ∧ b = 0xA5 then { x with receiver := .frame [] } else x)
    | .frame got =>
      let bytes : List Byte := got ++ [b]
      if good = false then discards
      else ∀ len rest, bytes = len :: rest →
        (rest = [] → len.toNat < 2 ∨ 58 < len.toNat → discards) ∧
        (2 ≤ len.toNat → len.toNat ≤ 58 →
          (rest.length < len.toNat + 2 → takes { x with receiver := .frame bytes }) ∧
          (rest.length = len.toNat + 2 → bytes.drop (len.toNat + 1) ≠ crcBytes (bytes.take (len.toNat + 1)) → discards))

/-- R171, R181: whether a payload is one of its kind: its length is the kind's, or what its count bytes or its alarm kind ask
for, which is the model's choice (log entry 60); the setting of SECTION_FORCE is part of its kind of command. -/
def payloadFits (k : Kind) (p : List Byte) : Bool :=
  let byte (i : Nat) : Nat := ((p[i]?).map BitVec.toNat).getD 0
  match k with
  | .status | .portReset | .tableNext | .configCommit | .rosterClear | .halt | .haltRelease | .restart | .alarmAckAll =>
    p.length = 0
  | .subscribe | .sectionQuery | .pointBlock | .pointRestore | .pointQuery | .routeSet | .routeCancel | .routeResume
  | .routeForceRelease | .arrivalResume | .gateHold | .gateRelease | .gateClearOverrun | .lineHold | .lineRelease
  | .sidingBlock | .sidingUnblock | .sidingDoubt | .shuntCancel => p.length = 1
  | .headshuntDef | .pointThrow | .arrivalDiscard | .sidingAbilities | .shuntRetarget | .clockSet | .rosterRemove | .rosterAuto =>
    p.length = 2
  | .sectionForce => p.length = 2 && isIn (byte 0) 1 2
  | .tableSelect | .pointDef | .shunt => p.length = 3
  | .sectionDef | .depart => p.length = 5
  | .sidingDef | .arrivalAdd => p.length = 6
  | .arrivalIdentify => p.length = 7
  | .rosterAdd => p.length = 8
  | .gateDef => isIn (byte 3) 1 4 && p.length = 5 + byte 3
  | .routeDef => isIn p.length 9 56
  | .yardParams => p.length = 20 && byte 0 < 0x40
  | .censusSet => 2 ≤ p.length && isIn (byte 1) 0 12 && p.length = 2 + 5 * byte 1
  | .alarmAck => if byte 1 = 6 ∨ byte 1 = 7 ∨ byte 1 = 10 then p.length = 4 else p.length = 3

/-- A two-byte number, high byte first. -/
def wide (hi lo : Byte) : Nat := hi.toNat * 256 + lo.toNat
/-- An optional one-byte number: 0 is absent. -/
def present8 (b : Byte) : Option Nat := if b = 0 then none else some b.toNat
/-- An optional two-byte number: 0xFFFF is absent. -/
def present16 (hi lo : Byte) : Option Nat := if hi = 0xFF ∧ lo = 0xFF then none else some (wide hi lo)

/-- R181, 09 section 9.7: the fields of each kind's payload, in the order in which its rule names them (log entries 8, 9, 10). -/
def payloadFields : Prop :=
  ∀ (q : Req) (a b c d e f g h : Byte),
    (∀ k p, (decodeRequest k q p).isSome = payloadFits k p) ∧
    decodeRequest .status q [] = some (.status q) ∧ decodeRequest .subscribe q [a] = some (.subscribe q a) ∧
    decodeRequest .portReset q [] = some (.portReset q) ∧ decodeRequest .tableNext q [] = some (.tableNext q) ∧
    decodeRequest .tableSelect q [a, b, c] = some (.tableSelect q a.toNat b.toNat c.toNat) ∧
    decodeRequest .sectionDef q [a, b, c, d, e] =
      some (.sectionDef q a.toNat b.toNat (present8 c) (present8 d) e.toNat) ∧
    decodeRequest .pointDef q [a, b, c] = some (.pointDef q a.toNat (present8 b) c.toNat) ∧
    decodeRequest .sidingDef q [a, b, c, d, e, f] = some (.sidingDef q a.toNat b.toNat c.toNat (wide d e) f) ∧
    (∀ sects : List Byte, 1 ≤ sects.length → sects.length ≤ 4 →
      decodeRequest .gateDef q ([a, b, c, BitVec.ofNat 8 sects.length] ++ sects ++ [d]) =
        some (.gateDef q a.toNat b.toNat c.toNat (sects.map BitVec.toNat) d.toNat)) ∧
    decodeRequest .headshuntDef q [a, b] = some (.headshuntDef q a.toNat b.toNat) ∧
    (∀ p : List Byte, 9 ≤ p.length → p.length ≤ 56 → decodeRequest .routeDef q p = some (.routeDef q p)) ∧
    (∀ (m1 m0 o1 o0 cc cd f1 f0 tr s1 s0 rw sp r1 r0 cb hm cl dl ip : Byte), m1.toNat < 0x40 →
      let given (i v : Nat) : Option Nat := if (if i < 8 then m0.getLsbD i else m1.getLsbD (i - 8)) then some v else none
      decodeRequest .yardParams q [m1, m0, o1, o0, cc, cd, f1, f0, tr, s1, s0, rw, sp, r1, r0, cb, hm, cl, dl, ip] =
        some (.yardParams q ⟨given 0 (wide o1 o0), given 1 cc.toNat, given 2 cd.toNat, given 3 (wide f1 f0), given 4 tr.toNat,
          given 5 (wide s1 s0), given 6 rw.toNat, given 7 sp.toNat, given 8 (wide r1 r0), given 9 cb.toNat, given 10 hm.toNat,
          given 11 cl.toNat, given 12 dl.toNat, given 13 ip.toNat⟩)) ∧
    decodeRequest .configCommit q [] = some (.configCommit q) ∧
    decodeRequest .sectionForce q [1, a] = some (.sectionForceOn q a.toNat) ∧
    decodeRequest .sectionForce q [2, a] = some (.sectionForceOff q a.toNat) ∧
    decodeRequest .sectionQuery q [a] = some (.sectionQuery q a.toNat) ∧
    decodeRequest .pointThrow q [a, b] = some (.pointThrow q a.toNat b.toNat) ∧
    decodeRequest .pointBlock q [a] = some (.pointBlock q a.toNat) ∧
    decodeRequest .pointRestore q [a] = some (.pointRestore q a.toNat) ∧
    decodeRequest .pointQuery q [a] = some (.pointQuery q a.toNat) ∧
    decodeRequest .routeSet q [a] = some (.routeSet q a.toNat) ∧
    decodeRequest .routeCancel q [a] = some (.routeCancel q a.toNat) ∧
    decodeRequest .routeResume q [a] = some (.routeResume q a.toNat) ∧
    decodeRequest .routeForceRelease q [a] = some (.routeForceRelease q a.toNat) ∧
    decodeRequest .arrivalIdentify q [a, b, c, d, e, f, g] =
      some (.arrivalIdentify q a.toNat b.toNat (wide c d) e.toNat f g) ∧
    decodeRequest .arrivalDiscard q [a, b] = some (.arrivalDiscard q a.toNat b.toNat) ∧
    decodeRequest .arrivalAdd q [a, b, c, d, e, f] = some (.arrivalAdd q a.toNat (wide b c) d.toNat e f) ∧
    decodeRequest .arrivalResume q [a] = some (.arrivalResume q a.toNat) ∧
    decodeRequest .gateHold q [a] = some (.gateHold q a.toNat) ∧
    decodeRequest .gateRelease q [a] = some (.gateRelease q a.toNat) ∧
    decodeRequest .gateClearOverrun q [a] = some (.gateClearOverrun q a.toNat) ∧
    decodeRequest .lineHold q [a] = some (.lineHold q a.toNat) ∧
    decodeRequest .lineRelease q [a] = some (.lineRelease q a.toNat) ∧
    (∀ es : List CensusEntry, es.length ≤ 12 → (∀ x ∈ es, x.fleet < 65536 ∧ x.length < 256) →
      decodeRequest .censusSet q ([a, BitVec.ofNat 8 es.length] ++ es.flatMap (fun x =>
        [BitVec.ofNat 8 (x.fleet / 256), BitVec.ofNat 8 x.fleet, BitVec.ofNat 8 x.length, x.mandatory, x.wanted])) =
        some (.censusSet q a.toNat es)) ∧
    decodeRequest .sidingAbilities q [a, b] = some (.sidingAbilities q a.toNat b) ∧
    decodeRequest .sidingBlock q [a] = some (.sidingBlock q a.toNat) ∧
    decodeRequest .sidingUnblock q [a] = some (.sidingUnblock q a.toNat) ∧
    decodeRequest .sidingDoubt q [a] = some (.sidingDoubt q a.toNat) ∧
    decodeRequest .shunt q [a, b, c] = some (.shunt q (wide a b) c.toNat) ∧
    decodeRequest .shuntCancel q [a] = some (.shuntCancel q a.toNat) ∧
    decodeRequest .shuntRetarget q [a, b] = some (.shuntRetarget q a.toNat b.toNat) ∧
    decodeRequest .clockSet q [a, b] = some (.clockSet q (wide a b)) ∧
    decodeRequest .rosterAdd q [a, b, c, d, e, f, g, h] =
      some (.rosterAdd q (wide a b) (wide c d) e.toNat (present16 f g) (present8 h)) ∧
    decodeRequest .rosterRemove q [a, b] = some (.rosterRemove q (wide a b)) ∧
    decodeRequest .rosterClear q [] = some (.rosterClear q) ∧
    decodeRequest .rosterAuto q [a, b] = some (.rosterAuto q a.toNat b.toNat) ∧
    decodeRequest .depart q [a, b, c, d, e] = some (.depart q (present16 a b) (present16 c d) (present8 e)) ∧
    decodeRequest .halt q [] = some (.halt q) ∧ decodeRequest .haltRelease q [] = some (.haltRelease q) ∧
    decodeRequest .restart q [] = some (.restart q) ∧ decodeRequest .alarmAckAll q [] = some (.alarmAckAll q) ∧
    (b.toNat ∉ [6, 7, 10] → decodeRequest .alarmAck q [a, b, c] = some (.alarmAck q a.toNat b.toNat c.toNat none)) ∧
    (b.toNat ∈ [7, 10] → decodeRequest .alarmAck q [a, b, c, d] = some (.alarmAck q a.toNat b.toNat (wide c d) none)) ∧
    (b.toNat = 6 → decodeRequest .alarmAck q [a, b, c, d] = some (.alarmAck q a.toNat 6 c.toNat (some d.toNat)))

/-- R167, R168, R170, R171, R181: a frame received, one character of it, and the command that a payload of each kind stands for. -/
def Obligations.FramesAreReceived : Prop := framesAreReceived ∧ receiverTakesACharacter ∧ payloadFields

/-! ## The machine as a whole -/

/-- Everything as a power-on reset leaves it, whatever it was before, but the lines and the commands waiting (R1). -/
def AfterReset (straps : Straps) (u : State) : Prop :=
  u.claims = [] ∧ u.op = .config ∧ u.uptime = 0 ∧ u.desc = ⟨[], [], [], [], [], [], none⟩ ∧ u.inForce = none ∧
  u.sections = [] ∧ u.points = [] ∧ u.route = ⟨[], [], false, []⟩ ∧ u.gates = [] ∧ u.stab = ⟨[], [], false⟩ ∧
  u.roster = ⟨none, none, [], [], false, false, false⟩ ∧ u.sup = ⟨false, [], false, false, none⟩ ∧
  u.desk = ⟨if straps.desk.getLsbD 1 then .b115200 else .b38400, .hunt, [], none, [], none, [],
    ⟨true, true, true, true, true, true, true⟩, none, false, false⟩ ∧
  u.planner = ⟨if straps.planner.getLsbD 1 then .b115200 else .b38400, .hunt, [], none, [], none, [],
    ⟨false, false, false, false, true, true, true⟩, none, false, false⟩ ∧
  u.line = ⟨if straps.line.getLsbD 1 then .b115200 else .b38400, .hunt, [], none, [], none, [],
    ⟨false, false, false, true, false, true, false⟩, none, false, false⟩

/-- R1, R82, R124, R148, R166, R167, R176, R179, R191: a power-on reset from any state; and the state after reset, whose straps
and idle lines are the model's choice (log entry 6). -/
def Obligations.PowerOnReset : Prop :=
  (∀ (straps : Straps) (s : State), ∃ u, exec (.powerOnReset straps) s = .next u ∧ AfterReset straps u ∧
    u.pins = s.pins ∧ u.pending = s.pending) ∧
  AfterReset ⟨0, 0, 0⟩ State.reset ∧ State.reset.pending = []

/-- A step takes the command at the front of the queue: it is that command's taking on the state with the queue's rest. -/
def Obligations.StepTakesTheFrontCommand : Prop :=
  ∀ (c : Instr) (rest : List Instr) (s : State), s.pending = c :: rest → step s = exec c { s with pending := rest }

/-- R22, R45, R46, R75, R95, R109, R110, R150: the expiries that stand are those of the timers that run and have nothing left: of a
pending change, a throw, a cool-down, a stored request, a time release, a reader wait, an early read, and the minute. -/
def expiriesAreOfTimersRunOut : Prop :=
  ∀ (s : State) (c : Instr), c ∈ s.expiries ↔ match c with
    | .confirmationTimerExpiry n => ∃ r p, (n, r) ∈ s.sections ∧ r.pending = some p ∧ p.left = 0
    | .throwTimerExpiry n => ∃ r, (n, r) ∈ s.points ∧ r.throwTimer = some 0
    | .coolDownExpiry n => ∃ r, (n, r) ∈ s.points ∧ r.coolTimer = some 0
    | .storeTimerExpiry k => ∃ e ∈ s.route.store, e.route = k ∧ e.timer = 0
    | .timeReleaseExpiry slot => ∃ e, (slot, e) ∈ s.route.table ∧ e.timer = some 0
    | .readerWaitExpiry g => ∃ x, (g, x) ∈ s.gates ∧ x.waitTimer = some 0
    | .earlyReadExpiry g => ∃ x r, (g, x) ∈ s.gates ∧ x.early = some r ∧ r.left = 0
    | .minuteTimerExpiry => s.roster.minuteTimer = some 0
    | _ => False

/-- The order of the expiries that stand (log entry 2, DESIGN CHOICE): kind by kind, and within a kind as their table or the store
has them. -/
def expiriesInOrder : Prop :=
  ∀ s : State,
    let due {α : Type} (t : Tbl α) (left : α → Option Nat) (expiry : Nat → Instr) : List Instr :=
      (t.filter (fun p => left p.2 = some 0)).map (fun p => expiry p.1)
    s.expiries =
      due s.sections (fun r => r.pending.map Pending.left) .confirmationTimerExpiry ++
      due s.points PointRec.throwTimer .throwTimerExpiry ++ due s.points PointRec.coolTimer .coolDownExpiry ++
      (s.route.store.filter (fun e => e.timer = 0)).map (fun e => .storeTimerExpiry e.route) ++
      due s.route.table RouteEntry.timer .timeReleaseExpiry ++
      due s.gates Gate.waitTimer .readerWaitExpiry ++ due s.gates (fun x => x.early.map EarlyRead.left) .earlyReadExpiry ++
      (if s.roster.minuteTimer = some 0 then [.minuteTimerExpiry] else [])

/-- With an empty queue (log entry 2, DESIGN CHOICE): the oldest claim in flight is taken, else the first expiry that stands, else a
millisecond passes for every running timer; and which expiries stand, and in which order. -/
def Obligations.StepOnAnEmptyQueue : Prop :=
  expiriesAreOfTimersRunOut ∧ expiriesInOrder ∧
  ∀ s : State, s.pending = [] →
    (∀ c l, s.claims = c :: l → step s = exec c s) ∧
    (s.claims = [] → ∀ c l, s.expiries = c :: l → step s = exec c s) ∧
    (s.claims = [] → s.expiries = [] → ∃ u, step s = .next u ∧ u.uptime = s.uptime + 1 ∧
      u.op = s.op ∧ u.desc = s.desc ∧ u.pins = s.pins ∧ u.inForce = s.inForce ∧ u.stab = s.stab ∧ u.sup = s.sup ∧
      u.pending = [] ∧ u.claims = [] ∧ (∀ p, u.port p = s.port p) ∧
      u.route.halt = s.route.halt ∧ u.route.proceed = s.route.proceed ∧
      (∀ m, Tbl.find m u.sections = (Tbl.find m s.sections).map (fun r =>
        { r with pending := r.pending.map (fun x => ⟨x.toward, x.left - 1⟩) })) ∧
      (∀ m, Tbl.find m u.points = (Tbl.find m s.points).map (fun r =>
        { r with throwTimer := r.throwTimer.map (· - 1), coolTimer := r.coolTimer.map (· - 1) })) ∧
      u.route.store = s.route.store.map (fun e => { e with timer := e.timer - 1 }) ∧
      (∀ m, Tbl.find m u.route.table = (Tbl.find m s.route.table).map (fun e => { e with timer := e.timer.map (· - 1) })) ∧
      (∀ m, Tbl.find m u.gates = (Tbl.find m s.gates).map (fun x =>
        { x with waitTimer := x.waitTimer.map (· - 1), early := x.early.map (fun y => ⟨y.frame, y.left - 1⟩) })) ∧
      u.roster = { s.roster with minuteTimer := s.roster.minuteTimer.map (· - 1) })

/-- Every command is taken to its end in every state, and leaves the queue as it is. -/
def Obligations.EveryCommandIsTaken : Prop :=
  ∀ (c : Instr) (s : State), ∃ u : State, exec c s = .next u.settle ∧ u.pending = s.pending

/-- R171: the oldest request of the queue of a port with none in hand is in hand: refused by the port, handed to its owner as a
claim in flight, or, where the port owns it, taken at once as its command is (log entry 17). -/
def HandsOn (p : Port) (f : Frame) (rest : List Frame) (s u : State) : Prop :=
  let x : PortState := s.port p
  let hand (answered : Bool) : PortState := { x with queue := rest, inHand := some ⟨f.kind, f.tag, s.op, answered, false⟩ }
  let refused (r : Reason) : Prop := u.claims = s.claims ∧
    OnlyPort p { hand true with path := x.path ++ [⟨f.kind, f.tag, ⟨.refused, some r, []⟩, false, true, false⟩] } s u
  match Kind.ofCode? f.kind.toNat with
  | none => refused .badArgument
  | some k =>
    if !mayMake p f.kind.toNat then refused .notPermitted
    else match decodeRequest k ⟨p, f.tag⟩ f.payload with
      | none => refused .badArgument
      | some c =>
        if !c.codesOk || (match c.gateNamed with
          | some g => decide (s.op = .run) && (Tbl.find g s.desc.gates).isNone | none => false) then refused .badArgument
        else if 0x05 < f.kind.toNat then u.claims = s.claims ++ [c] ∧ OnlyPort p (hand false) s u
        else KeepsAllBut [.ports] s u ∧ u.claims = s.claims ∧ (∀ p', p' ≠ p → u.port p' = s.port p') ∧
          ∀ t, OnlyPort p (hand false) s t → t.claims = c :: s.claims → exec c t = .next u.settle

/-- R171, R172, R175, R179: how a port goes on at the end of a taking. With no request in hand the oldest of its queue is handed
on. An idle line then begins the oldest answer, and with none the oldest notice, which leaves the queue; an answer that a port
reset has dropped is passed over at its turn, and its request ends (log entry 15). -/
inductive PortGoesOn (p : Port) : State → State → Prop where
  | handsOn (f : Frame) (rest : List Frame) (s u t : State) :
    (s.port p).inHand = none → (s.port p).queue = f :: rest → HandsOn p f rest s u → PortGoesOn p u t → PortGoesOn p s t
  | answers (a : Answer) (rest : List Answer) (s t : State) :
    (s.port p).inHand.isSome ∨ (s.port p).queue = [] → (s.port p).sending = none → (s.port p).path = a :: rest →
    a.dropped = false → t.claims = s.claims → OnlyPort p { s.port p with path := rest, sending := some (.answer a) } s t →
    PortGoesOn p s t
  | passesOver (a : Answer) (rest : List Answer) (s u t : State) :
    (s.port p).inHand.isSome ∨ (s.port p).queue = [] → (s.port p).sending = none → (s.port p).path = a :: rest →
    a.dropped = true → u.claims = s.claims →
    OnlyPort p { s.port p with path := rest, inHand := if a.ofHand then none else (s.port p).inHand } s u → PortGoesOn p u t →
    PortGoesOn p s t
  | notices (n : Notice) (rest : List Notice) (s t : State) :
    (s.port p).inHand.isSome ∨ (s.port p).queue = [] → (s.port p).sending = none → (s.port p).path = [] →
    (s.port p).notices = n :: rest → t.claims = s.claims →
    OnlyPort p { s.port p with notices := rest, sending := some (.notice n) } s t → PortGoesOn p s t
  | rests (s : State) :
    (s.port p).inHand.isSome ∨ (s.port p).queue = [] →
    (s.port p).sending.isSome ∨ ((s.port p).path = [] ∧ (s.port p).notices = []) → PortGoesOn p s s

/-- R119: the notices of the hold signals that a taking has changed: GATE_OPEN, or GATE_HELD with the held-reason set. -/
def holdNotices (u : State) (s : State) : State :=
  [1, 2].foldl (fun s g => match Tbl.find g u.gates with
    | none => s
    | some x =>
      let free : Bool := x.held = ⟨false, false, false, false, false, false, false⟩
      if free = x.holdProceed then s
      else if free then s.post .gate 5 [.u8 g]
      else s.post .gate 4 [.u8 g, .u8 ((if x.held.queueHigh then 1 else 0) + (if x.held.capacityLow then 2 else 0) +
        (if x.held.unresolved then 4 else 0) + (if x.held.overrun then 8 else 0) + (if x.held.forced then 16 else 0) +
        (if x.held.halt then 32 else 0) + (if x.held.restart then 64 else 0))]) s

/-- R119, R171, R172, R175: at the end of every taking the hold signals are noticed, and then the ports go on: the desk's, the
planner's, the line's. -/
def portsGoOn : Prop :=
  ∀ u : State, ∃ v a b : State,
    v.claims = u.claims ∧ (∀ p, (v.port p) = ((holdNotices u u).port p)) ∧
    PortGoesOn .desk v a ∧ PortGoesOn .planner a b ∧ PortGoesOn .line b u.settle

/-- R71, R119, R172, R189: how every taking ends: the route signals, the hold signals and the alarm output take the values the
rules give them, the ports may hand on requests and send, and nothing else changes. -/
def outputsAreSet : Prop :=
  ∀ u : State,
    let t := u.settle
    t.pending = u.pending ∧ t.uptime = u.uptime ∧ t.op = u.op ∧ t.pins = u.pins ∧ t.desc = u.desc ∧ t.inForce = u.inForce ∧
    t.sections = u.sections ∧ t.points = u.points ∧ t.stab = u.stab ∧ t.roster = u.roster ∧ u.claims <+: t.claims ∧
    t.route = { u.route with proceed := t.route.proceed } ∧
    (∀ n, n ∈ t.route.proceed ↔ 1 ≤ n ∧ n ≤ 48 ∧ u.route.halt = false ∧
      ∃ slot e d, (slot, e) ∈ u.route.table ∧ e.state = .proceed ∧ Tbl.find e.route u.desc.routes = some d ∧ d.origin = n ∧
        ∀ p ∈ d.points, ∃ r, Tbl.find p.1 u.points = some r ∧ r.lock = some slot ∧
          r.state = (if p.2 = .normal then .normal else .reverse)) ∧
    (∀ m, Tbl.find m t.gates = (Tbl.find m u.gates).map (fun x =>
      if m = 1 ∨ m = 2 then { x with holdProceed := decide (x.held = ⟨false, false, false, false, false, false, false⟩) }
      else x)) ∧
    t.sup = { u.sup with output := u.sup.overflow || u.sup.alarms.any (fun a => a.state ≠ .acked) }

/-- R71, R119, R171, R172, R189: how every taking ends: the output lines, and the ports. -/
def Obligations.EndOfTaking : Prop := outputsAreSet ∧ portsGoOn

/-- The output lines show what the rules give for the state as it stands: the route signals (R71), the hold signals of the
gates (R119), the alarm output (R189). -/
def OutputsFollow (s : State) : Prop :=
  s.route.proceed = s.proceedSignals ∧
  (∀ m x, Tbl.find m s.gates = some x → m = 1 ∨ m = 2 →
    x.holdProceed = decide (x.held = ⟨false, false, false, false, false, false, false⟩)) ∧
  s.sup.output = (s.sup.overflow || s.sup.alarms.any (fun a => a.state ≠ .acked))

/-- R71, R119, R189: in every step the output lines go on following the state. -/
def Obligations.OutputsFollowEveryStep : Prop := ∀ s t : State, OutputsFollow s → step s = .next t → OutputsFollow t

/-- In CONFIG no block holds anything and no parameter is in force (R1); in RUN each block holds one record for each
defined section, point, gate and siding, in the description's order, and parameters are in force (R14, R17, R18). -/
def RecordsMatchTheDescription (s : State) : Prop :=
  match s.op with
  | .config => s.sections = [] ∧ s.points = [] ∧ s.gates = [] ∧ s.stab.sidings = [] ∧ s.inForce = none
  | .run =>
    Tbl.keys s.sections = Tbl.keys s.desc.sections ∧ Tbl.keys s.points = Tbl.keys s.desc.points ∧
    Tbl.keys s.gates = Tbl.keys s.desc.gates ∧ Tbl.keys s.stab.sidings = Tbl.keys s.desc.sidings ∧ s.inForce.isSome

/-- R1, R3, R14: no step makes or loses a section, point, gate or siding record but the passage to RUN and a power-on reset. -/
def recordsMatchEveryStep : Prop :=
  ∀ s t : State, RecordsMatchTheDescription s → step s = .next t → RecordsMatchTheDescription t

/-- R4: at most one record is held for each kind and number: the tables of the description and of the blocks are in rising order
of their numbers. -/
def TablesInOrder (s : State) : Prop :=
  Tbl.wf s.desc.sections ∧ Tbl.wf s.desc.points ∧ Tbl.wf s.desc.sidings ∧ Tbl.wf s.desc.gates ∧ Tbl.wf s.desc.headShunts ∧
  Tbl.wf s.desc.routes ∧ Tbl.wf s.sections ∧ Tbl.wf s.points ∧ Tbl.wf s.route.table ∧ Tbl.wf s.gates ∧
  Tbl.wf s.stab.sidings ∧ Tbl.wf s.stab.shunts

/-- R1, R3, R4, R14: every step keeps the records matched to the description, and every table in order. -/
def Obligations.RecordsMatchEveryStep : Prop :=
  recordsMatchEveryStep ∧ ∀ s t : State, TablesInOrder s → step s = .next t → TablesInOrder t

/-- A pending change goes to the input level, against the confirmed state, in a section that is not forced (R21–R23, R28). -/
def PendingIsTheInput (s : State) : Prop :=
  ∀ n r p, Tbl.find n s.sections = some r → r.pending = some p →
    r.forced = false ∧ p.toward = r.level ∧ r.level ≠ r.confirmed

/-- R21–R23, R28, R29: in every step, so a confirmation always makes the input level the confirmed state. -/
def Obligations.PendingIsTheInputEveryStep : Prop :=
  ∀ s t : State, PendingIsTheInput s → step s = .next t → PendingIsTheInput t

/-- The invariants hold at reset. -/
def Obligations.InvariantsHoldAtReset : Prop :=
  OutputsFollow State.reset ∧ RecordsMatchTheDescription State.reset ∧ PendingIsTheInput State.reset ∧ TablesInOrder State.reset

/-- R3: in RUN nothing but a power-on reset changes the operating state, the description or the parameters in force. -/
def Obligations.DescriptionIsFixedInRun : Prop :=
  ∀ (c : Instr) (s t : State), s.op = .run → (∀ straps, c ≠ .powerOnReset straps) → exec c s = .next t →
    t.op = .run ∧ t.desc = s.desc ∧ t.inForce = s.inForce

/-- R10, R180: the layout carries every field of a route at every value: reading what is written gives the route. -/
def Obligations.RouteDefReadsBack : Prop :=
  ∀ (n : Nat) (d : RouteDef), fitsLayout n d = true → decodeRouteDef (encodeRouteDef n d) = some (n, d)
end

