-- ==== Sys2Proof/Laws/State.lean ====
section
/-! SUPPORT. For each update of the state and each of its parts: what the update leaves there (by rfl), so that no proof
unfolds a record update. -/

namespace Sys2Proof.Machine

section Updates

variable (s : State)

/-! ### onSection -/

@[simp] theorem State.onSection_pending (n : Nat) (f : SectionRec → SectionRec) : (s.onSection n f).pending = s.pending := rfl
@[simp] theorem State.onSection_claims (n : Nat) (f : SectionRec → SectionRec) : (s.onSection n f).claims = s.claims := rfl
@[simp] theorem State.onSection_op (n : Nat) (f : SectionRec → SectionRec) : (s.onSection n f).op = s.op := rfl
@[simp] theorem State.onSection_uptime (n : Nat) (f : SectionRec → SectionRec) : (s.onSection n f).uptime = s.uptime := rfl
@[simp] theorem State.onSection_pins (n : Nat) (f : SectionRec → SectionRec) : (s.onSection n f).pins = s.pins := rfl
@[simp] theorem State.onSection_desc (n : Nat) (f : SectionRec → SectionRec) : (s.onSection n f).desc = s.desc := rfl
@[simp] theorem State.onSection_inForce (n : Nat) (f : SectionRec → SectionRec) : (s.onSection n f).inForce = s.inForce := rfl
@[simp] theorem State.onSection_sections (n : Nat) (f : SectionRec → SectionRec) : (s.onSection n f).sections = Tbl.adjust n f s.sections := rfl
@[simp] theorem State.onSection_points (n : Nat) (f : SectionRec → SectionRec) : (s.onSection n f).points = s.points := rfl
@[simp] theorem State.onSection_route (n : Nat) (f : SectionRec → SectionRec) : (s.onSection n f).route = s.route := rfl
@[simp] theorem State.onSection_gates (n : Nat) (f : SectionRec → SectionRec) : (s.onSection n f).gates = s.gates := rfl
@[simp] theorem State.onSection_stab (n : Nat) (f : SectionRec → SectionRec) : (s.onSection n f).stab = s.stab := rfl
@[simp] theorem State.onSection_roster (n : Nat) (f : SectionRec → SectionRec) : (s.onSection n f).roster = s.roster := rfl
@[simp] theorem State.onSection_sup (n : Nat) (f : SectionRec → SectionRec) : (s.onSection n f).sup = s.sup := rfl
@[simp] theorem State.onSection_desk (n : Nat) (f : SectionRec → SectionRec) : (s.onSection n f).desk = s.desk := rfl
@[simp] theorem State.onSection_planner (n : Nat) (f : SectionRec → SectionRec) : (s.onSection n f).planner = s.planner := rfl
@[simp] theorem State.onSection_line (n : Nat) (f : SectionRec → SectionRec) : (s.onSection n f).line = s.line := rfl

/-! ### onPoint -/

@[simp] theorem State.onPoint_pending (n : Nat) (f : PointRec → PointRec) : (s.onPoint n f).pending = s.pending := rfl
@[simp] theorem State.onPoint_claims (n : Nat) (f : PointRec → PointRec) : (s.onPoint n f).claims = s.claims := rfl
@[simp] theorem State.onPoint_op (n : Nat) (f : PointRec → PointRec) : (s.onPoint n f).op = s.op := rfl
@[simp] theorem State.onPoint_uptime (n : Nat) (f : PointRec → PointRec) : (s.onPoint n f).uptime = s.uptime := rfl
@[simp] theorem State.onPoint_pins (n : Nat) (f : PointRec → PointRec) : (s.onPoint n f).pins = s.pins := rfl
@[simp] theorem State.onPoint_desc (n : Nat) (f : PointRec → PointRec) : (s.onPoint n f).desc = s.desc := rfl
@[simp] theorem State.onPoint_inForce (n : Nat) (f : PointRec → PointRec) : (s.onPoint n f).inForce = s.inForce := rfl
@[simp] theorem State.onPoint_sections (n : Nat) (f : PointRec → PointRec) : (s.onPoint n f).sections = s.sections := rfl
@[simp] theorem State.onPoint_points (n : Nat) (f : PointRec → PointRec) : (s.onPoint n f).points = Tbl.adjust n f s.points := rfl
@[simp] theorem State.onPoint_route (n : Nat) (f : PointRec → PointRec) : (s.onPoint n f).route = s.route := rfl
@[simp] theorem State.onPoint_gates (n : Nat) (f : PointRec → PointRec) : (s.onPoint n f).gates = s.gates := rfl
@[simp] theorem State.onPoint_stab (n : Nat) (f : PointRec → PointRec) : (s.onPoint n f).stab = s.stab := rfl
@[simp] theorem State.onPoint_roster (n : Nat) (f : PointRec → PointRec) : (s.onPoint n f).roster = s.roster := rfl
@[simp] theorem State.onPoint_sup (n : Nat) (f : PointRec → PointRec) : (s.onPoint n f).sup = s.sup := rfl
@[simp] theorem State.onPoint_desk (n : Nat) (f : PointRec → PointRec) : (s.onPoint n f).desk = s.desk := rfl
@[simp] theorem State.onPoint_planner (n : Nat) (f : PointRec → PointRec) : (s.onPoint n f).planner = s.planner := rfl
@[simp] theorem State.onPoint_line (n : Nat) (f : PointRec → PointRec) : (s.onPoint n f).line = s.line := rfl

/-! ### onRoute -/

@[simp] theorem State.onRoute_pending (f : RouteSetter → RouteSetter) : (s.onRoute f).pending = s.pending := rfl
@[simp] theorem State.onRoute_claims (f : RouteSetter → RouteSetter) : (s.onRoute f).claims = s.claims := rfl
@[simp] theorem State.onRoute_op (f : RouteSetter → RouteSetter) : (s.onRoute f).op = s.op := rfl
@[simp] theorem State.onRoute_uptime (f : RouteSetter → RouteSetter) : (s.onRoute f).uptime = s.uptime := rfl
@[simp] theorem State.onRoute_pins (f : RouteSetter → RouteSetter) : (s.onRoute f).pins = s.pins := rfl
@[simp] theorem State.onRoute_desc (f : RouteSetter → RouteSetter) : (s.onRoute f).desc = s.desc := rfl
@[simp] theorem State.onRoute_inForce (f : RouteSetter → RouteSetter) : (s.onRoute f).inForce = s.inForce := rfl
@[simp] theorem State.onRoute_sections (f : RouteSetter → RouteSetter) : (s.onRoute f).sections = s.sections := rfl
@[simp] theorem State.onRoute_points (f : RouteSetter → RouteSetter) : (s.onRoute f).points = s.points := rfl
@[simp] theorem State.onRoute_route (f : RouteSetter → RouteSetter) : (s.onRoute f).route = f s.route := rfl
@[simp] theorem State.onRoute_gates (f : RouteSetter → RouteSetter) : (s.onRoute f).gates = s.gates := rfl
@[simp] theorem State.onRoute_stab (f : RouteSetter → RouteSetter) : (s.onRoute f).stab = s.stab := rfl
@[simp] theorem State.onRoute_roster (f : RouteSetter → RouteSetter) : (s.onRoute f).roster = s.roster := rfl
@[simp] theorem State.onRoute_sup (f : RouteSetter → RouteSetter) : (s.onRoute f).sup = s.sup := rfl
@[simp] theorem State.onRoute_desk (f : RouteSetter → RouteSetter) : (s.onRoute f).desk = s.desk := rfl
@[simp] theorem State.onRoute_planner (f : RouteSetter → RouteSetter) : (s.onRoute f).planner = s.planner := rfl
@[simp] theorem State.onRoute_line (f : RouteSetter → RouteSetter) : (s.onRoute f).line = s.line := rfl

/-! ### onEntry -/

@[simp] theorem State.onEntry_pending (n : Nat) (f : RouteEntry → RouteEntry) : (s.onEntry n f).pending = s.pending := rfl
@[simp] theorem State.onEntry_claims (n : Nat) (f : RouteEntry → RouteEntry) : (s.onEntry n f).claims = s.claims := rfl
@[simp] theorem State.onEntry_op (n : Nat) (f : RouteEntry → RouteEntry) : (s.onEntry n f).op = s.op := rfl
@[simp] theorem State.onEntry_uptime (n : Nat) (f : RouteEntry → RouteEntry) : (s.onEntry n f).uptime = s.uptime := rfl
@[simp] theorem State.onEntry_pins (n : Nat) (f : RouteEntry → RouteEntry) : (s.onEntry n f).pins = s.pins := rfl
@[simp] theorem State.onEntry_desc (n : Nat) (f : RouteEntry → RouteEntry) : (s.onEntry n f).desc = s.desc := rfl
@[simp] theorem State.onEntry_inForce (n : Nat) (f : RouteEntry → RouteEntry) : (s.onEntry n f).inForce = s.inForce := rfl
@[simp] theorem State.onEntry_sections (n : Nat) (f : RouteEntry → RouteEntry) : (s.onEntry n f).sections = s.sections := rfl
@[simp] theorem State.onEntry_points (n : Nat) (f : RouteEntry → RouteEntry) : (s.onEntry n f).points = s.points := rfl
@[simp] theorem State.onEntry_route (n : Nat) (f : RouteEntry → RouteEntry) : (s.onEntry n f).route = { s.route with table := Tbl.adjust n f s.route.table } := rfl
@[simp] theorem State.onEntry_gates (n : Nat) (f : RouteEntry → RouteEntry) : (s.onEntry n f).gates = s.gates := rfl
@[simp] theorem State.onEntry_stab (n : Nat) (f : RouteEntry → RouteEntry) : (s.onEntry n f).stab = s.stab := rfl
@[simp] theorem State.onEntry_roster (n : Nat) (f : RouteEntry → RouteEntry) : (s.onEntry n f).roster = s.roster := rfl
@[simp] theorem State.onEntry_sup (n : Nat) (f : RouteEntry → RouteEntry) : (s.onEntry n f).sup = s.sup := rfl
@[simp] theorem State.onEntry_desk (n : Nat) (f : RouteEntry → RouteEntry) : (s.onEntry n f).desk = s.desk := rfl
@[simp] theorem State.onEntry_planner (n : Nat) (f : RouteEntry → RouteEntry) : (s.onEntry n f).planner = s.planner := rfl
@[simp] theorem State.onEntry_line (n : Nat) (f : RouteEntry → RouteEntry) : (s.onEntry n f).line = s.line := rfl

/-! ### onGate -/

@[simp] theorem State.onGate_pending (g : Nat) (f : Gate → Gate) : (s.onGate g f).pending = s.pending := rfl
@[simp] theorem State.onGate_claims (g : Nat) (f : Gate → Gate) : (s.onGate g f).claims = s.claims := rfl
@[simp] theorem State.onGate_op (g : Nat) (f : Gate → Gate) : (s.onGate g f).op = s.op := rfl
@[simp] theorem State.onGate_uptime (g : Nat) (f : Gate → Gate) : (s.onGate g f).uptime = s.uptime := rfl
@[simp] theorem State.onGate_pins (g : Nat) (f : Gate → Gate) : (s.onGate g f).pins = s.pins := rfl
@[simp] theorem State.onGate_desc (g : Nat) (f : Gate → Gate) : (s.onGate g f).desc = s.desc := rfl
@[simp] theorem State.onGate_inForce (g : Nat) (f : Gate → Gate) : (s.onGate g f).inForce = s.inForce := rfl
@[simp] theorem State.onGate_sections (g : Nat) (f : Gate → Gate) : (s.onGate g f).sections = s.sections := rfl
@[simp] theorem State.onGate_points (g : Nat) (f : Gate → Gate) : (s.onGate g f).points = s.points := rfl
@[simp] theorem State.onGate_route (g : Nat) (f : Gate → Gate) : (s.onGate g f).route = s.route := rfl
@[simp] theorem State.onGate_gates (g : Nat) (f : Gate → Gate) : (s.onGate g f).gates = Tbl.adjust g f s.gates := rfl
@[simp] theorem State.onGate_stab (g : Nat) (f : Gate → Gate) : (s.onGate g f).stab = s.stab := rfl
@[simp] theorem State.onGate_roster (g : Nat) (f : Gate → Gate) : (s.onGate g f).roster = s.roster := rfl
@[simp] theorem State.onGate_sup (g : Nat) (f : Gate → Gate) : (s.onGate g f).sup = s.sup := rfl
@[simp] theorem State.onGate_desk (g : Nat) (f : Gate → Gate) : (s.onGate g f).desk = s.desk := rfl
@[simp] theorem State.onGate_planner (g : Nat) (f : Gate → Gate) : (s.onGate g f).planner = s.planner := rfl
@[simp] theorem State.onGate_line (g : Nat) (f : Gate → Gate) : (s.onGate g f).line = s.line := rfl

/-! ### onStab -/

@[simp] theorem State.onStab_pending (f : Stabling → Stabling) : (s.onStab f).pending = s.pending := rfl
@[simp] theorem State.onStab_claims (f : Stabling → Stabling) : (s.onStab f).claims = s.claims := rfl
@[simp] theorem State.onStab_op (f : Stabling → Stabling) : (s.onStab f).op = s.op := rfl
@[simp] theorem State.onStab_uptime (f : Stabling → Stabling) : (s.onStab f).uptime = s.uptime := rfl
@[simp] theorem State.onStab_pins (f : Stabling → Stabling) : (s.onStab f).pins = s.pins := rfl
@[simp] theorem State.onStab_desc (f : Stabling → Stabling) : (s.onStab f).desc = s.desc := rfl
@[simp] theorem State.onStab_inForce (f : Stabling → Stabling) : (s.onStab f).inForce = s.inForce := rfl
@[simp] theorem State.onStab_sections (f : Stabling → Stabling) : (s.onStab f).sections = s.sections := rfl
@[simp] theorem State.onStab_points (f : Stabling → Stabling) : (s.onStab f).points = s.points := rfl
@[simp] theorem State.onStab_route (f : Stabling → Stabling) : (s.onStab f).route = s.route := rfl
@[simp] theorem State.onStab_gates (f : Stabling → Stabling) : (s.onStab f).gates = s.gates := rfl
@[simp] theorem State.onStab_stab (f : Stabling → Stabling) : (s.onStab f).stab = f s.stab := rfl
@[simp] theorem State.onStab_roster (f : Stabling → Stabling) : (s.onStab f).roster = s.roster := rfl
@[simp] theorem State.onStab_sup (f : Stabling → Stabling) : (s.onStab f).sup = s.sup := rfl
@[simp] theorem State.onStab_desk (f : Stabling → Stabling) : (s.onStab f).desk = s.desk := rfl
@[simp] theorem State.onStab_planner (f : Stabling → Stabling) : (s.onStab f).planner = s.planner := rfl
@[simp] theorem State.onStab_line (f : Stabling → Stabling) : (s.onStab f).line = s.line := rfl

/-! ### onSiding -/

@[simp] theorem State.onSiding_pending (n : Nat) (f : SidingRec → SidingRec) : (s.onSiding n f).pending = s.pending := rfl
@[simp] theorem State.onSiding_claims (n : Nat) (f : SidingRec → SidingRec) : (s.onSiding n f).claims = s.claims := rfl
@[simp] theorem State.onSiding_op (n : Nat) (f : SidingRec → SidingRec) : (s.onSiding n f).op = s.op := rfl
@[simp] theorem State.onSiding_uptime (n : Nat) (f : SidingRec → SidingRec) : (s.onSiding n f).uptime = s.uptime := rfl
@[simp] theorem State.onSiding_pins (n : Nat) (f : SidingRec → SidingRec) : (s.onSiding n f).pins = s.pins := rfl
@[simp] theorem State.onSiding_desc (n : Nat) (f : SidingRec → SidingRec) : (s.onSiding n f).desc = s.desc := rfl
@[simp] theorem State.onSiding_inForce (n : Nat) (f : SidingRec → SidingRec) : (s.onSiding n f).inForce = s.inForce := rfl
@[simp] theorem State.onSiding_sections (n : Nat) (f : SidingRec → SidingRec) : (s.onSiding n f).sections = s.sections := rfl
@[simp] theorem State.onSiding_points (n : Nat) (f : SidingRec → SidingRec) : (s.onSiding n f).points = s.points := rfl
@[simp] theorem State.onSiding_route (n : Nat) (f : SidingRec → SidingRec) : (s.onSiding n f).route = s.route := rfl
@[simp] theorem State.onSiding_gates (n : Nat) (f : SidingRec → SidingRec) : (s.onSiding n f).gates = s.gates := rfl
@[simp] theorem State.onSiding_stab (n : Nat) (f : SidingRec → SidingRec) : (s.onSiding n f).stab = { s.stab with sidings := Tbl.adjust n f s.stab.sidings } := rfl
@[simp] theorem State.onSiding_roster (n : Nat) (f : SidingRec → SidingRec) : (s.onSiding n f).roster = s.roster := rfl
@[simp] theorem State.onSiding_sup (n : Nat) (f : SidingRec → SidingRec) : (s.onSiding n f).sup = s.sup := rfl
@[simp] theorem State.onSiding_desk (n : Nat) (f : SidingRec → SidingRec) : (s.onSiding n f).desk = s.desk := rfl
@[simp] theorem State.onSiding_planner (n : Nat) (f : SidingRec → SidingRec) : (s.onSiding n f).planner = s.planner := rfl
@[simp] theorem State.onSiding_line (n : Nat) (f : SidingRec → SidingRec) : (s.onSiding n f).line = s.line := rfl

/-! ### onShunt -/

@[simp] theorem State.onShunt_pending (n : Nat) (f : ShuntEntry → ShuntEntry) : (s.onShunt n f).pending = s.pending := rfl
@[simp] theorem State.onShunt_claims (n : Nat) (f : ShuntEntry → ShuntEntry) : (s.onShunt n f).claims = s.claims := rfl
@[simp] theorem State.onShunt_op (n : Nat) (f : ShuntEntry → ShuntEntry) : (s.onShunt n f).op = s.op := rfl
@[simp] theorem State.onShunt_uptime (n : Nat) (f : ShuntEntry → ShuntEntry) : (s.onShunt n f).uptime = s.uptime := rfl
@[simp] theorem State.onShunt_pins (n : Nat) (f : ShuntEntry → ShuntEntry) : (s.onShunt n f).pins = s.pins := rfl
@[simp] theorem State.onShunt_desc (n : Nat) (f : ShuntEntry → ShuntEntry) : (s.onShunt n f).desc = s.desc := rfl
@[simp] theorem State.onShunt_inForce (n : Nat) (f : ShuntEntry → ShuntEntry) : (s.onShunt n f).inForce = s.inForce := rfl
@[simp] theorem State.onShunt_sections (n : Nat) (f : ShuntEntry → ShuntEntry) : (s.onShunt n f).sections = s.sections := rfl
@[simp] theorem State.onShunt_points (n : Nat) (f : ShuntEntry → ShuntEntry) : (s.onShunt n f).points = s.points := rfl
@[simp] theorem State.onShunt_route (n : Nat) (f : ShuntEntry → ShuntEntry) : (s.onShunt n f).route = s.route := rfl
@[simp] theorem State.onShunt_gates (n : Nat) (f : ShuntEntry → ShuntEntry) : (s.onShunt n f).gates = s.gates := rfl
@[simp] theorem State.onShunt_stab (n : Nat) (f : ShuntEntry → ShuntEntry) : (s.onShunt n f).stab = { s.stab with shunts := Tbl.adjust n f s.stab.shunts } := rfl
@[simp] theorem State.onShunt_roster (n : Nat) (f : ShuntEntry → ShuntEntry) : (s.onShunt n f).roster = s.roster := rfl
@[simp] theorem State.onShunt_sup (n : Nat) (f : ShuntEntry → ShuntEntry) : (s.onShunt n f).sup = s.sup := rfl
@[simp] theorem State.onShunt_desk (n : Nat) (f : ShuntEntry → ShuntEntry) : (s.onShunt n f).desk = s.desk := rfl
@[simp] theorem State.onShunt_planner (n : Nat) (f : ShuntEntry → ShuntEntry) : (s.onShunt n f).planner = s.planner := rfl
@[simp] theorem State.onShunt_line (n : Nat) (f : ShuntEntry → ShuntEntry) : (s.onShunt n f).line = s.line := rfl

/-! ### onRoster -/

@[simp] theorem State.onRoster_pending (f : Roster → Roster) : (s.onRoster f).pending = s.pending := rfl
@[simp] theorem State.onRoster_claims (f : Roster → Roster) : (s.onRoster f).claims = s.claims := rfl
@[simp] theorem State.onRoster_op (f : Roster → Roster) : (s.onRoster f).op = s.op := rfl
@[simp] theorem State.onRoster_uptime (f : Roster → Roster) : (s.onRoster f).uptime = s.uptime := rfl
@[simp] theorem State.onRoster_pins (f : Roster → Roster) : (s.onRoster f).pins = s.pins := rfl
@[simp] theorem State.onRoster_desc (f : Roster → Roster) : (s.onRoster f).desc = s.desc := rfl
@[simp] theorem State.onRoster_inForce (f : Roster → Roster) : (s.onRoster f).inForce = s.inForce := rfl
@[simp] theorem State.onRoster_sections (f : Roster → Roster) : (s.onRoster f).sections = s.sections := rfl
@[simp] theorem State.onRoster_points (f : Roster → Roster) : (s.onRoster f).points = s.points := rfl
@[simp] theorem State.onRoster_route (f : Roster → Roster) : (s.onRoster f).route = s.route := rfl
@[simp] theorem State.onRoster_gates (f : Roster → Roster) : (s.onRoster f).gates = s.gates := rfl
@[simp] theorem State.onRoster_stab (f : Roster → Roster) : (s.onRoster f).stab = s.stab := rfl
@[simp] theorem State.onRoster_roster (f : Roster → Roster) : (s.onRoster f).roster = f s.roster := rfl
@[simp] theorem State.onRoster_sup (f : Roster → Roster) : (s.onRoster f).sup = s.sup := rfl
@[simp] theorem State.onRoster_desk (f : Roster → Roster) : (s.onRoster f).desk = s.desk := rfl
@[simp] theorem State.onRoster_planner (f : Roster → Roster) : (s.onRoster f).planner = s.planner := rfl
@[simp] theorem State.onRoster_line (f : Roster → Roster) : (s.onRoster f).line = s.line := rfl

/-! ### onSup -/

@[simp] theorem State.onSup_pending (f : Supervision → Supervision) : (s.onSup f).pending = s.pending := rfl
@[simp] theorem State.onSup_claims (f : Supervision → Supervision) : (s.onSup f).claims = s.claims := rfl
@[simp] theorem State.onSup_op (f : Supervision → Supervision) : (s.onSup f).op = s.op := rfl
@[simp] theorem State.onSup_uptime (f : Supervision → Supervision) : (s.onSup f).uptime = s.uptime := rfl
@[simp] theorem State.onSup_pins (f : Supervision → Supervision) : (s.onSup f).pins = s.pins := rfl
@[simp] theorem State.onSup_desc (f : Supervision → Supervision) : (s.onSup f).desc = s.desc := rfl
@[simp] theorem State.onSup_inForce (f : Supervision → Supervision) : (s.onSup f).inForce = s.inForce := rfl
@[simp] theorem State.onSup_sections (f : Supervision → Supervision) : (s.onSup f).sections = s.sections := rfl
@[simp] theorem State.onSup_points (f : Supervision → Supervision) : (s.onSup f).points = s.points := rfl
@[simp] theorem State.onSup_route (f : Supervision → Supervision) : (s.onSup f).route = s.route := rfl
@[simp] theorem State.onSup_gates (f : Supervision → Supervision) : (s.onSup f).gates = s.gates := rfl
@[simp] theorem State.onSup_stab (f : Supervision → Supervision) : (s.onSup f).stab = s.stab := rfl
@[simp] theorem State.onSup_roster (f : Supervision → Supervision) : (s.onSup f).roster = s.roster := rfl
@[simp] theorem State.onSup_sup (f : Supervision → Supervision) : (s.onSup f).sup = f s.sup := rfl
@[simp] theorem State.onSup_desk (f : Supervision → Supervision) : (s.onSup f).desk = s.desk := rfl
@[simp] theorem State.onSup_planner (f : Supervision → Supervision) : (s.onSup f).planner = s.planner := rfl
@[simp] theorem State.onSup_line (f : Supervision → Supervision) : (s.onSup f).line = s.line := rfl

/-! ### onPins -/

@[simp] theorem State.onPins_pending (f : Pins → Pins) : (s.onPins f).pending = s.pending := rfl
@[simp] theorem State.onPins_claims (f : Pins → Pins) : (s.onPins f).claims = s.claims := rfl
@[simp] theorem State.onPins_op (f : Pins → Pins) : (s.onPins f).op = s.op := rfl
@[simp] theorem State.onPins_uptime (f : Pins → Pins) : (s.onPins f).uptime = s.uptime := rfl
@[simp] theorem State.onPins_pins (f : Pins → Pins) : (s.onPins f).pins = f s.pins := rfl
@[simp] theorem State.onPins_desc (f : Pins → Pins) : (s.onPins f).desc = s.desc := rfl
@[simp] theorem State.onPins_inForce (f : Pins → Pins) : (s.onPins f).inForce = s.inForce := rfl
@[simp] theorem State.onPins_sections (f : Pins → Pins) : (s.onPins f).sections = s.sections := rfl
@[simp] theorem State.onPins_points (f : Pins → Pins) : (s.onPins f).points = s.points := rfl
@[simp] theorem State.onPins_route (f : Pins → Pins) : (s.onPins f).route = s.route := rfl
@[simp] theorem State.onPins_gates (f : Pins → Pins) : (s.onPins f).gates = s.gates := rfl
@[simp] theorem State.onPins_stab (f : Pins → Pins) : (s.onPins f).stab = s.stab := rfl
@[simp] theorem State.onPins_roster (f : Pins → Pins) : (s.onPins f).roster = s.roster := rfl
@[simp] theorem State.onPins_sup (f : Pins → Pins) : (s.onPins f).sup = s.sup := rfl
@[simp] theorem State.onPins_desk (f : Pins → Pins) : (s.onPins f).desk = s.desk := rfl
@[simp] theorem State.onPins_planner (f : Pins → Pins) : (s.onPins f).planner = s.planner := rfl
@[simp] theorem State.onPins_line (f : Pins → Pins) : (s.onPins f).line = s.line := rfl

/-! ### onDesc -/

@[simp] theorem State.onDesc_pending (f : Description → Description) : (s.onDesc f).pending = s.pending := rfl
@[simp] theorem State.onDesc_claims (f : Description → Description) : (s.onDesc f).claims = s.claims := rfl
@[simp] theorem State.onDesc_op (f : Description → Description) : (s.onDesc f).op = s.op := rfl
@[simp] theorem State.onDesc_uptime (f : Description → Description) : (s.onDesc f).uptime = s.uptime := rfl
@[simp] theorem State.onDesc_pins (f : Description → Description) : (s.onDesc f).pins = s.pins := rfl
@[simp] theorem State.onDesc_desc (f : Description → Description) : (s.onDesc f).desc = f s.desc := rfl
@[simp] theorem State.onDesc_inForce (f : Description → Description) : (s.onDesc f).inForce = s.inForce := rfl
@[simp] theorem State.onDesc_sections (f : Description → Description) : (s.onDesc f).sections = s.sections := rfl
@[simp] theorem State.onDesc_points (f : Description → Description) : (s.onDesc f).points = s.points := rfl
@[simp] theorem State.onDesc_route (f : Description → Description) : (s.onDesc f).route = s.route := rfl
@[simp] theorem State.onDesc_gates (f : Description → Description) : (s.onDesc f).gates = s.gates := rfl
@[simp] theorem State.onDesc_stab (f : Description → Description) : (s.onDesc f).stab = s.stab := rfl
@[simp] theorem State.onDesc_roster (f : Description → Description) : (s.onDesc f).roster = s.roster := rfl
@[simp] theorem State.onDesc_sup (f : Description → Description) : (s.onDesc f).sup = s.sup := rfl
@[simp] theorem State.onDesc_desk (f : Description → Description) : (s.onDesc f).desk = s.desk := rfl
@[simp] theorem State.onDesc_planner (f : Description → Description) : (s.onDesc f).planner = s.planner := rfl
@[simp] theorem State.onDesc_line (f : Description → Description) : (s.onDesc f).line = s.line := rfl

/-! ### send -/

@[simp] theorem State.send_pending (c : Instr) : (s.send c).pending = s.pending := rfl
@[simp] theorem State.send_claims (c : Instr) : (s.send c).claims = s.claims ++ [c] := rfl
@[simp] theorem State.send_op (c : Instr) : (s.send c).op = s.op := rfl
@[simp] theorem State.send_uptime (c : Instr) : (s.send c).uptime = s.uptime := rfl
@[simp] theorem State.send_pins (c : Instr) : (s.send c).pins = s.pins := rfl
@[simp] theorem State.send_desc (c : Instr) : (s.send c).desc = s.desc := rfl
@[simp] theorem State.send_inForce (c : Instr) : (s.send c).inForce = s.inForce := rfl
@[simp] theorem State.send_sections (c : Instr) : (s.send c).sections = s.sections := rfl
@[simp] theorem State.send_points (c : Instr) : (s.send c).points = s.points := rfl
@[simp] theorem State.send_route (c : Instr) : (s.send c).route = s.route := rfl
@[simp] theorem State.send_gates (c : Instr) : (s.send c).gates = s.gates := rfl
@[simp] theorem State.send_stab (c : Instr) : (s.send c).stab = s.stab := rfl
@[simp] theorem State.send_roster (c : Instr) : (s.send c).roster = s.roster := rfl
@[simp] theorem State.send_sup (c : Instr) : (s.send c).sup = s.sup := rfl
@[simp] theorem State.send_desk (c : Instr) : (s.send c).desk = s.desk := rfl
@[simp] theorem State.send_planner (c : Instr) : (s.send c).planner = s.planner := rfl
@[simp] theorem State.send_line (c : Instr) : (s.send c).line = s.line := rfl

/-! ### take -/

@[simp] theorem State.take_pending (c : Instr) : (s.take c).pending = s.pending := rfl
@[simp] theorem State.take_claims (c : Instr) : (s.take c).claims = s.claims.erase c := rfl
@[simp] theorem State.take_op (c : Instr) : (s.take c).op = s.op := rfl
@[simp] theorem State.take_uptime (c : Instr) : (s.take c).uptime = s.uptime := rfl
@[simp] theorem State.take_pins (c : Instr) : (s.take c).pins = s.pins := rfl
@[simp] theorem State.take_desc (c : Instr) : (s.take c).desc = s.desc := rfl
@[simp] theorem State.take_inForce (c : Instr) : (s.take c).inForce = s.inForce := rfl
@[simp] theorem State.take_sections (c : Instr) : (s.take c).sections = s.sections := rfl
@[simp] theorem State.take_points (c : Instr) : (s.take c).points = s.points := rfl
@[simp] theorem State.take_route (c : Instr) : (s.take c).route = s.route := rfl
@[simp] theorem State.take_gates (c : Instr) : (s.take c).gates = s.gates := rfl
@[simp] theorem State.take_stab (c : Instr) : (s.take c).stab = s.stab := rfl
@[simp] theorem State.take_roster (c : Instr) : (s.take c).roster = s.roster := rfl
@[simp] theorem State.take_sup (c : Instr) : (s.take c).sup = s.sup := rfl
@[simp] theorem State.take_desk (c : Instr) : (s.take c).desk = s.desk := rfl
@[simp] theorem State.take_planner (c : Instr) : (s.take c).planner = s.planner := rfl
@[simp] theorem State.take_line (c : Instr) : (s.take c).line = s.line := rfl

/-! ### raise -/

@[simp] theorem State.raise_pending (a : Alarm) : (s.raise a).pending = s.pending := rfl
@[simp] theorem State.raise_claims (a : Alarm) : (s.raise a).claims = s.claims ++ [.alarmRaise a] := rfl
@[simp] theorem State.raise_op (a : Alarm) : (s.raise a).op = s.op := rfl
@[simp] theorem State.raise_uptime (a : Alarm) : (s.raise a).uptime = s.uptime := rfl
@[simp] theorem State.raise_pins (a : Alarm) : (s.raise a).pins = s.pins := rfl
@[simp] theorem State.raise_desc (a : Alarm) : (s.raise a).desc = s.desc := rfl
@[simp] theorem State.raise_inForce (a : Alarm) : (s.raise a).inForce = s.inForce := rfl
@[simp] theorem State.raise_sections (a : Alarm) : (s.raise a).sections = s.sections := rfl
@[simp] theorem State.raise_points (a : Alarm) : (s.raise a).points = s.points := rfl
@[simp] theorem State.raise_route (a : Alarm) : (s.raise a).route = s.route := rfl
@[simp] theorem State.raise_gates (a : Alarm) : (s.raise a).gates = s.gates := rfl
@[simp] theorem State.raise_stab (a : Alarm) : (s.raise a).stab = s.stab := rfl
@[simp] theorem State.raise_roster (a : Alarm) : (s.raise a).roster = s.roster := rfl
@[simp] theorem State.raise_sup (a : Alarm) : (s.raise a).sup = s.sup := rfl
@[simp] theorem State.raise_desk (a : Alarm) : (s.raise a).desk = s.desk := rfl
@[simp] theorem State.raise_planner (a : Alarm) : (s.raise a).planner = s.planner := rfl
@[simp] theorem State.raise_line (a : Alarm) : (s.raise a).line = s.line := rfl

/-! ### endAlarm -/

@[simp] theorem State.endAlarm_pending (a : Alarm) : (s.endAlarm a).pending = s.pending := rfl
@[simp] theorem State.endAlarm_claims (a : Alarm) : (s.endAlarm a).claims = s.claims ++ [.alarmConditionEnd a] := rfl
@[simp] theorem State.endAlarm_op (a : Alarm) : (s.endAlarm a).op = s.op := rfl
@[simp] theorem State.endAlarm_uptime (a : Alarm) : (s.endAlarm a).uptime = s.uptime := rfl
@[simp] theorem State.endAlarm_pins (a : Alarm) : (s.endAlarm a).pins = s.pins := rfl
@[simp] theorem State.endAlarm_desc (a : Alarm) : (s.endAlarm a).desc = s.desc := rfl
@[simp] theorem State.endAlarm_inForce (a : Alarm) : (s.endAlarm a).inForce = s.inForce := rfl
@[simp] theorem State.endAlarm_sections (a : Alarm) : (s.endAlarm a).sections = s.sections := rfl
@[simp] theorem State.endAlarm_points (a : Alarm) : (s.endAlarm a).points = s.points := rfl
@[simp] theorem State.endAlarm_route (a : Alarm) : (s.endAlarm a).route = s.route := rfl
@[simp] theorem State.endAlarm_gates (a : Alarm) : (s.endAlarm a).gates = s.gates := rfl
@[simp] theorem State.endAlarm_stab (a : Alarm) : (s.endAlarm a).stab = s.stab := rfl
@[simp] theorem State.endAlarm_roster (a : Alarm) : (s.endAlarm a).roster = s.roster := rfl
@[simp] theorem State.endAlarm_sup (a : Alarm) : (s.endAlarm a).sup = s.sup := rfl
@[simp] theorem State.endAlarm_desk (a : Alarm) : (s.endAlarm a).desk = s.desk := rfl
@[simp] theorem State.endAlarm_planner (a : Alarm) : (s.endAlarm a).planner = s.planner := rfl
@[simp] theorem State.endAlarm_line (a : Alarm) : (s.endAlarm a).line = s.line := rfl

/-! ### post -/

@[simp] theorem State.post_pending (g : Group) (k : Nat) (fs : List Field) : (s.post g k fs).pending = s.pending := rfl
@[simp] theorem State.post_claims (g : Group) (k : Nat) (fs : List Field) : (s.post g k fs).claims = s.claims := rfl
@[simp] theorem State.post_op (g : Group) (k : Nat) (fs : List Field) : (s.post g k fs).op = s.op := rfl
@[simp] theorem State.post_uptime (g : Group) (k : Nat) (fs : List Field) : (s.post g k fs).uptime = s.uptime := rfl
@[simp] theorem State.post_pins (g : Group) (k : Nat) (fs : List Field) : (s.post g k fs).pins = s.pins := rfl
@[simp] theorem State.post_desc (g : Group) (k : Nat) (fs : List Field) : (s.post g k fs).desc = s.desc := rfl
@[simp] theorem State.post_inForce (g : Group) (k : Nat) (fs : List Field) : (s.post g k fs).inForce = s.inForce := rfl
@[simp] theorem State.post_sections (g : Group) (k : Nat) (fs : List Field) : (s.post g k fs).sections = s.sections := rfl
@[simp] theorem State.post_points (g : Group) (k : Nat) (fs : List Field) : (s.post g k fs).points = s.points := rfl
@[simp] theorem State.post_route (g : Group) (k : Nat) (fs : List Field) : (s.post g k fs).route = s.route := rfl
@[simp] theorem State.post_gates (g : Group) (k : Nat) (fs : List Field) : (s.post g k fs).gates = s.gates := rfl
@[simp] theorem State.post_stab (g : Group) (k : Nat) (fs : List Field) : (s.post g k fs).stab = s.stab := rfl
@[simp] theorem State.post_roster (g : Group) (k : Nat) (fs : List Field) : (s.post g k fs).roster = s.roster := rfl
@[simp] theorem State.post_sup (g : Group) (k : Nat) (fs : List Field) : (s.post g k fs).sup = s.sup := rfl

/-! ### onPort -/

@[simp] theorem State.onPort_pending (p : Port) (f : PortState → PortState) : (s.onPort p f).pending = s.pending := by cases p <;> rfl
@[simp] theorem State.onPort_claims (p : Port) (f : PortState → PortState) : (s.onPort p f).claims = s.claims := by cases p <;> rfl
@[simp] theorem State.onPort_op (p : Port) (f : PortState → PortState) : (s.onPort p f).op = s.op := by cases p <;> rfl
@[simp] theorem State.onPort_uptime (p : Port) (f : PortState → PortState) : (s.onPort p f).uptime = s.uptime := by cases p <;> rfl
@[simp] theorem State.onPort_pins (p : Port) (f : PortState → PortState) : (s.onPort p f).pins = s.pins := by cases p <;> rfl
@[simp] theorem State.onPort_desc (p : Port) (f : PortState → PortState) : (s.onPort p f).desc = s.desc := by cases p <;> rfl
@[simp] theorem State.onPort_inForce (p : Port) (f : PortState → PortState) : (s.onPort p f).inForce = s.inForce := by cases p <;> rfl
@[simp] theorem State.onPort_sections (p : Port) (f : PortState → PortState) : (s.onPort p f).sections = s.sections := by cases p <;> rfl
@[simp] theorem State.onPort_points (p : Port) (f : PortState → PortState) : (s.onPort p f).points = s.points := by cases p <;> rfl
@[simp] theorem State.onPort_route (p : Port) (f : PortState → PortState) : (s.onPort p f).route = s.route := by cases p <;> rfl
@[simp] theorem State.onPort_gates (p : Port) (f : PortState → PortState) : (s.onPort p f).gates = s.gates := by cases p <;> rfl
@[simp] theorem State.onPort_stab (p : Port) (f : PortState → PortState) : (s.onPort p f).stab = s.stab := by cases p <;> rfl
@[simp] theorem State.onPort_roster (p : Port) (f : PortState → PortState) : (s.onPort p f).roster = s.roster := by cases p <;> rfl
@[simp] theorem State.onPort_sup (p : Port) (f : PortState → PortState) : (s.onPort p f).sup = s.sup := by cases p <;> rfl

/-! ### reply -/

@[simp] theorem State.reply_pending (k : Kind) (r : Req) (a : Ans) : (s.reply k r a).pending = s.pending := by rcases r with ⟨_ | _ | _, _⟩ <;> rfl
@[simp] theorem State.reply_claims (k : Kind) (r : Req) (a : Ans) : (s.reply k r a).claims = s.claims := by rcases r with ⟨_ | _ | _, _⟩ <;> rfl
@[simp] theorem State.reply_op (k : Kind) (r : Req) (a : Ans) : (s.reply k r a).op = s.op := by rcases r with ⟨_ | _ | _, _⟩ <;> rfl
@[simp] theorem State.reply_uptime (k : Kind) (r : Req) (a : Ans) : (s.reply k r a).uptime = s.uptime := by rcases r with ⟨_ | _ | _, _⟩ <;> rfl
@[simp] theorem State.reply_pins (k : Kind) (r : Req) (a : Ans) : (s.reply k r a).pins = s.pins := by rcases r with ⟨_ | _ | _, _⟩ <;> rfl
@[simp] theorem State.reply_desc (k : Kind) (r : Req) (a : Ans) : (s.reply k r a).desc = s.desc := by rcases r with ⟨_ | _ | _, _⟩ <;> rfl
@[simp] theorem State.reply_inForce (k : Kind) (r : Req) (a : Ans) : (s.reply k r a).inForce = s.inForce := by rcases r with ⟨_ | _ | _, _⟩ <;> rfl
@[simp] theorem State.reply_sections (k : Kind) (r : Req) (a : Ans) : (s.reply k r a).sections = s.sections := by rcases r with ⟨_ | _ | _, _⟩ <;> rfl
@[simp] theorem State.reply_points (k : Kind) (r : Req) (a : Ans) : (s.reply k r a).points = s.points := by rcases r with ⟨_ | _ | _, _⟩ <;> rfl
@[simp] theorem State.reply_route (k : Kind) (r : Req) (a : Ans) : (s.reply k r a).route = s.route := by rcases r with ⟨_ | _ | _, _⟩ <;> rfl
@[simp] theorem State.reply_gates (k : Kind) (r : Req) (a : Ans) : (s.reply k r a).gates = s.gates := by rcases r with ⟨_ | _ | _, _⟩ <;> rfl
@[simp] theorem State.reply_stab (k : Kind) (r : Req) (a : Ans) : (s.reply k r a).stab = s.stab := by rcases r with ⟨_ | _ | _, _⟩ <;> rfl
@[simp] theorem State.reply_roster (k : Kind) (r : Req) (a : Ans) : (s.reply k r a).roster = s.roster := by rcases r with ⟨_ | _ | _, _⟩ <;> rfl
@[simp] theorem State.reply_sup (k : Kind) (r : Req) (a : Ans) : (s.reply k r a).sup = s.sup := by rcases r with ⟨_ | _ | _, _⟩ <;> rfl

/-! ### What an update leaves of the values read off the state -/


@[simp] theorem State.onSection_minute (n : Nat) (f : SectionRec → SectionRec) : (s.onSection n f).minute = s.minute := rfl
@[simp] theorem State.onSection_param (n : Nat) (f : SectionRec → SectionRec) : (s.onSection n f).param = s.param := rfl
@[simp] theorem State.onSection_seconds (n : Nat) (f : SectionRec → SectionRec) : (s.onSection n f).seconds = s.seconds := rfl
@[simp] theorem State.onSection_routeDef (n : Nat) (f : SectionRec → SectionRec) (x : Nat) : (s.onSection n f).routeDef x = s.routeDef x := rfl
@[simp] theorem State.onSection_lookup (n : Nat) (f : SectionRec → SectionRec) (x : RouteKind) (y z : Nat) : (s.onSection n f).lookup x y z = s.lookup x y z := rfl
@[simp] theorem State.onSection_sidingOf (n : Nat) (f : SectionRec → SectionRec) (x : Nat) : (s.onSection n f).sidingOf x = s.sidingOf x := rfl
@[simp] theorem State.onSection_gateOf (n : Nat) (f : SectionRec → SectionRec) (x : Nat) : (s.onSection n f).gateOf x = s.gateOf x := rfl
@[simp] theorem State.onSection_outOfService (n : Nat) (f : SectionRec → SectionRec) (x : Nat) : (s.onSection n f).outOfService x = s.outOfService x := rfl
@[simp] theorem State.onSection_detected (n : Nat) (f : SectionRec → SectionRec) (x : Nat) (y : Position) : (s.onSection n f).detected x y = s.detected x y := rfl

@[simp] theorem State.onPoint_minute (n : Nat) (f : PointRec → PointRec) : (s.onPoint n f).minute = s.minute := rfl
@[simp] theorem State.onPoint_param (n : Nat) (f : PointRec → PointRec) : (s.onPoint n f).param = s.param := rfl
@[simp] theorem State.onPoint_seconds (n : Nat) (f : PointRec → PointRec) : (s.onPoint n f).seconds = s.seconds := rfl
@[simp] theorem State.onPoint_routeDef (n : Nat) (f : PointRec → PointRec) (x : Nat) : (s.onPoint n f).routeDef x = s.routeDef x := rfl
@[simp] theorem State.onPoint_lookup (n : Nat) (f : PointRec → PointRec) (x : RouteKind) (y z : Nat) : (s.onPoint n f).lookup x y z = s.lookup x y z := rfl
@[simp] theorem State.onPoint_sidingOf (n : Nat) (f : PointRec → PointRec) (x : Nat) : (s.onPoint n f).sidingOf x = s.sidingOf x := rfl
@[simp] theorem State.onPoint_gateOf (n : Nat) (f : PointRec → PointRec) (x : Nat) : (s.onPoint n f).gateOf x = s.gateOf x := rfl
@[simp] theorem State.onPoint_isOccupied (n : Nat) (f : PointRec → PointRec) (x : Nat) : (s.onPoint n f).isOccupied x = s.isOccupied x := rfl
@[simp] theorem State.onPoint_isClear (n : Nat) (f : PointRec → PointRec) (x : Nat) : (s.onPoint n f).isClear x = s.isClear x := rfl
@[simp] theorem State.onPoint_isForced (n : Nat) (f : PointRec → PointRec) (x : Nat) : (s.onPoint n f).isForced x = s.isForced x := rfl
@[simp] theorem State.onPoint_isFree (n : Nat) (f : PointRec → PointRec) (x : Nat) : (s.onPoint n f).isFree x = s.isFree x := rfl
@[simp] theorem State.onPoint_reservedBy (n : Nat) (f : PointRec → PointRec) (x : Nat) : (s.onPoint n f).reservedBy x = s.reservedBy x := rfl

@[simp] theorem State.onRoute_minute (f : RouteSetter → RouteSetter) : (s.onRoute f).minute = s.minute := rfl
@[simp] theorem State.onRoute_param (f : RouteSetter → RouteSetter) : (s.onRoute f).param = s.param := rfl
@[simp] theorem State.onRoute_seconds (f : RouteSetter → RouteSetter) : (s.onRoute f).seconds = s.seconds := rfl
@[simp] theorem State.onRoute_routeDef (f : RouteSetter → RouteSetter) (x : Nat) : (s.onRoute f).routeDef x = s.routeDef x := rfl
@[simp] theorem State.onRoute_lookup (f : RouteSetter → RouteSetter) (x : RouteKind) (y z : Nat) : (s.onRoute f).lookup x y z = s.lookup x y z := rfl
@[simp] theorem State.onRoute_sidingOf (f : RouteSetter → RouteSetter) (x : Nat) : (s.onRoute f).sidingOf x = s.sidingOf x := rfl
@[simp] theorem State.onRoute_gateOf (f : RouteSetter → RouteSetter) (x : Nat) : (s.onRoute f).gateOf x = s.gateOf x := rfl
@[simp] theorem State.onRoute_isOccupied (f : RouteSetter → RouteSetter) (x : Nat) : (s.onRoute f).isOccupied x = s.isOccupied x := rfl
@[simp] theorem State.onRoute_isClear (f : RouteSetter → RouteSetter) (x : Nat) : (s.onRoute f).isClear x = s.isClear x := rfl
@[simp] theorem State.onRoute_isForced (f : RouteSetter → RouteSetter) (x : Nat) : (s.onRoute f).isForced x = s.isForced x := rfl
@[simp] theorem State.onRoute_isFree (f : RouteSetter → RouteSetter) (x : Nat) : (s.onRoute f).isFree x = s.isFree x := rfl
@[simp] theorem State.onRoute_reservedBy (f : RouteSetter → RouteSetter) (x : Nat) : (s.onRoute f).reservedBy x = s.reservedBy x := rfl
@[simp] theorem State.onRoute_outOfService (f : RouteSetter → RouteSetter) (x : Nat) : (s.onRoute f).outOfService x = s.outOfService x := rfl
@[simp] theorem State.onRoute_detected (f : RouteSetter → RouteSetter) (x : Nat) (y : Position) : (s.onRoute f).detected x y = s.detected x y := rfl

@[simp] theorem State.onEntry_minute (n : Nat) (f : RouteEntry → RouteEntry) : (s.onEntry n f).minute = s.minute := rfl
@[simp] theorem State.onEntry_param (n : Nat) (f : RouteEntry → RouteEntry) : (s.onEntry n f).param = s.param := rfl
@[simp] theorem State.onEntry_seconds (n : Nat) (f : RouteEntry → RouteEntry) : (s.onEntry n f).seconds = s.seconds := rfl
@[simp] theorem State.onEntry_routeDef (n : Nat) (f : RouteEntry → RouteEntry) (x : Nat) : (s.onEntry n f).routeDef x = s.routeDef x := rfl
@[simp] theorem State.onEntry_lookup (n : Nat) (f : RouteEntry → RouteEntry) (x : RouteKind) (y z : Nat) : (s.onEntry n f).lookup x y z = s.lookup x y z := rfl
@[simp] theorem State.onEntry_sidingOf (n : Nat) (f : RouteEntry → RouteEntry) (x : Nat) : (s.onEntry n f).sidingOf x = s.sidingOf x := rfl
@[simp] theorem State.onEntry_gateOf (n : Nat) (f : RouteEntry → RouteEntry) (x : Nat) : (s.onEntry n f).gateOf x = s.gateOf x := rfl
@[simp] theorem State.onEntry_isOccupied (n : Nat) (f : RouteEntry → RouteEntry) (x : Nat) : (s.onEntry n f).isOccupied x = s.isOccupied x := rfl
@[simp] theorem State.onEntry_isClear (n : Nat) (f : RouteEntry → RouteEntry) (x : Nat) : (s.onEntry n f).isClear x = s.isClear x := rfl
@[simp] theorem State.onEntry_isForced (n : Nat) (f : RouteEntry → RouteEntry) (x : Nat) : (s.onEntry n f).isForced x = s.isForced x := rfl
@[simp] theorem State.onEntry_isFree (n : Nat) (f : RouteEntry → RouteEntry) (x : Nat) : (s.onEntry n f).isFree x = s.isFree x := rfl
@[simp] theorem State.onEntry_reservedBy (n : Nat) (f : RouteEntry → RouteEntry) (x : Nat) : (s.onEntry n f).reservedBy x = s.reservedBy x := rfl
@[simp] theorem State.onEntry_outOfService (n : Nat) (f : RouteEntry → RouteEntry) (x : Nat) : (s.onEntry n f).outOfService x = s.outOfService x := rfl
@[simp] theorem State.onEntry_detected (n : Nat) (f : RouteEntry → RouteEntry) (x : Nat) (y : Position) : (s.onEntry n f).detected x y = s.detected x y := rfl

@[simp] theorem State.onGate_minute (g : Nat) (f : Gate → Gate) : (s.onGate g f).minute = s.minute := rfl
@[simp] theorem State.onGate_param (g : Nat) (f : Gate → Gate) : (s.onGate g f).param = s.param := rfl
@[simp] theorem State.onGate_seconds (g : Nat) (f : Gate → Gate) : (s.onGate g f).seconds = s.seconds := rfl
@[simp] theorem State.onGate_routeDef (g : Nat) (f : Gate → Gate) (x : Nat) : (s.onGate g f).routeDef x = s.routeDef x := rfl
@[simp] theorem State.onGate_lookup (g : Nat) (f : Gate → Gate) (x : RouteKind) (y z : Nat) : (s.onGate g f).lookup x y z = s.lookup x y z := rfl
@[simp] theorem State.onGate_sidingOf (g : Nat) (f : Gate → Gate) (x : Nat) : (s.onGate g f).sidingOf x = s.sidingOf x := rfl
@[simp] theorem State.onGate_gateOf (g : Nat) (f : Gate → Gate) (x : Nat) : (s.onGate g f).gateOf x = s.gateOf x := rfl
@[simp] theorem State.onGate_isOccupied (g : Nat) (f : Gate → Gate) (x : Nat) : (s.onGate g f).isOccupied x = s.isOccupied x := rfl
@[simp] theorem State.onGate_isClear (g : Nat) (f : Gate → Gate) (x : Nat) : (s.onGate g f).isClear x = s.isClear x := rfl
@[simp] theorem State.onGate_isForced (g : Nat) (f : Gate → Gate) (x : Nat) : (s.onGate g f).isForced x = s.isForced x := rfl
@[simp] theorem State.onGate_isFree (g : Nat) (f : Gate → Gate) (x : Nat) : (s.onGate g f).isFree x = s.isFree x := rfl
@[simp] theorem State.onGate_reservedBy (g : Nat) (f : Gate → Gate) (x : Nat) : (s.onGate g f).reservedBy x = s.reservedBy x := rfl
@[simp] theorem State.onGate_outOfService (g : Nat) (f : Gate → Gate) (x : Nat) : (s.onGate g f).outOfService x = s.outOfService x := rfl
@[simp] theorem State.onGate_detected (g : Nat) (f : Gate → Gate) (x : Nat) (y : Position) : (s.onGate g f).detected x y = s.detected x y := rfl

@[simp] theorem State.onStab_minute (f : Stabling → Stabling) : (s.onStab f).minute = s.minute := rfl
@[simp] theorem State.onStab_param (f : Stabling → Stabling) : (s.onStab f).param = s.param := rfl
@[simp] theorem State.onStab_seconds (f : Stabling → Stabling) : (s.onStab f).seconds = s.seconds := rfl
@[simp] theorem State.onStab_routeDef (f : Stabling → Stabling) (x : Nat) : (s.onStab f).routeDef x = s.routeDef x := rfl
@[simp] theorem State.onStab_lookup (f : Stabling → Stabling) (x : RouteKind) (y z : Nat) : (s.onStab f).lookup x y z = s.lookup x y z := rfl
@[simp] theorem State.onStab_sidingOf (f : Stabling → Stabling) (x : Nat) : (s.onStab f).sidingOf x = s.sidingOf x := rfl
@[simp] theorem State.onStab_gateOf (f : Stabling → Stabling) (x : Nat) : (s.onStab f).gateOf x = s.gateOf x := rfl
@[simp] theorem State.onStab_isOccupied (f : Stabling → Stabling) (x : Nat) : (s.onStab f).isOccupied x = s.isOccupied x := rfl
@[simp] theorem State.onStab_isClear (f : Stabling → Stabling) (x : Nat) : (s.onStab f).isClear x = s.isClear x := rfl
@[simp] theorem State.onStab_isForced (f : Stabling → Stabling) (x : Nat) : (s.onStab f).isForced x = s.isForced x := rfl
@[simp] theorem State.onStab_isFree (f : Stabling → Stabling) (x : Nat) : (s.onStab f).isFree x = s.isFree x := rfl
@[simp] theorem State.onStab_reservedBy (f : Stabling → Stabling) (x : Nat) : (s.onStab f).reservedBy x = s.reservedBy x := rfl
@[simp] theorem State.onStab_outOfService (f : Stabling → Stabling) (x : Nat) : (s.onStab f).outOfService x = s.outOfService x := rfl
@[simp] theorem State.onStab_detected (f : Stabling → Stabling) (x : Nat) (y : Position) : (s.onStab f).detected x y = s.detected x y := rfl

@[simp] theorem State.onSiding_minute (n : Nat) (f : SidingRec → SidingRec) : (s.onSiding n f).minute = s.minute := rfl
@[simp] theorem State.onSiding_param (n : Nat) (f : SidingRec → SidingRec) : (s.onSiding n f).param = s.param := rfl
@[simp] theorem State.onSiding_seconds (n : Nat) (f : SidingRec → SidingRec) : (s.onSiding n f).seconds = s.seconds := rfl
@[simp] theorem State.onSiding_routeDef (n : Nat) (f : SidingRec → SidingRec) (x : Nat) : (s.onSiding n f).routeDef x = s.routeDef x := rfl
@[simp] theorem State.onSiding_lookup (n : Nat) (f : SidingRec → SidingRec) (x : RouteKind) (y z : Nat) : (s.onSiding n f).lookup x y z = s.lookup x y z := rfl
@[simp] theorem State.onSiding_sidingOf (n : Nat) (f : SidingRec → SidingRec) (x : Nat) : (s.onSiding n f).sidingOf x = s.sidingOf x := rfl
@[simp] theorem State.onSiding_gateOf (n : Nat) (f : SidingRec → SidingRec) (x : Nat) : (s.onSiding n f).gateOf x = s.gateOf x := rfl
@[simp] theorem State.onSiding_isOccupied (n : Nat) (f : SidingRec → SidingRec) (x : Nat) : (s.onSiding n f).isOccupied x = s.isOccupied x := rfl
@[simp] theorem State.onSiding_isClear (n : Nat) (f : SidingRec → SidingRec) (x : Nat) : (s.onSiding n f).isClear x = s.isClear x := rfl
@[simp] theorem State.onSiding_isForced (n : Nat) (f : SidingRec → SidingRec) (x : Nat) : (s.onSiding n f).isForced x = s.isForced x := rfl
@[simp] theorem State.onSiding_isFree (n : Nat) (f : SidingRec → SidingRec) (x : Nat) : (s.onSiding n f).isFree x = s.isFree x := rfl
@[simp] theorem State.onSiding_reservedBy (n : Nat) (f : SidingRec → SidingRec) (x : Nat) : (s.onSiding n f).reservedBy x = s.reservedBy x := rfl
@[simp] theorem State.onSiding_outOfService (n : Nat) (f : SidingRec → SidingRec) (x : Nat) : (s.onSiding n f).outOfService x = s.outOfService x := rfl
@[simp] theorem State.onSiding_detected (n : Nat) (f : SidingRec → SidingRec) (x : Nat) (y : Position) : (s.onSiding n f).detected x y = s.detected x y := rfl

@[simp] theorem State.onShunt_minute (n : Nat) (f : ShuntEntry → ShuntEntry) : (s.onShunt n f).minute = s.minute := rfl
@[simp] theorem State.onShunt_param (n : Nat) (f : ShuntEntry → ShuntEntry) : (s.onShunt n f).param = s.param := rfl
@[simp] theorem State.onShunt_seconds (n : Nat) (f : ShuntEntry → ShuntEntry) : (s.onShunt n f).seconds = s.seconds := rfl
@[simp] theorem State.onShunt_routeDef (n : Nat) (f : ShuntEntry → ShuntEntry) (x : Nat) : (s.onShunt n f).routeDef x = s.routeDef x := rfl
@[simp] theorem State.onShunt_lookup (n : Nat) (f : ShuntEntry → ShuntEntry) (x : RouteKind) (y z : Nat) : (s.onShunt n f).lookup x y z = s.lookup x y z := rfl
@[simp] theorem State.onShunt_sidingOf (n : Nat) (f : ShuntEntry → ShuntEntry) (x : Nat) : (s.onShunt n f).sidingOf x = s.sidingOf x := rfl
@[simp] theorem State.onShunt_gateOf (n : Nat) (f : ShuntEntry → ShuntEntry) (x : Nat) : (s.onShunt n f).gateOf x = s.gateOf x := rfl
@[simp] theorem State.onShunt_isOccupied (n : Nat) (f : ShuntEntry → ShuntEntry) (x : Nat) : (s.onShunt n f).isOccupied x = s.isOccupied x := rfl
@[simp] theorem State.onShunt_isClear (n : Nat) (f : ShuntEntry → ShuntEntry) (x : Nat) : (s.onShunt n f).isClear x = s.isClear x := rfl
@[simp] theorem State.onShunt_isForced (n : Nat) (f : ShuntEntry → ShuntEntry) (x : Nat) : (s.onShunt n f).isForced x = s.isForced x := rfl
@[simp] theorem State.onShunt_isFree (n : Nat) (f : ShuntEntry → ShuntEntry) (x : Nat) : (s.onShunt n f).isFree x = s.isFree x := rfl
@[simp] theorem State.onShunt_reservedBy (n : Nat) (f : ShuntEntry → ShuntEntry) (x : Nat) : (s.onShunt n f).reservedBy x = s.reservedBy x := rfl
@[simp] theorem State.onShunt_outOfService (n : Nat) (f : ShuntEntry → ShuntEntry) (x : Nat) : (s.onShunt n f).outOfService x = s.outOfService x := rfl
@[simp] theorem State.onShunt_detected (n : Nat) (f : ShuntEntry → ShuntEntry) (x : Nat) (y : Position) : (s.onShunt n f).detected x y = s.detected x y := rfl

@[simp] theorem State.onRoster_param (f : Roster → Roster) : (s.onRoster f).param = s.param := rfl
@[simp] theorem State.onRoster_seconds (f : Roster → Roster) : (s.onRoster f).seconds = s.seconds := rfl
@[simp] theorem State.onRoster_routeDef (f : Roster → Roster) (x : Nat) : (s.onRoster f).routeDef x = s.routeDef x := rfl
@[simp] theorem State.onRoster_lookup (f : Roster → Roster) (x : RouteKind) (y z : Nat) : (s.onRoster f).lookup x y z = s.lookup x y z := rfl
@[simp] theorem State.onRoster_sidingOf (f : Roster → Roster) (x : Nat) : (s.onRoster f).sidingOf x = s.sidingOf x := rfl
@[simp] theorem State.onRoster_gateOf (f : Roster → Roster) (x : Nat) : (s.onRoster f).gateOf x = s.gateOf x := rfl
@[simp] theorem State.onRoster_isOccupied (f : Roster → Roster) (x : Nat) : (s.onRoster f).isOccupied x = s.isOccupied x := rfl
@[simp] theorem State.onRoster_isClear (f : Roster → Roster) (x : Nat) : (s.onRoster f).isClear x = s.isClear x := rfl
@[simp] theorem State.onRoster_isForced (f : Roster → Roster) (x : Nat) : (s.onRoster f).isForced x = s.isForced x := rfl
@[simp] theorem State.onRoster_isFree (f : Roster → Roster) (x : Nat) : (s.onRoster f).isFree x = s.isFree x := rfl
@[simp] theorem State.onRoster_reservedBy (f : Roster → Roster) (x : Nat) : (s.onRoster f).reservedBy x = s.reservedBy x := rfl
@[simp] theorem State.onRoster_outOfService (f : Roster → Roster) (x : Nat) : (s.onRoster f).outOfService x = s.outOfService x := rfl
@[simp] theorem State.onRoster_detected (f : Roster → Roster) (x : Nat) (y : Position) : (s.onRoster f).detected x y = s.detected x y := rfl

@[simp] theorem State.onSup_minute (f : Supervision → Supervision) : (s.onSup f).minute = s.minute := rfl
@[simp] theorem State.onSup_param (f : Supervision → Supervision) : (s.onSup f).param = s.param := rfl
@[simp] theorem State.onSup_seconds (f : Supervision → Supervision) : (s.onSup f).seconds = s.seconds := rfl
@[simp] theorem State.onSup_routeDef (f : Supervision → Supervision) (x : Nat) : (s.onSup f).routeDef x = s.routeDef x := rfl
@[simp] theorem State.onSup_lookup (f : Supervision → Supervision) (x : RouteKind) (y z : Nat) : (s.onSup f).lookup x y z = s.lookup x y z := rfl
@[simp] theorem State.onSup_sidingOf (f : Supervision → Supervision) (x : Nat) : (s.onSup f).sidingOf x = s.sidingOf x := rfl
@[simp] theorem State.onSup_gateOf (f : Supervision → Supervision) (x : Nat) : (s.onSup f).gateOf x = s.gateOf x := rfl
@[simp] theorem State.onSup_isOccupied (f : Supervision → Supervision) (x : Nat) : (s.onSup f).isOccupied x = s.isOccupied x := rfl
@[simp] theorem State.onSup_isClear (f : Supervision → Supervision) (x : Nat) : (s.onSup f).isClear x = s.isClear x := rfl
@[simp] theorem State.onSup_isForced (f : Supervision → Supervision) (x : Nat) : (s.onSup f).isForced x = s.isForced x := rfl
@[simp] theorem State.onSup_isFree (f : Supervision → Supervision) (x : Nat) : (s.onSup f).isFree x = s.isFree x := rfl
@[simp] theorem State.onSup_reservedBy (f : Supervision → Supervision) (x : Nat) : (s.onSup f).reservedBy x = s.reservedBy x := rfl
@[simp] theorem State.onSup_outOfService (f : Supervision → Supervision) (x : Nat) : (s.onSup f).outOfService x = s.outOfService x := rfl
@[simp] theorem State.onSup_detected (f : Supervision → Supervision) (x : Nat) (y : Position) : (s.onSup f).detected x y = s.detected x y := rfl

@[simp] theorem State.onPins_minute (f : Pins → Pins) : (s.onPins f).minute = s.minute := rfl
@[simp] theorem State.onPins_param (f : Pins → Pins) : (s.onPins f).param = s.param := rfl
@[simp] theorem State.onPins_seconds (f : Pins → Pins) : (s.onPins f).seconds = s.seconds := rfl
@[simp] theorem State.onPins_routeDef (f : Pins → Pins) (x : Nat) : (s.onPins f).routeDef x = s.routeDef x := rfl
@[simp] theorem State.onPins_lookup (f : Pins → Pins) (x : RouteKind) (y z : Nat) : (s.onPins f).lookup x y z = s.lookup x y z := rfl
@[simp] theorem State.onPins_sidingOf (f : Pins → Pins) (x : Nat) : (s.onPins f).sidingOf x = s.sidingOf x := rfl
@[simp] theorem State.onPins_gateOf (f : Pins → Pins) (x : Nat) : (s.onPins f).gateOf x = s.gateOf x := rfl
@[simp] theorem State.onPins_isOccupied (f : Pins → Pins) (x : Nat) : (s.onPins f).isOccupied x = s.isOccupied x := rfl
@[simp] theorem State.onPins_isClear (f : Pins → Pins) (x : Nat) : (s.onPins f).isClear x = s.isClear x := rfl
@[simp] theorem State.onPins_isForced (f : Pins → Pins) (x : Nat) : (s.onPins f).isForced x = s.isForced x := rfl
@[simp] theorem State.onPins_isFree (f : Pins → Pins) (x : Nat) : (s.onPins f).isFree x = s.isFree x := rfl
@[simp] theorem State.onPins_reservedBy (f : Pins → Pins) (x : Nat) : (s.onPins f).reservedBy x = s.reservedBy x := rfl
@[simp] theorem State.onPins_outOfService (f : Pins → Pins) (x : Nat) : (s.onPins f).outOfService x = s.outOfService x := rfl
@[simp] theorem State.onPins_detected (f : Pins → Pins) (x : Nat) (y : Position) : (s.onPins f).detected x y = s.detected x y := rfl

@[simp] theorem State.onDesc_minute (f : Description → Description) : (s.onDesc f).minute = s.minute := rfl
@[simp] theorem State.onDesc_param (f : Description → Description) : (s.onDesc f).param = s.param := rfl
@[simp] theorem State.onDesc_seconds (f : Description → Description) : (s.onDesc f).seconds = s.seconds := rfl
@[simp] theorem State.onDesc_isOccupied (f : Description → Description) (x : Nat) : (s.onDesc f).isOccupied x = s.isOccupied x := rfl
@[simp] theorem State.onDesc_isClear (f : Description → Description) (x : Nat) : (s.onDesc f).isClear x = s.isClear x := rfl
@[simp] theorem State.onDesc_isForced (f : Description → Description) (x : Nat) : (s.onDesc f).isForced x = s.isForced x := rfl
@[simp] theorem State.onDesc_isFree (f : Description → Description) (x : Nat) : (s.onDesc f).isFree x = s.isFree x := rfl
@[simp] theorem State.onDesc_reservedBy (f : Description → Description) (x : Nat) : (s.onDesc f).reservedBy x = s.reservedBy x := rfl
@[simp] theorem State.onDesc_outOfService (f : Description → Description) (x : Nat) : (s.onDesc f).outOfService x = s.outOfService x := rfl
@[simp] theorem State.onDesc_detected (f : Description → Description) (x : Nat) (y : Position) : (s.onDesc f).detected x y = s.detected x y := rfl

@[simp] theorem State.send_minute (c : Instr) : (s.send c).minute = s.minute := rfl
@[simp] theorem State.send_param (c : Instr) : (s.send c).param = s.param := rfl
@[simp] theorem State.send_seconds (c : Instr) : (s.send c).seconds = s.seconds := rfl
@[simp] theorem State.send_routeDef (c : Instr) (x : Nat) : (s.send c).routeDef x = s.routeDef x := rfl
@[simp] theorem State.send_lookup (c : Instr) (x : RouteKind) (y z : Nat) : (s.send c).lookup x y z = s.lookup x y z := rfl
@[simp] theorem State.send_sidingOf (c : Instr) (x : Nat) : (s.send c).sidingOf x = s.sidingOf x := rfl
@[simp] theorem State.send_gateOf (c : Instr) (x : Nat) : (s.send c).gateOf x = s.gateOf x := rfl
@[simp] theorem State.send_isOccupied (c : Instr) (x : Nat) : (s.send c).isOccupied x = s.isOccupied x := rfl
@[simp] theorem State.send_isClear (c : Instr) (x : Nat) : (s.send c).isClear x = s.isClear x := rfl
@[simp] theorem State.send_isForced (c : Instr) (x : Nat) : (s.send c).isForced x = s.isForced x := rfl
@[simp] theorem State.send_isFree (c : Instr) (x : Nat) : (s.send c).isFree x = s.isFree x := rfl
@[simp] theorem State.send_reservedBy (c : Instr) (x : Nat) : (s.send c).reservedBy x = s.reservedBy x := rfl
@[simp] theorem State.send_outOfService (c : Instr) (x : Nat) : (s.send c).outOfService x = s.outOfService x := rfl
@[simp] theorem State.send_detected (c : Instr) (x : Nat) (y : Position) : (s.send c).detected x y = s.detected x y := rfl

@[simp] theorem State.take_minute (c : Instr) : (s.take c).minute = s.minute := rfl
@[simp] theorem State.take_param (c : Instr) : (s.take c).param = s.param := rfl
@[simp] theorem State.take_seconds (c : Instr) : (s.take c).seconds = s.seconds := rfl
@[simp] theorem State.take_routeDef (c : Instr) (x : Nat) : (s.take c).routeDef x = s.routeDef x := rfl
@[simp] theorem State.take_lookup (c : Instr) (x : RouteKind) (y z : Nat) : (s.take c).lookup x y z = s.lookup x y z := rfl
@[simp] theorem State.take_sidingOf (c : Instr) (x : Nat) : (s.take c).sidingOf x = s.sidingOf x := rfl
@[simp] theorem State.take_gateOf (c : Instr) (x : Nat) : (s.take c).gateOf x = s.gateOf x := rfl
@[simp] theorem State.take_isOccupied (c : Instr) (x : Nat) : (s.take c).isOccupied x = s.isOccupied x := rfl
@[simp] theorem State.take_isClear (c : Instr) (x : Nat) : (s.take c).isClear x = s.isClear x := rfl
@[simp] theorem State.take_isForced (c : Instr) (x : Nat) : (s.take c).isForced x = s.isForced x := rfl
@[simp] theorem State.take_isFree (c : Instr) (x : Nat) : (s.take c).isFree x = s.isFree x := rfl
@[simp] theorem State.take_reservedBy (c : Instr) (x : Nat) : (s.take c).reservedBy x = s.reservedBy x := rfl
@[simp] theorem State.take_outOfService (c : Instr) (x : Nat) : (s.take c).outOfService x = s.outOfService x := rfl
@[simp] theorem State.take_detected (c : Instr) (x : Nat) (y : Position) : (s.take c).detected x y = s.detected x y := rfl

@[simp] theorem State.raise_minute (a : Alarm) : (s.raise a).minute = s.minute := rfl
@[simp] theorem State.raise_param (a : Alarm) : (s.raise a).param = s.param := rfl
@[simp] theorem State.raise_seconds (a : Alarm) : (s.raise a).seconds = s.seconds := rfl
@[simp] theorem State.raise_routeDef (a : Alarm) (x : Nat) : (s.raise a).routeDef x = s.routeDef x := rfl
@[simp] theorem State.raise_lookup (a : Alarm) (x : RouteKind) (y z : Nat) : (s.raise a).lookup x y z = s.lookup x y z := rfl
@[simp] theorem State.raise_sidingOf (a : Alarm) (x : Nat) : (s.raise a).sidingOf x = s.sidingOf x := rfl
@[simp] theorem State.raise_gateOf (a : Alarm) (x : Nat) : (s.raise a).gateOf x = s.gateOf x := rfl
@[simp] theorem State.raise_isOccupied (a : Alarm) (x : Nat) : (s.raise a).isOccupied x = s.isOccupied x := rfl
@[simp] theorem State.raise_isClear (a : Alarm) (x : Nat) : (s.raise a).isClear x = s.isClear x := rfl
@[simp] theorem State.raise_isForced (a : Alarm) (x : Nat) : (s.raise a).isForced x = s.isForced x := rfl
@[simp] theorem State.raise_isFree (a : Alarm) (x : Nat) : (s.raise a).isFree x = s.isFree x := rfl
@[simp] theorem State.raise_reservedBy (a : Alarm) (x : Nat) : (s.raise a).reservedBy x = s.reservedBy x := rfl
@[simp] theorem State.raise_outOfService (a : Alarm) (x : Nat) : (s.raise a).outOfService x = s.outOfService x := rfl
@[simp] theorem State.raise_detected (a : Alarm) (x : Nat) (y : Position) : (s.raise a).detected x y = s.detected x y := rfl

@[simp] theorem State.endAlarm_minute (a : Alarm) : (s.endAlarm a).minute = s.minute := rfl
@[simp] theorem State.endAlarm_param (a : Alarm) : (s.endAlarm a).param = s.param := rfl
@[simp] theorem State.endAlarm_seconds (a : Alarm) : (s.endAlarm a).seconds = s.seconds := rfl
@[simp] theorem State.endAlarm_routeDef (a : Alarm) (x : Nat) : (s.endAlarm a).routeDef x = s.routeDef x := rfl
@[simp] theorem State.endAlarm_lookup (a : Alarm) (x : RouteKind) (y z : Nat) : (s.endAlarm a).lookup x y z = s.lookup x y z := rfl
@[simp] theorem State.endAlarm_sidingOf (a : Alarm) (x : Nat) : (s.endAlarm a).sidingOf x = s.sidingOf x := rfl
@[simp] theorem State.endAlarm_gateOf (a : Alarm) (x : Nat) : (s.endAlarm a).gateOf x = s.gateOf x := rfl
@[simp] theorem State.endAlarm_isOccupied (a : Alarm) (x : Nat) : (s.endAlarm a).isOccupied x = s.isOccupied x := rfl
@[simp] theorem State.endAlarm_isClear (a : Alarm) (x : Nat) : (s.endAlarm a).isClear x = s.isClear x := rfl
@[simp] theorem State.endAlarm_isForced (a : Alarm) (x : Nat) : (s.endAlarm a).isForced x = s.isForced x := rfl
@[simp] theorem State.endAlarm_isFree (a : Alarm) (x : Nat) : (s.endAlarm a).isFree x = s.isFree x := rfl
@[simp] theorem State.endAlarm_reservedBy (a : Alarm) (x : Nat) : (s.endAlarm a).reservedBy x = s.reservedBy x := rfl
@[simp] theorem State.endAlarm_outOfService (a : Alarm) (x : Nat) : (s.endAlarm a).outOfService x = s.outOfService x := rfl
@[simp] theorem State.endAlarm_detected (a : Alarm) (x : Nat) (y : Position) : (s.endAlarm a).detected x y = s.detected x y := rfl

@[simp] theorem State.post_minute (g : Group) (k : Nat) (fs : List Field) : (s.post g k fs).minute = s.minute := rfl
@[simp] theorem State.post_param (g : Group) (k : Nat) (fs : List Field) : (s.post g k fs).param = s.param := rfl
@[simp] theorem State.post_seconds (g : Group) (k : Nat) (fs : List Field) : (s.post g k fs).seconds = s.seconds := rfl
@[simp] theorem State.post_routeDef (g : Group) (k : Nat) (fs : List Field) (x : Nat) : (s.post g k fs).routeDef x = s.routeDef x := rfl
@[simp] theorem State.post_lookup (g : Group) (k : Nat) (fs : List Field) (x : RouteKind) (y z : Nat) : (s.post g k fs).lookup x y z = s.lookup x y z := rfl
@[simp] theorem State.post_sidingOf (g : Group) (k : Nat) (fs : List Field) (x : Nat) : (s.post g k fs).sidingOf x = s.sidingOf x := rfl
@[simp] theorem State.post_gateOf (g : Group) (k : Nat) (fs : List Field) (x : Nat) : (s.post g k fs).gateOf x = s.gateOf x := rfl
@[simp] theorem State.post_isOccupied (g : Group) (k : Nat) (fs : List Field) (x : Nat) : (s.post g k fs).isOccupied x = s.isOccupied x := rfl
@[simp] theorem State.post_isClear (g : Group) (k : Nat) (fs : List Field) (x : Nat) : (s.post g k fs).isClear x = s.isClear x := rfl
@[simp] theorem State.post_isForced (g : Group) (k : Nat) (fs : List Field) (x : Nat) : (s.post g k fs).isForced x = s.isForced x := rfl
@[simp] theorem State.post_isFree (g : Group) (k : Nat) (fs : List Field) (x : Nat) : (s.post g k fs).isFree x = s.isFree x := rfl
@[simp] theorem State.post_reservedBy (g : Group) (k : Nat) (fs : List Field) (x : Nat) : (s.post g k fs).reservedBy x = s.reservedBy x := rfl
@[simp] theorem State.post_outOfService (g : Group) (k : Nat) (fs : List Field) (x : Nat) : (s.post g k fs).outOfService x = s.outOfService x := rfl
@[simp] theorem State.post_detected (g : Group) (k : Nat) (fs : List Field) (x : Nat) (y : Position) : (s.post g k fs).detected x y = s.detected x y := rfl

@[simp] theorem State.onPort_minute (p : Port) (f : PortState → PortState) : (s.onPort p f).minute = s.minute := by cases p <;> rfl
@[simp] theorem State.onPort_param (p : Port) (f : PortState → PortState) : (s.onPort p f).param = s.param := by cases p <;> rfl
@[simp] theorem State.onPort_seconds (p : Port) (f : PortState → PortState) : (s.onPort p f).seconds = s.seconds := by cases p <;> rfl
@[simp] theorem State.onPort_routeDef (p : Port) (f : PortState → PortState) (x : Nat) : (s.onPort p f).routeDef x = s.routeDef x := by cases p <;> rfl
@[simp] theorem State.onPort_lookup (p : Port) (f : PortState → PortState) (x : RouteKind) (y z : Nat) : (s.onPort p f).lookup x y z = s.lookup x y z := by cases p <;> rfl
@[simp] theorem State.onPort_sidingOf (p : Port) (f : PortState → PortState) (x : Nat) : (s.onPort p f).sidingOf x = s.sidingOf x := by cases p <;> rfl
@[simp] theorem State.onPort_gateOf (p : Port) (f : PortState → PortState) (x : Nat) : (s.onPort p f).gateOf x = s.gateOf x := by cases p <;> rfl
@[simp] theorem State.onPort_isOccupied (p : Port) (f : PortState → PortState) (x : Nat) : (s.onPort p f).isOccupied x = s.isOccupied x := by cases p <;> rfl
@[simp] theorem State.onPort_isClear (p : Port) (f : PortState → PortState) (x : Nat) : (s.onPort p f).isClear x = s.isClear x := by cases p <;> rfl
@[simp] theorem State.onPort_isForced (p : Port) (f : PortState → PortState) (x : Nat) : (s.onPort p f).isForced x = s.isForced x := by cases p <;> rfl
@[simp] theorem State.onPort_isFree (p : Port) (f : PortState → PortState) (x : Nat) : (s.onPort p f).isFree x = s.isFree x := by cases p <;> rfl
@[simp] theorem State.onPort_reservedBy (p : Port) (f : PortState → PortState) (x : Nat) : (s.onPort p f).reservedBy x = s.reservedBy x := by cases p <;> rfl
@[simp] theorem State.onPort_outOfService (p : Port) (f : PortState → PortState) (x : Nat) : (s.onPort p f).outOfService x = s.outOfService x := by cases p <;> rfl
@[simp] theorem State.onPort_detected (p : Port) (f : PortState → PortState) (x : Nat) (y : Position) : (s.onPort p f).detected x y = s.detected x y := by cases p <;> rfl

@[simp] theorem State.reply_minute (k : Kind) (r : Req) (a : Ans) : (s.reply k r a).minute = s.minute := by rcases r with ⟨_ | _ | _, _⟩ <;> rfl
@[simp] theorem State.reply_param (k : Kind) (r : Req) (a : Ans) : (s.reply k r a).param = s.param := by rcases r with ⟨_ | _ | _, _⟩ <;> rfl
@[simp] theorem State.reply_seconds (k : Kind) (r : Req) (a : Ans) : (s.reply k r a).seconds = s.seconds := by rcases r with ⟨_ | _ | _, _⟩ <;> rfl
@[simp] theorem State.reply_routeDef (k : Kind) (r : Req) (a : Ans) (x : Nat) : (s.reply k r a).routeDef x = s.routeDef x := by rcases r with ⟨_ | _ | _, _⟩ <;> rfl
@[simp] theorem State.reply_lookup (k : Kind) (r : Req) (a : Ans) (x : RouteKind) (y z : Nat) : (s.reply k r a).lookup x y z = s.lookup x y z := by rcases r with ⟨_ | _ | _, _⟩ <;> rfl
@[simp] theorem State.reply_sidingOf (k : Kind) (r : Req) (a : Ans) (x : Nat) : (s.reply k r a).sidingOf x = s.sidingOf x := by rcases r with ⟨_ | _ | _, _⟩ <;> rfl
@[simp] theorem State.reply_gateOf (k : Kind) (r : Req) (a : Ans) (x : Nat) : (s.reply k r a).gateOf x = s.gateOf x := by rcases r with ⟨_ | _ | _, _⟩ <;> rfl
@[simp] theorem State.reply_isOccupied (k : Kind) (r : Req) (a : Ans) (x : Nat) : (s.reply k r a).isOccupied x = s.isOccupied x := by rcases r with ⟨_ | _ | _, _⟩ <;> rfl
@[simp] theorem State.reply_isClear (k : Kind) (r : Req) (a : Ans) (x : Nat) : (s.reply k r a).isClear x = s.isClear x := by rcases r with ⟨_ | _ | _, _⟩ <;> rfl
@[simp] theorem State.reply_isForced (k : Kind) (r : Req) (a : Ans) (x : Nat) : (s.reply k r a).isForced x = s.isForced x := by rcases r with ⟨_ | _ | _, _⟩ <;> rfl
@[simp] theorem State.reply_isFree (k : Kind) (r : Req) (a : Ans) (x : Nat) : (s.reply k r a).isFree x = s.isFree x := by rcases r with ⟨_ | _ | _, _⟩ <;> rfl
@[simp] theorem State.reply_reservedBy (k : Kind) (r : Req) (a : Ans) (x : Nat) : (s.reply k r a).reservedBy x = s.reservedBy x := by rcases r with ⟨_ | _ | _, _⟩ <;> rfl
@[simp] theorem State.reply_outOfService (k : Kind) (r : Req) (a : Ans) (x : Nat) : (s.reply k r a).outOfService x = s.outOfService x := by rcases r with ⟨_ | _ | _, _⟩ <;> rfl
@[simp] theorem State.reply_detected (k : Kind) (r : Req) (a : Ans) (x : Nat) (y : Position) : (s.reply k r a).detected x y = s.detected x y := by rcases r with ⟨_ | _ | _, _⟩ <;> rfl

/-- A port that is changed has its change. -/
@[simp] theorem State.onPort_same (p : Port) (f : PortState → PortState) : (s.onPort p f).port p = f (s.port p) := by
  cases p <;> rfl

/-- A port that is not changed is as before. -/
theorem State.onPort_other {p q : Port} (h : q ≠ p) (f : PortState → PortState) : (s.onPort p f).port q = s.port q := by
  cases p <;> cases q <;> first | rfl | exact absurd rfl h

end Updates

end Sys2Proof.Machine
end

