-- ==== Sys2Proof/Laws/Tables.lean ====
section
/-! SUPPORT. The keyed tables: what finding, storing, removing and changing a record do to each other, and that they keep the
canonical form. -/

namespace Sys2Proof

variable {α : Type}

/-- Storing a record: it is found under its number, and every other number finds what it found. -/
theorem Tbl.find_put (k m : Nat) (a : α) (t : Tbl α) : Tbl.find m (Tbl.put k a t) = if m = k then some a else Tbl.find m t := by
  induction t with
  | nil =>
    by_cases h : m = k
    · simp [Tbl.put, Tbl.find, h]
    · simp [Tbl.put, Tbl.find, h, Ne.symm h]
  | cons p t ih =>
    obtain ⟨n, b⟩ := p
    unfold Tbl.put
    by_cases h1 : k < n
    · simp only [h1, if_true, Tbl.find]
      by_cases h : m = k
      · subst h; simp
      · simp [h, Ne.symm h]
    · by_cases h2 : k = n
      · subst h2
        simp only [Nat.lt_irrefl, if_false, if_true, Tbl.find]
        by_cases h : m = k
        · subst h; simp
        · simp [h, Ne.symm h]
      · simp only [h1, h2, if_false, Tbl.find, ih]
        by_cases h : m = k
        · subst h; simp [Ne.symm h2]
        · simp [h]

/-- Changing a record: its number finds the changed record, every other what it found. -/
theorem Tbl.find_adjust (k m : Nat) (f : α → α) (t : Tbl α) :
    Tbl.find m (Tbl.adjust k f t) = if m = k then (Tbl.find m t).map f else Tbl.find m t := by
  induction t with
  | nil => simp [Tbl.adjust, Tbl.find]
  | cons p t ih =>
    obtain ⟨n, b⟩ := p
    have ih' : Tbl.find m (t.map fun p => if p.1 = k then (p.1, f p.2) else p) =
        if m = k then (Tbl.find m t).map f else Tbl.find m t := ih
    by_cases hn : n = k
    · subst hn
      by_cases h : n = m
      · subst h; simp [Tbl.adjust, Tbl.find]
      · simp [Tbl.adjust, Tbl.find, h, Ne.symm h] at ih' ⊢; exact ih'
    · by_cases h : n = m
      · subst h; simp [Tbl.adjust, Tbl.find, hn]
      · simp [Tbl.adjust, Tbl.find, h, hn] at ih' ⊢; exact ih'

/-- Removing a record: its number finds nothing, every other what it found. -/
theorem Tbl.find_del (k m : Nat) (t : Tbl α) : Tbl.find m (Tbl.del k t) = if m = k then none else Tbl.find m t := by
  induction t with
  | nil => simp [Tbl.del, Tbl.find]
  | cons p t ih =>
    obtain ⟨n, b⟩ := p
    have ih' : Tbl.find m (t.filter fun p => p.1 != k) = if m = k then none else Tbl.find m t := ih
    by_cases hn : n = k
    · subst hn
      by_cases h : n = m
      · subst h; simp [Tbl.del] at ih' ⊢; exact ih'
      · simp [Tbl.del, Tbl.find, h, Ne.symm h] at ih' ⊢; exact ih'
    · by_cases h : n = m
      · subst h; simp [Tbl.del, Tbl.find, hn]
      · simp [Tbl.del, Tbl.find, h, hn] at ih' ⊢; exact ih'

/-- A change of a record leaves the numbers. -/
@[simp] theorem Tbl.keys_adjust (k : Nat) (f : α → α) (t : Tbl α) : Tbl.keys (Tbl.adjust k f t) = Tbl.keys t := by
  simp only [Tbl.keys, Tbl.adjust, List.map_map]
  apply List.map_congr_left
  intro p _
  by_cases h : p.1 = k <;> simp [h]

/-- A map over the records leaves the numbers. -/
@[simp] theorem Tbl.keys_map {β : Type} (t : Tbl α) (f : Nat × α → β) :
    Tbl.keys (t.map (fun p => (p.1, f p))) = Tbl.keys t := by
  simp [Tbl.keys, Function.comp_def]

/-- A map over the records, at one number. -/
theorem Tbl.find_map {β : Type} (t : Tbl α) (f : Nat → α → β) (m : Nat) :
    Tbl.find m (t.map (fun p => (p.1, f p.1 p.2))) = (Tbl.find m t).map (f m) := by
  induction t with
  | nil => rfl
  | cons p t ih =>
    obtain ⟨n, b⟩ := p
    by_cases h : n = m
    · subst h; simp [Tbl.find]
    · simp [Tbl.find, h, ih]

/-- A change of a record keeps the canonical form. -/
theorem Tbl.wf_adjust {t : Tbl α} (h : Tbl.wf t) (k : Nat) (f : α → α) : Tbl.wf (Tbl.adjust k f t) := by
  have := Tbl.keys_adjust k f t
  simp only [Tbl.keys] at this
  simpa [Tbl.wf, this] using h

/-- A removal keeps the canonical form. -/
theorem Tbl.wf_del {t : Tbl α} (h : Tbl.wf t) (k : Nat) : Tbl.wf (Tbl.del k t) :=
  List.Pairwise.sublist (List.Sublist.map _ List.filter_sublist) h

/-- The numbers after a store: those before, and the one stored. -/
theorem Tbl.mem_keys_put (k m : Nat) (a : α) (t : Tbl α) : m ∈ Tbl.keys (Tbl.put k a t) ↔ m = k ∨ m ∈ Tbl.keys t := by
  induction t with
  | nil => simp [Tbl.put, Tbl.keys]
  | cons p t ih =>
    obtain ⟨n, b⟩ := p
    unfold Tbl.put
    split
    · simp [Tbl.keys]
    · split
      · rename_i h; subst h; simp [Tbl.keys]
      · simp only [Tbl.keys, List.map_cons, List.mem_cons] at ih ⊢
        rw [ih]; tauto

/-- A store keeps the canonical form. -/
theorem Tbl.wf_put {t : Tbl α} (h : Tbl.wf t) (k : Nat) (a : α) : Tbl.wf (Tbl.put k a t) := by
  induction t with
  | nil => simp [Tbl.put, Tbl.wf]
  | cons p t ih =>
    obtain ⟨n, b⟩ := p
    simp only [Tbl.wf, List.map_cons, List.pairwise_cons] at h
    obtain ⟨h1, h2⟩ := h
    unfold Tbl.put
    split
    · rename_i hlt
      simp only [Tbl.wf, List.map_cons, List.pairwise_cons]
      refine ⟨?_, h1, h2⟩
      intro m hm
      rcases List.mem_cons.mp hm with rfl | hm
      · exact hlt
      · exact Nat.lt_trans hlt (h1 m hm)
    · split
      · rename_i hnlt heq
        subst heq
        simp only [Tbl.wf, List.map_cons, List.pairwise_cons]
        exact ⟨h1, h2⟩
      · rename_i hnlt hne
        simp only [Tbl.wf, List.map_cons, List.pairwise_cons]
        refine ⟨?_, ih h2⟩
        intro m hm
        have := (Tbl.mem_keys_put k m a t).mp hm
        rcases this with rfl | hm'
        · omega
        · exact h1 m hm'

/-- A found record is in the table. -/
theorem Tbl.mem_of_find {k : Nat} {a : α} {t : Tbl α} (h : Tbl.find k t = some a) : (k, a) ∈ t := by
  induction t with
  | nil => simp [Tbl.find] at h
  | cons p t ih =>
    obtain ⟨n, b⟩ := p
    by_cases hn : n = k
    · subst hn; simp [Tbl.find] at h; simp [h]
    · simp [Tbl.find, hn] at h; exact List.mem_cons_of_mem _ (ih h)

end Sys2Proof
end

