-- ==== Sys2Proof/Laws/Base.lean ====
section
/-! SUPPORT. What no block's taking changes: the queue, the lines, the time, the description and the set of records each
block keeps (`State.base`); one lemma for each shared operation. -/

namespace Sys2Proof.Machine

/-- The part of the state that every taking in RUN leaves: queue, operating state, time, pins, description, parameters, and
the numbers of the section, point, gate and siding records. -/
structure Base where
  pending : List Instr
  op : OpState
  uptime : Nat
  pins : Pins
  desc : Description
  inForce : Option Params
  sections : List Nat
  points : List Nat
  gates : List Nat
  sidings : List Nat

/-- The base of a state. -/
def State.base (s : State) : Base :=
  ⟨s.pending, s.op, s.uptime, s.pins, s.desc, s.inForce, Tbl.keys s.sections, Tbl.keys s.points, Tbl.keys s.gates,
   Tbl.keys s.stab.sidings⟩

section

variable (s : State)

@[simp] theorem base_onSection (n : Nat) (f : SectionRec → SectionRec) : (s.onSection n f).base = s.base := by
  simp [State.base]
@[simp] theorem base_onPoint (n : Nat) (f : PointRec → PointRec) : (s.onPoint n f).base = s.base := by simp [State.base]
@[simp] theorem base_onRoute (f : RouteSetter → RouteSetter) : (s.onRoute f).base = s.base := by simp [State.base]
@[simp] theorem base_onEntry (n : Nat) (f : RouteEntry → RouteEntry) : (s.onEntry n f).base = s.base := by
  simp [State.base]
@[simp] theorem base_onGate (g : Nat) (f : Gate → Gate) : (s.onGate g f).base = s.base := by simp [State.base]
@[simp] theorem base_onSiding (n : Nat) (f : SidingRec → SidingRec) : (s.onSiding n f).base = s.base := by
  simp [State.base]
@[simp] theorem base_onShunt (n : Nat) (f : ShuntEntry → ShuntEntry) : (s.onShunt n f).base = s.base := by
  simp [State.base]
@[simp] theorem base_onRoster (f : Roster → Roster) : (s.onRoster f).base = s.base := by simp [State.base]
@[simp] theorem base_onSup (f : Supervision → Supervision) : (s.onSup f).base = s.base := by simp [State.base]
@[simp] theorem base_send (c : Instr) : (s.send c).base = s.base := by simp [State.base]
@[simp] theorem base_take (c : Instr) : (s.take c).base = s.base := by simp [State.base]
@[simp] theorem base_raise (a : Alarm) : (s.raise a).base = s.base := by simp [State.base]
@[simp] theorem base_endAlarm (a : Alarm) : (s.endAlarm a).base = s.base := by simp [State.base]
@[simp] theorem base_post (g : Group) (k : Nat) (fs : List Field) : (s.post g k fs).base = s.base := by simp [State.base]
@[simp] theorem base_onPort (p : Port) (f : PortState → PortState) : (s.onPort p f).base = s.base := by simp [State.base]
@[simp] theorem base_reply (k : Kind) (r : Req) (a : Ans) : (s.reply k r a).base = s.base := by simp [State.base]

/-- A walk each of whose steps keeps the base keeps it. -/
theorem base_foldl {α : Type} {f : State → α → State} (h : ∀ s a, (f s a).base = s.base) (l : List α) :
    (l.foldl f s).base = s.base := by
  induction l generalizing s with
  | nil => rfl
  | cons a l ih => rw [List.foldl_cons, ih, h]

/-! ## Ports and the end of a taking -/

@[simp] theorem base_setHoldSignal (g : Nat) : (s.setHoldSignal g).base = s.base := by
  unfold State.setHoldSignal; repeat' (first | split | simp)

@[simp] theorem base_setOutputs : s.setOutputs.base = s.base :=
  (base_setHoldSignal _ 2).trans (base_setHoldSignal s 1)

@[simp] theorem base_takePortOwned (i : Instr) : (takePortOwned i s).1.base = s.base := by
  unfold takePortOwned
  split
  · simp [takeStatus]
  · simp [takeSubscribe]
  · simp [takePortReset]
  · unfold takeTableSelect; repeat' (first | split | simp)
  · unfold takeTableNext; repeat' (first | split | simp)
  · rfl

@[simp] theorem base_handOver (p : Port) : (s.handOver p).base = s.base := by
  unfold State.handOver; repeat' (first | split | simp)

@[simp] theorem base_pump (p : Port) (k : Nat) : (State.pump p k s).base = s.base := by
  induction k generalizing s with
  | zero => rfl
  | succ k ih =>
    unfold State.pump
    repeat' (first | split | simp [ih])

@[simp] theorem base_settle : s.settle.base = s.base := by simp [State.settle, State.goOn]

end

end Sys2Proof.Machine
end

