-- ==== Sys2Proof/Laws/BaseYard.lean ====
section
/-! SUPPORT. The base of the state through the operations of the occupancy monitor, the point controller and the route
setter. -/

namespace Sys2Proof.Machine

variable (s : State)

/-! ## Occupancy monitor -/

@[simp] theorem base_deliverEdge (n : Nat) (k : SectionKind) (o : Occ) (c : EdgeCause) :
    (s.deliverEdge n k o c).base = s.base := by
  unfold State.deliverEdge; repeat' (first | split | simp)

@[simp] theorem base_confirm (n : Nat) (r : SectionRec) (o : Occ) (c : EdgeCause) : (s.confirm n r o c).base = s.base := by
  unfold State.confirm; repeat' (first | split | simp)

@[simp] theorem base_takeLevel (n : Nat) (r : SectionRec) (l : Occ) : (s.takeLevel n r l).base = s.base := by
  unfold State.takeLevel; repeat' (first | split | simp)

@[simp] theorem base_takeForceOn (n : Nat) : (takeForceOn n s).1.base = s.base := by
  unfold takeForceOn; repeat' (first | split | simp)

@[simp] theorem base_takeForceOff (n : Nat) : (takeForceOff n s).1.base = s.base := by
  unfold takeForceOff; repeat' (first | split | simp)

@[simp] theorem base_takeSectionQuery (n : Nat) : (takeSectionQuery n s).1.base = s.base := by
  unfold takeSectionQuery; repeat' (first | split | simp)

/-! ## Point controller -/

@[simp] theorem base_endLossIfDetected (n : Nat) : (s.endLossIfDetected n).base = s.base := by
  unfold State.endLossIfDetected; repeat' (first | split | simp)

@[simp] theorem base_postPoint (n : Nat) (c : PointCause) : (s.postPoint n c).base = s.base := by
  unfold State.postPoint; repeat' (first | split | simp)

@[simp] theorem base_setPointState (n : Nat) (new : PointState) (c : PointCause) (f : PointRec → PointRec) :
    (s.setPointState n new c f).base = s.base := by
  unfold State.setPointState; repeat' (first | split | simp)

@[simp] theorem base_startThrow (n : Nat) (p : Position) : (s.startThrow n p).base = s.base := by simp [State.startThrow]

@[simp] theorem base_reverseThrow (n : Nat) (p : Position) : (s.reverseThrow n p).base = s.base := by
  simp [State.reverseThrow]

@[simp] theorem base_unlockPoint (n slot : Nat) : (s.unlockPoint n slot).base = s.base := by
  unfold State.unlockPoint; repeat' (first | split | simp)

/-- A granted lock keeps the base. -/
theorem base_lockPoint {n slot : Nat} {p : Position} {t : State} (h : s.lockPoint n slot p = .ok t) : t.base = s.base := by
  unfold State.lockPoint at h
  repeat' split at h
  all_goals first | cases h; simp | cases h

@[simp] theorem base_commandPoint (n slot : Nat) (p : Position) : (s.commandPoint n slot p).base = s.base := by
  unfold State.commandPoint; repeat' (first | split | simp)

@[simp] theorem base_takeReading (n : Nat) (r : PointRec) (rd : Reading) : (s.takeReading n r rd).base = s.base := by
  unfold State.takeReading; repeat' (first | split | simp)

@[simp] theorem base_takePointThrow (n p : Nat) : (takePointThrow n p s).1.base = s.base := by
  unfold takePointThrow; repeat' (first | split | simp)

@[simp] theorem base_takePointBlock (n : Nat) : (takePointBlock n s).1.base = s.base := by
  unfold takePointBlock; repeat' (first | split | simp)

@[simp] theorem base_takePointRestore (n : Nat) : (takePointRestore n s).1.base = s.base := by
  unfold takePointRestore; repeat' (first | split | simp)

@[simp] theorem base_takePointQuery (n : Nat) : (takePointQuery n s).1.base = s.base := by
  unfold takePointQuery; repeat' (first | split | simp)

@[simp] theorem base_restartPoint (n : Nat) : (s.restartPoint n).base = s.base := by
  unfold State.restartPoint; repeat' (first | split | simp)

/-! ## Route setter -/

@[simp] theorem base_postEntry (slot : Nat) (e : RouteEntry) (k : Nat) : (s.postEntry slot e k).base = s.base := by
  simp [State.postEntry]

@[simp] theorem base_postSlot (slot : Nat) : (s.postSlot slot).base = s.base := by
  unfold State.postSlot; repeat' (first | split | simp)

@[simp] theorem base_postFailed (sl : Option Nat) (n : Nat) (o : Owner) (p : Purpose) (w : FailCause) :
    (s.postFailed sl n o p w).base = s.base := by simp [State.postFailed]

@[simp] theorem base_postCancelled (sl : Option Nat) (n : Nat) (o : Owner) (p : Purpose) (m : CancelMode) :
    (s.postCancelled sl n o p m).base = s.base := by simp [State.postCancelled]

@[simp] theorem base_sendEvent (ev : RouteEvent) : (s.sendEvent ev).base = s.base := by
  unfold State.sendEvent; repeat' (first | split | simp)

@[simp] theorem base_slotEvent (slot : Nat) (p : Progress) : (s.slotEvent slot p).base = s.base := by
  unfold State.slotEvent; repeat' (first | split | simp)

@[simp] theorem base_reserve (slot : Nat) (l : List Nat) : (s.reserve slot l).base = s.base :=
  base_foldl s (by simp) l

@[simp] theorem base_unreserve (slot : Nat) (l : List Nat) : (s.unreserve slot l).base = s.base :=
  base_foldl s (by simp) l

@[simp] theorem base_unlockAll (slot : Nat) (l : List Nat) : (s.unlockAll slot l).base = s.base :=
  base_foldl s (by simp) l

@[simp] theorem base_lockAll (slot : Nat) (l : List (Nat × Position)) : (s.lockAll slot l).1.base = s.base := by
  induction l generalizing s with
  | nil => rfl
  | cons p l ih =>
    unfold State.lockAll
    split
    · rfl
    · rename_i h; rw [ih, base_lockPoint s h]

@[simp] theorem base_commandAll (slot : Nat) (l : List (Nat × Position)) : (s.commandAll slot l).base = s.base :=
  base_foldl s (by intro s a; split <;> simp) l

@[simp] theorem base_removeEntry (slot : Nat) (e : RouteEntry) : (s.removeEntry slot e).base = s.base := by
  simp [State.removeEntry]

@[simp] theorem base_testProceed (slot : Nat) : (s.testProceed slot).base = s.base := by
  unfold State.testProceed; repeat' (first | split | simp)

@[simp] theorem base_takeInto (slot : Nat) (q : RouteRequest) (d : RouteDef) : (s.takeInto slot q d).1.base = s.base := by
  have h := base_lockAll (s.reserve slot d.sections) slot d.points
  unfold State.takeInto
  dsimp only
  split <;> rename_i e <;> rw [e] at h <;> simpa using h

@[simp] theorem base_storeRequest (q : RouteRequest) : (s.storeRequest q).1.base = s.base := by
  unfold State.storeRequest; repeat' (first | split | simp)

@[simp] theorem base_takeOrStore (q : RouteRequest) (d : RouteDef) : (s.takeOrStore q d).1.base = s.base := by
  unfold State.takeOrStore
  split
  · rename_i slot _ _
    have h := base_takeInto s slot q d
    split
    · rename_i e; rw [e] at h; exact h
    · rename_i e; rw [e] at h
      split
      · exact h
      · simpa using h
  · simp

@[simp] theorem base_requestRoute (ks : List RouteKind) (q : RouteRequest) : (s.requestRoute ks q).1.base = s.base := by
  unfold State.requestRoute; repeat' (first | split | simp)

@[simp] theorem base_failStored (e : StoreEntry) (d : RouteDef) (o : YardObject) : (s.failStored e d o).base = s.base := by
  simp [State.failStored]

@[simp] theorem base_scanOne (kept : List StoreEntry) (e : StoreEntry) : (s.scanOne kept e).1.base = s.base := by
  unfold State.scanOne
  split
  · rfl
  · rename_i d _
    split
    · simp
    · split
      · rename_i slot _ _
        have h := base_takeInto s slot e.request d
        split
        · rename_i x; rw [x] at h; exact h
        · rename_i x; rw [x] at h
          split
          · simpa using h
          · exact h
      · rfl

@[simp] theorem base_scanFrom (kept l : List StoreEntry) : (State.scanFrom kept l s).base = s.base := by
  induction l generalizing s kept with
  | nil => simp [State.scanFrom]
  | cons e l ih =>
    have h := base_scanOne s kept e
    unfold State.scanFrom
    split <;> rename_i x <;> rw [x] at h <;> rw [ih] <;> exact h

@[simp] theorem base_scan : s.scan.base = s.base := by simp [State.scan]

@[simp] theorem base_overtaken (slot : Nat) (e : RouteEntry) (c : OvertakeClaim) : (s.overtaken slot e c).base = s.base := by
  unfold State.overtaken; repeat' (first | split | simp)

@[simp] theorem base_goDegraded (slot : Nat) (e : RouteEntry) (c : Causes) (o : OvertakeClaim) :
    (s.goDegraded slot e c o).base = s.base := by
  unfold State.goDegraded; repeat' (first | split | simp)

@[simp] theorem base_releaseEntry (slot : Nat) (e : RouteEntry) (p : Progress) (m : CancelMode) :
    (s.releaseEntry slot e p m).base = s.base := by simp [State.releaseEntry]

@[simp] theorem base_releaseStored (e : StoreEntry) (m : CancelMode) : (s.releaseStored e m).base = s.base := by
  simp [State.releaseStored]

@[simp] theorem base_cancelEntry (slot : Nat) (e : RouteEntry) : (s.cancelEntry slot e).1.base = s.base := by
  unfold State.cancelEntry; repeat' (first | split | simp)

@[simp] theorem base_cancelRoute (n : Nat) (c : Owner → Purpose → Bool) : (s.cancelRoute n c).1.base = s.base := by
  unfold State.cancelRoute; repeat' (first | split | simp)

@[simp] theorem base_cancelShuntRoute (n : Nat) : (s.cancelShuntRoute n).1.base = s.base := by simp [State.cancelShuntRoute]

@[simp] theorem base_enterRoute (slot : Nat) : (s.enterRoute slot).base = s.base := by simp [State.enterRoute]

@[simp] theorem base_passAtStop (slot : Nat) (e : RouteEntry) (d : RouteDef) : (s.passAtStop slot e d).base = s.base := by
  unfold State.passAtStop; dsimp only; repeat' (first | split | simp)

@[simp] theorem base_unexpected (slot : Nat) (e : RouteEntry) (n : Nat) : (s.unexpected slot e n).base = s.base := by
  simp [State.unexpected]

@[simp] theorem base_takeOccupy (slot : Nat) (e : RouteEntry) (d : RouteDef) (i n : Nat) :
    (s.takeOccupy slot e d i n).base = s.base := by
  unfold State.takeOccupy; repeat' (first | split | simp)

@[simp] theorem base_releaseElement (slot : Nat) (d : RouteDef) (i n : Nat) : (s.releaseElement slot d i n).base = s.base := by
  simp [State.releaseElement]

@[simp] theorem base_irregularClearance (slot : Nat) (e : RouteEntry) (i n : Nat) :
    (s.irregularClearance slot e i n).base = s.base := by simp [State.irregularClearance]

@[simp] theorem base_completeRoute (slot : Nat) (e : RouteEntry) : (s.completeRoute slot e).base = s.base := by
  simp [State.completeRoute]

@[simp] theorem base_takeClear (slot : Nat) (e : RouteEntry) (d : RouteDef) (i n : Nat) :
    (s.takeClear slot e d i n).base = s.base := by
  unfold State.takeClear; repeat' (first | split | simp)

@[simp] theorem base_renewEntry (n slot : Nat) : (State.renewEntry n s slot).base = s.base := by
  unfold State.renewEntry; repeat' (first | split | simp)

@[simp] theorem base_renewWithheld (n : Nat) : (s.renewWithheld n).base = s.base := base_foldl s (by simp) _

@[simp] theorem base_failEntry (slot : Nat) (e : RouteEntry) (n : Nat) : (s.failEntry slot e n).base = s.base := by
  simp [State.failEntry]

@[simp] theorem base_takeReport (slot : Nat) (e : RouteEntry) (r : PointReport) : (s.takeReport slot e r).base = s.base := by
  unfold State.takeReport; repeat' (first | split | simp)

@[simp] theorem base_takeRouteSet (n : Nat) : (takeRouteSet n s).1.base = s.base := by simp [takeRouteSet]

@[simp] theorem base_takeRouteCancel (p : Port) (n : Nat) : (takeRouteCancel p n s).1.base = s.base := by
  unfold takeRouteCancel; repeat' (first | split | simp)

@[simp] theorem base_takeRouteResume (n : Nat) : (takeRouteResume n s).1.base = s.base := by
  unfold takeRouteResume; repeat' (first | split | simp)

@[simp] theorem base_takeForceRelease (n : Nat) : (takeForceRelease n s).1.base = s.base := by
  unfold takeForceRelease; repeat' (first | split | simp)

@[simp] theorem base_showAspect (p : Nat × RouteEntry) : (s.showAspect p).base = s.base := by
  unfold State.showAspect; repeat' (first | split | simp)

@[simp] theorem base_dropEntry (p : Nat × RouteEntry) : (s.dropEntry p).base = s.base := by simp [State.dropEntry]

@[simp] theorem base_freeSections (s : State) : s.freeSections.base = s.base := by
  simp [State.base, State.freeSections]

end Sys2Proof.Machine
end

