-- ==== Sys2Proof/Laws/BaseDepot.lean ====
section
/-! SUPPORT. The base of the state through the operations of the gate controllers, the stabling block, the roster block and
supervision. -/

namespace Sys2Proof.Machine

variable (s : State)

/-! ## Stabling block: claims of other blocks -/

@[simp] theorem base_postStack (n f p : Nat) (st : Option StackState) (c : StackCause) : (s.postStack n f p st c).base = s.base := by
  simp [State.postStack]

@[simp] theorem base_postSiding (n : Nat) (c : StackCause) : (s.postSiding n c).base = s.base := by
  unfold State.postSiding; repeat' (first | split | simp)

@[simp] theorem base_postInversion (f n b : Nat) : (s.postInversion f n b).base = s.base := by
  simp [State.postInversion]

@[simp] theorem base_report (c : StackCause) (g : Option Nat) : (s.report c g).base = s.base :=
  base_foldl s (by simp) _

@[simp] theorem base_onRecord (n f : Nat) (g : StackRec → StackRec) : (s.onRecord n f g).base = s.base := by
  simp [State.onRecord]

@[simp] theorem base_pushRecord (n : Nat) (x : StackRec) : (s.pushRecord n x).base = s.base := by
  simp [State.pushRecord]

@[simp] theorem base_dropRecord (n f : Nat) : (s.dropRecord n f).base = s.base := by
  simp [State.dropRecord]

@[simp] theorem base_setDoubt (n : Nat) (c : StackCause) : (s.setDoubt n c).base = s.base := by
  unfold State.setDoubt; repeat' (first | split | simp)

@[simp] theorem base_doubtClaim (n : Nat) (c : StackCause) : (s.doubtClaim n c).base = s.base := by
  unfold State.doubtClaim; repeat' (first | split | simp)

@[simp] theorem base_allocate (g f l : Nat) (ma wa : Needs) : (s.allocate g f l ma wa).1.base = s.base := by
  unfold State.allocate; repeat' (first | split | simp)

@[simp] theorem base_releaseClaim (g f : Nat) : (s.releaseClaim g f).base = s.base := by
  unfold State.releaseClaim; repeat' (first | split | simp)

@[simp] theorem base_markCalled (n f : Nat) (p : StackPurpose) (b : Bool) : (s.markCalled n f p b).base = s.base := by
  simp [State.markCalled]

@[simp] theorem base_callClaim (f : Nat) (p : StackPurpose) : (s.callClaim f p).1.base = s.base := by
  unfold State.callClaim; repeat' (first | split | simp)

@[simp] theorem base_uncallClaim (f : Nat) (p : StackPurpose) : (s.uncallClaim f p).base = s.base := by
  unfold State.uncallClaim; repeat' (first | split | simp)

@[simp] theorem base_selectionClaim (d g : Nat) (m : Option Nat) (l : List Nat) : (s.selectionClaim d g m l).1.base = s.base := by
  unfold State.selectionClaim
  split
  · rfl
  · rename_i x _
    have h := base_callClaim s x.fleet (.dutyDeparture d)
    split <;> rename_i e <;> rw [e] at h <;> exact h

/-! ## Gate controllers -/

@[simp] theorem base_postArrival (g p : Nat) (a : Arrival) (c : QueueCause) : (s.postArrival g p a c).base = s.base := by
  simp [State.postArrival]

@[simp] theorem base_postQueue (g p : Nat) (c : QueueCause) : (s.postQueue g p c).base = s.base := by
  unfold State.postQueue; repeat' (first | split | simp)

@[simp] theorem base_onArrival (g p : Nat) (f : Arrival → Arrival) : (s.onArrival g p f).base = s.base := by
  simp [State.onArrival]

@[simp] theorem base_queueChanged (g : Nat) (j : Bool) : (s.queueChanged g j).base = s.base := by
  simp [State.queueChanged]

@[simp] theorem base_requestArrival (g f n : Nat) : (s.requestArrival g f n).base = s.base := by
  unfold State.requestArrival
  cases s.lookup .arrival g n with
  | none => simp
  | some route =>
    have h := base_requestRoute s [.arrival] ⟨route, .auto, .gateArrival g f, none⟩
    dsimp only
    split <;> rename_i e <;> rw [e] at h <;> simpa using h

@[simp] theorem base_noPlace (g f : Nat) (w : PlaceReason) : (s.noPlace g f w).base = s.base := by
  unfold State.noPlace; repeat' (first | split | simp)

@[simp] theorem base_processHead (g : Nat) : (s.processHead g).base = s.base := by
  unfold State.processHead
  split
  · rfl
  · split
    · rename_i f l ma wa _ _ _ _
      have h := base_allocate s g f l ma wa
      split
      · split <;> rename_i e <;> rw [e] at h <;> simpa using h
      · rfl
    · rfl

@[simp] theorem base_newHead (g : Nat) : (s.newHead g).base = s.base := by
  simp [State.newHead]

@[simp] theorem base_overrun (g : Nat) : (s.overrun g).base = s.base := by
  simp [State.overrun]

@[simp] theorem base_joinQueue (g : Nat) (a : Arrival) (c : QueueCause) : (s.joinQueue g a c).base = s.base := by
  unfold State.joinQueue; repeat' (first | split | simp)

@[simp] theorem base_createRecord (g : Nat) (x : Gate) (f : ReaderFrame) : (s.createRecord g x f).base = s.base := by
  unfold State.createRecord; repeat' (first | split | simp)

@[simp] theorem base_fillRecord (g : Nat) (x : Gate) (f : ReaderFrame) : (s.fillRecord g x f).base = s.base := by
  unfold State.fillRecord; repeat' (first | split | simp)

@[simp] theorem base_takeInWindow (g : Nat) (x : Gate) (d : GateDef) (f : ReaderFrame) : (s.takeInWindow g x d f).base = s.base := by
  unfold State.takeInWindow; repeat' (first | split | simp)

@[simp] theorem base_takeInbound (g : Nat) (f : ReaderFrame) : (s.takeInbound g f).base = s.base := by
  unfold State.takeInbound; repeat' (first | split | simp)

@[simp] theorem base_inboundByte (g : Nat) (b : Byte) : (State.inboundByte g s b).base = s.base := by
  unfold State.inboundByte; repeat' (first | split | simp)

@[simp] theorem base_openWindow (g : Nat) (x : Gate) (d : GateDef) : (s.openWindow g x d).base = s.base := by
  unfold State.openWindow; repeat' (first | split | simp)

@[simp] theorem base_appendUnread (g : Nat) (x : Gate) : (s.appendUnread g x).base = s.base := by
  unfold State.appendUnread; repeat' (first | split | simp)

@[simp] theorem base_takeArrivalEvent (g p : Nat) (a : Arrival) (ev : RouteEvent) : (s.takeArrivalEvent g p a ev).base = s.base := by
  unfold State.takeArrivalEvent; repeat' (first | split | simp)

@[simp] theorem base_takeOutbound (g : Nat) (f : ReaderFrame) : (s.takeOutbound g f).base = s.base := by
  unfold State.takeOutbound; repeat' (first | split | simp)

@[simp] theorem base_outboundByte (g : Nat) (b : Byte) : (State.outboundByte g s b).base = s.base := by
  unfold State.outboundByte; repeat' (first | split | simp)

@[simp] theorem base_wrongTram (ev : RouteEvent) (r : Nat) : (s.wrongTram ev r).base = s.base := by
  unfold State.wrongTram; repeat' (first | split | simp)

@[simp] theorem base_compareOutbound (g : Nat) (x : Gate) (ev : RouteEvent) : (s.compareOutbound g x ev).base = s.base := by
  unfold State.compareOutbound; repeat' (first | split | simp)

@[simp] theorem base_takeIdentify (g p f l : Nat) (a b : Byte) : (takeIdentify g p f l a b s).1.base = s.base := by
  unfold takeIdentify; repeat' (first | split | simp)

@[simp] theorem base_takeDiscard (g p : Nat) : (takeDiscard g p s).1.base = s.base := by
  unfold takeDiscard; repeat' (first | split | simp)

@[simp] theorem base_takeAdd (g f l : Nat) (a b : Byte) : (takeAdd g f l a b s).1.base = s.base := by
  unfold takeAdd; repeat' (first | split | simp)

@[simp] theorem base_takeArrivalResume (g : Nat) : (takeArrivalResume g s).1.base = s.base := by
  unfold takeArrivalResume; repeat' (first | split | simp)

@[simp] theorem base_takeClearOverrun (g : Nat) : (takeClearOverrun g s).1.base = s.base := by
  unfold takeClearOverrun; repeat' (first | split | simp)

@[simp] theorem base_takeGate (g : Nat) (f : Gate → Gate) : (takeGate g f s).1.base = s.base := by
  unfold takeGate; repeat' (first | split | simp)

@[simp] theorem base_takeLine (g : Nat) (v : Bool) : (takeLine g v s).1.base = s.base := by
  unfold takeLine; repeat' (first | split | simp)

@[simp] theorem base_restartArrival (g : Nat) (p : Arrival × Nat) : (State.restartArrival g s p).base = s.base := by
  unfold State.restartArrival; repeat' (first | split | simp)

/-! ## Stabling block: its own commands -/

@[simp] theorem base_postStabled (f n p : Nat) : (s.postStabled f n p).base = s.base := by
  simp [State.postStabled]

@[simp] theorem base_removeRecord (n f p : Nat) (c : StackCause) : (s.removeRecord n f p c).base = s.base := by
  simp [State.removeRecord]

@[simp] theorem base_takeArrival (n f i : Nat) (ev : Progress) : (s.takeArrival n f i ev).base = s.base := by
  unfold State.takeArrival; repeat' (first | split | simp)

@[simp] theorem base_takeDeparture (n f i : Nat) (x : StackRec) (ev : Progress) : (s.takeDeparture n f i x ev).base = s.base := by
  unfold State.takeDeparture; repeat' (first | split | simp)

@[simp] theorem base_takeCensus (n : Nat) (es : List CensusEntry) : (takeCensus n es s).1.base = s.base := by
  unfold takeCensus; repeat' (first | split | simp)

@[simp] theorem base_changeSiding (n : Nat) (f : SidingRec → SidingRec) (c : StackCause) : (changeSiding n f c s).1.base = s.base := by
  unfold changeSiding; repeat' (first | split | simp)

@[simp] theorem base_takeAbilities (n : Nat) (a : Byte) : (takeAbilities n a s).1.base = s.base := by
  unfold takeAbilities; repeat' (first | split | simp)

@[simp] theorem base_takeDoubt (n : Nat) : (takeDoubt n s).1.base = s.base := by
  unfold takeDoubt; repeat' (first | split | simp)

@[simp] theorem base_postShunt (h : Nat) (e : ShuntEntry) (p : Option ShuntPhase) (c : ShuntCause) : (s.postShunt h e p c).base = s.base := by
  simp [State.postShunt]

@[simp] theorem base_postPhase (h : Nat) (c : ShuntCause) : (s.postPhase h c).base = s.base := by
  unfold State.postPhase; repeat' (first | split | simp)

@[simp] theorem base_shuntTable (f : Tbl ShuntEntry → Tbl ShuntEntry) :
    (s.onStab (fun b => { b with shunts := f b.shunts })).base = s.base := by simp [State.base]

@[simp] theorem base_endShunt (h : Nat) (e : ShuntEntry) (c : ShuntCause) : (s.endShunt h e c).base = s.base := by
  simp [State.endShunt]

@[simp] theorem base_clearIncoming (n : Nat) (c : StackCause) : (s.clearIncoming n c).base = s.base := by
  unfold State.clearIncoming; repeat' (first | split | simp)

@[simp] theorem base_requestIn (h : Nat) (c : ShuntCause) : (s.requestIn h c).1.base = s.base := by
  unfold State.requestIn
  split
  · rfl
  · rename_i e _
    dsimp only
    split
    · simp
    · split
      · simp
      · rename_i route _
        have hb := base_requestRoute (s.onShunt h (fun x => { x with inRoute := none, standing := .none })) [.shuntIn]
          (e.routeRequest h route)
        split <;> rename_i x <;> rw [x] at hb <;> simpa using hb

@[simp] theorem base_moveRecord (h : Nat) (e : ShuntEntry) : (s.moveRecord h e).base = s.base := by
  unfold State.moveRecord; repeat' (first | split | simp)

@[simp] theorem base_takeOutWait (h : Nat) (e : ShuntEntry) (i : Nat) (ev : Progress) : (s.takeOutWait h e i ev).base = s.base := by
  unfold State.takeOutWait; repeat' (first | split | simp)

@[simp] theorem base_abandonShunt (h : Nat) (e : ShuntEntry) : (s.abandonShunt h e).base = s.base := by
  unfold State.abandonShunt; repeat' (first | split | simp)

@[simp] theorem base_takeOutMoving (h : Nat) (e : ShuntEntry) (ev : Progress) : (s.takeOutMoving h e ev).base = s.base := by
  unfold State.takeOutMoving; repeat' (first | split | simp)

@[simp] theorem base_takeIn (h : Nat) (e : ShuntEntry) (i : Nat) (ev : Progress) : (s.takeIn h e i ev).base = s.base := by
  unfold State.takeIn; repeat' (first | split | simp)

@[simp] theorem base_noteInversion (f n : Nat) (b : Option StackRec) : (s.noteInversion f n b).base = s.base := by
  unfold State.noteInversion; repeat' (first | split | simp)

@[simp] theorem base_startShunt (h f a i t o : Nat) (w : Owner) : (s.startShunt h f a i t o w).1.base = s.base := by
  have hb := base_requestRoute
    (((s.onStab (fun b => { b with shunts := Tbl.put h ⟨f, a, t, w, .outWait, o, none, .none⟩ b.shunts })).onSiding t
      (fun r => { r with incoming := some h })).markCalled a f (.shuntEntry h) s.stab.handed) [.shuntOut]
    (ShuntEntry.routeRequest h ⟨f, a, t, w, .outWait, o, none, .none⟩ o)
  simp only [base_markCalled, base_onSiding, base_shuntTable] at hb
  unfold State.startShunt
  dsimp only
  split
  · rename_i e
    rw [e] at hb
    simp only [State.base, Base.mk.injEq] at hb ⊢
    exact ⟨hb.1, hb.2.1, hb.2.2.1, hb.2.2.2.1, hb.2.2.2.2.1, hb.2.2.2.2.2.1, hb.2.2.2.2.2.2.1, hb.2.2.2.2.2.2.2.1,
      hb.2.2.2.2.2.2.2.2.1, rfl⟩
  · rename_i e
    rw [e] at hb
    simpa using hb

@[simp] theorem base_takeShunt (p : Port) (f t : Nat) : (takeShunt p f t s).1.base = s.base := by
  unfold takeShunt; repeat' (first | split | simp)

@[simp] theorem base_takeShuntCancel (p : Port) (h : Nat) : (takeShuntCancel p h s).1.base = s.base := by
  unfold takeShuntCancel; repeat' (first | split | simp)

@[simp] theorem base_moveTarget (h t : Nat) (e : ShuntEntry) : (s.moveTarget h t e).1.base = s.base := by
  unfold State.moveTarget; repeat' (first | split | simp)

@[simp] theorem base_takeRetarget (h t : Nat) : (takeRetarget h t s).1.base = s.base := by
  unfold takeRetarget
  repeat' (first | split | simp)
  all_goals (rename_i x; have hb := congrArg (fun p => p.1.base) x; simpa using hb.symm)

@[simp] theorem base_noteRecord (n : Nat) (p : StackRec × Nat) : (State.noteRecord n s p).base = s.base := by
  unfold State.noteRecord; repeat' (first | split | simp)

@[simp] theorem base_noteRecords (n : Nat) (l : List (StackRec × Nat)) : (l.foldl (State.noteRecord n) s).base = s.base :=
  base_foldl s (by simp) l

@[simp] theorem base_noteSiding (p : Nat × SidingRec) : (State.noteSiding s p).base = s.base := by
  unfold State.noteSiding; repeat' (first | split | simp)

/-! ## Roster block -/

@[simp] theorem base_postRoster (d : Duty) (c : RosterCause) : (s.postRoster d c).base = s.base := by
  simp [State.postRoster]

@[simp] theorem base_takeClockSet (m : Nat) : (takeClockSet m s).1.base = s.base := by
  unfold takeClockSet; repeat' (first | split | simp)

@[simp] theorem base_onDuty (n : Nat) (f : Duty → Duty) : (s.onDuty n f).base = s.base := by
  simp [State.onDuty]

@[simp] theorem base_dropDuty (n : Nat) : (s.dropDuty n).base = s.base := by
  simp [State.dropDuty]

@[simp] theorem base_takeRosterAdd (d u g : Nat) (f m : Option Nat) : (takeRosterAdd d u g f m s).1.base = s.base := by
  unfold takeRosterAdd; repeat' (first | split | simp)

@[simp] theorem base_takeRosterRemove (d : Nat) : (takeRosterRemove d s).1.base = s.base := by
  unfold takeRosterRemove; repeat' (first | split | simp)

@[simp] theorem base_takeRosterClear : (takeRosterClear s).1.base = s.base :=
  (base_foldl _ (by simp) _).trans (base_onRoster s _)

@[simp] theorem base_takeRosterAuto (g v : Nat) : (takeRosterAuto g v s).1.base = s.base := by
  unfold takeRosterAuto; repeat' (first | split | simp)

@[simp] theorem base_makeDeparture (q : DepartAsk) (d : Departure) : (s.makeDeparture q d).base = s.base := by
  unfold State.makeDeparture; repeat' (first | split | simp)

@[simp] theorem base_undoCall (q : DepartAsk) (f : Nat) : (s.undoCall q f).base = s.base := by
  unfold State.undoCall; repeat' (first | split | simp)

@[simp] theorem base_requestDeparture (q : DepartAsk) (f n : Nat) : (s.requestDeparture q f n).1.base = s.base := by
  unfold State.requestDeparture
  split
  · simp
  · rename_i route _
    have hb := base_requestRoute s [.departure] ⟨route, q.owner, q.purpose f, some f⟩
    dsimp only
    split <;> rename_i x <;> rw [x] at hb <;> simpa using hb

@[simp] theorem base_departNamed (q : DepartAsk) (f : Nat) : (s.departNamed q f).1.base = s.base := by
  have hb := base_callClaim s f q.stackPurpose
  unfold State.departNamed
  split <;> rename_i x <;> rw [x] at hb <;> simpa using hb

@[simp] theorem base_departOpen (q : DepartAsk) (d : Nat) (m : Option Nat) : (s.departOpen q d m).1.base = s.base := by
  have hb := base_selectionClaim s d q.gate m (s.roster.duties.filterMap Duty.fleet)
  unfold State.departOpen
  split <;> rename_i x <;> rw [x] at hb <;> simpa using hb

@[simp] theorem base_departDuty (d : Nat) (o : Owner) : (s.departDuty d o).1.base = s.base := by
  unfold State.departDuty; repeat' (first | split | simp)

@[simp] theorem base_departFleet (f g : Nat) (o : Owner) : (s.departFleet f g o).1.base = s.base := by
  unfold State.departFleet; repeat' (first | split | simp)

@[simp] theorem base_takeDepart (p : Port) (d f g : Option Nat) : (takeDepart p d f g s).1.base = s.base := by
  unfold takeDepart; repeat' (first | split | simp)

@[simp] theorem base_postExpired (d : Option Nat) (f : Nat) (ev : Progress) : (s.postExpired d f ev).base = s.base := by
  simp [State.postExpired]

@[simp] theorem base_followDuty (e : Duty) (d : Departure) (ev : RouteEvent) : (s.followDuty e d ev).base = s.base := by
  unfold State.followDuty; repeat' (first | split | simp)

@[simp] theorem base_followFleet (d : Departure) (ev : RouteEvent) : (s.followFleet d ev).base = s.base := by
  unfold State.followFleet; repeat' (first | split | simp)

@[simp] theorem base_postDueBlocked (e : Duty) (f : Option Nat) (b : Bool) (l : List Field) : (s.postDueBlocked e f b l).base = s.base := by
  simp [State.postDueBlocked]

@[simp] theorem base_autoCall (m : Nat) (e : Duty) : (State.autoCall m e s).base = s.base := by
  have hb := base_departDuty s e.duty .auto
  unfold State.autoCall
  generalize s.departDuty e.duty .auto = q at hb ⊢
  obtain ⟨q, st, why, l⟩ := q
  cases st <;> cases why <;> dsimp only <;> (repeat' (first | split | simp [hb]))

@[simp] theorem base_dueTest (m : Nat) (e : Duty) : (State.dueTest m e s).base = s.base := by
  unfold State.dueTest; repeat' (first | split | simp)

@[simp] theorem base_lateTest (m : Nat) (e : Duty) : (State.lateTest m e s).base = s.base := by
  unfold State.lateTest; repeat' (first | split | simp)

/-- A test on a planned entry keeps the base where the test does. -/
theorem base_ifPlanned {f : Duty → State → State} (h : ∀ e t, (f e t).base = t.base) (d : Nat) :
    (s.ifPlanned d f).base = s.base := by
  unfold State.ifPlanned; repeat' (first | split | simp [h])

@[simp] theorem base_minuteTests (m d : Nat) : (State.minuteTests m s d).base = s.base := by
  unfold State.minuteTests
  rw [base_ifPlanned _ (by simp), base_ifPlanned _ (by simp), base_ifPlanned _ (by simp)]

@[simp] theorem base_minuteEvent (m : Nat) : (State.minuteEvent m s).base = s.base := base_foldl s (by simp) _

@[simp] theorem base_dropDeparture (p : StackPurpose) (d : Departure) : (s.dropDeparture p d).base = s.base := by
  unfold State.dropDeparture; repeat' (first | split | simp)

@[simp] theorem base_restartDuty (e : Duty) : (s.restartDuty e).base = s.base := by
  unfold State.restartDuty; repeat' (first | split | simp)

@[simp] theorem base_restartFleet (d : Departure) : (s.restartFleet d).base = s.base := by
  simp [State.restartFleet]

/-! ## Supervision -/

@[simp] theorem base_sendAll {α : Type} (f : α → Instr) (l : List α) :
    (l.foldl (fun s a => s.send (f a)) s).base = s.base := base_foldl s (by simp) l

@[simp] theorem base_takeHalt (v : Bool) : (takeHalt v s).1.base = s.base := by
  unfold takeHalt; repeat' (first | split | simp)

@[simp] theorem base_postRaised (a : Alarm) (c : Nat) (st : AlarmState) (p : Nat) : (s.postRaised a c st p).base = s.base := by
  simp [State.postRaised]

@[simp] theorem base_takeRaise (a : Alarm) : (s.takeRaise a).base = s.base := by
  unfold State.takeRaise; repeat' (first | split | simp)

@[simp] theorem base_takeConditionEnd (a : Alarm) : (s.takeConditionEnd a).base = s.base := by
  unfold State.takeConditionEnd; repeat' (first | split | simp)

@[simp] theorem base_takeAlarmAck (p : Nat) (a : Option Alarm) : (takeAlarmAck p a s).1.base = s.base := by
  unfold takeAlarmAck; repeat' (first | split | simp)

@[simp] theorem base_takeAckAll : (takeAckAll s).1.base = s.base := by
  simp [takeAckAll]

@[simp] theorem base_handed (v : Bool) : (s.onStab (fun b => { b with handed := v })).base = s.base := by
  simp [State.base]

@[simp] theorem base_handRestart (r : Req) : (s.handRestart r).base = s.base := by
  simp [State.handRestart]

end Sys2Proof.Machine
end

