-- ==== Sys2Proof/Laws/Settle.lean ====
section
/-! SUPPORT. The end of a taking (`State.settle`): what it leaves, and what the output lines show after it; and the taking of a
request (`takeRequest`), case by case. -/

namespace Sys2Proof.Machine

/-- The state with its ports and the claims in flight taken out: what the ports' own work cannot change. -/
def State.bare (s : State) : State :=
  { s with claims := [], desk := .powerOn .desk 0, planner := .powerOn .planner 0, line := .powerOn .line 0 }

section

variable (s : State)

@[simp] theorem bare_onPort (p : Port) (f : PortState → PortState) : (s.onPort p f).bare = s.bare := by cases p <;> rfl
@[simp] theorem bare_send (c : Instr) : (s.send c).bare = s.bare := rfl
@[simp] theorem bare_take (c : Instr) : (s.take c).bare = s.bare := rfl
@[simp] theorem bare_raise (a : Alarm) : (s.raise a).bare = s.bare := rfl
@[simp] theorem bare_endAlarm (a : Alarm) : (s.endAlarm a).bare = s.bare := rfl
@[simp] theorem bare_post (g : Group) (k : Nat) (fs : List Field) : (s.post g k fs).bare = s.bare := rfl
@[simp] theorem bare_reply (k : Kind) (r : Req) (a : Ans) : (s.reply k r a).bare = s.bare := by simp [State.reply]

@[simp] theorem bare_takePortOwned (i : Instr) : (takePortOwned i s).1.bare = s.bare := by
  unfold takePortOwned
  split
  · simp [takeStatus]
  · simp [takeSubscribe]
  · simp [takePortReset]
  · unfold takeTableSelect; repeat' (first | split | simp)
  · unfold takeTableNext; repeat' (first | split | simp)
  · rfl

@[simp] theorem bare_handOver (p : Port) : (s.handOver p).bare = s.bare := by
  unfold State.handOver; repeat' (first | split | simp)

@[simp] theorem bare_pump (p : Port) (k : Nat) : (State.pump p k s).bare = s.bare := by
  induction k generalizing s with
  | zero => rfl
  | succ k ih =>
    unfold State.pump
    repeat' (first | split | simp [ih])

/-- The end of a taking changes, ports and claims apart, what `setOutputs` changes. -/
theorem bare_settle : s.settle.bare = s.setOutputs.bare := by simp [State.settle, State.goOn]

/-! ### The output lines -/

@[simp] theorem setHoldSignal_sections (g : Nat) : (s.setHoldSignal g).sections = s.sections := by
  unfold State.setHoldSignal; repeat' (first | split | simp)
@[simp] theorem setHoldSignal_points (g : Nat) : (s.setHoldSignal g).points = s.points := by
  unfold State.setHoldSignal; repeat' (first | split | simp)
@[simp] theorem setHoldSignal_route (g : Nat) : (s.setHoldSignal g).route = s.route := by
  unfold State.setHoldSignal; repeat' (first | split | simp)
@[simp] theorem setHoldSignal_stab (g : Nat) : (s.setHoldSignal g).stab = s.stab := by
  unfold State.setHoldSignal; repeat' (first | split | simp)
@[simp] theorem setHoldSignal_roster (g : Nat) : (s.setHoldSignal g).roster = s.roster := by
  unfold State.setHoldSignal; repeat' (first | split | simp)
@[simp] theorem setHoldSignal_sup (g : Nat) : (s.setHoldSignal g).sup = s.sup := by
  unfold State.setHoldSignal; repeat' (first | split | simp)
@[simp] theorem setHoldSignal_desc (g : Nat) : (s.setHoldSignal g).desc = s.desc := by
  unfold State.setHoldSignal; repeat' (first | split | simp)

/-- R119: a gate with its hold signal set by its held-reason set. -/
def Gate.shown (x : Gate) : Gate := { x with holdProceed := x.held.isEmpty }

/-- R119: the hold signal of one gate is set, and no other gate changes. -/
theorem find_setHoldSignal (g m : Nat) :
    Tbl.find m (s.setHoldSignal g).gates = if m = g then (Tbl.find m s.gates).map Gate.shown else Tbl.find m s.gates := by
  have key : ∀ x, Tbl.find g s.gates = some x → ¬x.held.isEmpty = x.holdProceed →
      (s.setHoldSignal g).gates = Tbl.adjust g Gate.shown s.gates := by
    intro x hf hx
    unfold State.setHoldSignal
    rw [hf]
    dsimp only
    rw [if_neg hx]
    split <;> rfl
  cases hf : Tbl.find g s.gates with
  | none =>
    have e : s.setHoldSignal g = s := by unfold State.setHoldSignal; rw [hf]
    rw [e]
    by_cases h : m = g
    · subst h; simp [hf]
    · simp [h]
  | some x =>
    by_cases hx : x.held.isEmpty = x.holdProceed
    · have e : s.setHoldSignal g = s := by unfold State.setHoldSignal; rw [hf]; simp [hx]
      rw [e]
      by_cases h : m = g
      · subst h; simp [hf, Gate.shown, hx]
      · simp [h]
    · rw [key x hf hx, Tbl.find_adjust]

end

/-- What the aspects read (R71): the route table, the halt flag as the route setter holds it, the points, the catalogue. -/
theorem aspect_congr {s t : State} (hh : t.route.halt = s.route.halt) (ht : t.route.table = s.route.table)
    (hp : t.points = s.points) (hd : t.desc = s.desc) : t.proceedSignals = s.proceedSignals := by
  unfold State.proceedSignals
  congr 1
  funext n
  unfold State.aspect State.pointsStand State.detected State.pointState State.routeDef
  rw [hh, ht, hp, hd]

section

variable (s : State)

/-! ### What the end of a taking leaves -/

@[simp] theorem settle_pending : s.settle.pending = s.pending := congrArg Base.pending (base_settle s)
@[simp] theorem settle_op : s.settle.op = s.op := congrArg Base.op (base_settle s)
@[simp] theorem settle_uptime : s.settle.uptime = s.uptime := congrArg Base.uptime (base_settle s)
@[simp] theorem settle_pins : s.settle.pins = s.pins := congrArg Base.pins (base_settle s)
@[simp] theorem settle_desc : s.settle.desc = s.desc := congrArg Base.desc (base_settle s)
@[simp] theorem settle_inForce : s.settle.inForce = s.inForce := congrArg Base.inForce (base_settle s)
@[simp] theorem settle_sections : s.settle.sections = s.sections :=
  (congrArg State.sections (bare_settle s)).trans (by simp [State.setOutputs, State.bare])
@[simp] theorem settle_points : s.settle.points = s.points :=
  (congrArg State.points (bare_settle s)).trans (by simp [State.setOutputs, State.bare])
@[simp] theorem settle_stab : s.settle.stab = s.stab :=
  (congrArg State.stab (bare_settle s)).trans (by simp [State.setOutputs, State.bare])
@[simp] theorem settle_roster : s.settle.roster = s.roster :=
  (congrArg State.roster (bare_settle s)).trans (by simp [State.setOutputs, State.bare])

/-- R71: the route setter keeps all but its signals, which show the aspects. -/
theorem settle_route : s.settle.route = { s.route with proceed := s.proceedSignals } := by
  have h : s.settle.route = s.setOutputs.route :=
    show s.settle.bare.route = s.setOutputs.bare.route from congrArg State.route (bare_settle s)
  rw [h]
  have e : ((s.setHoldSignal 1).setHoldSignal 2).proceedSignals = s.proceedSignals :=
    aspect_congr (by simp) (by simp) (by simp) (by simp)
  simp [State.setOutputs, e]

@[simp] theorem settle_table : s.settle.route.table = s.route.table := by rw [settle_route]
@[simp] theorem settle_store : s.settle.route.store = s.route.store := by rw [settle_route]
@[simp] theorem settle_routeHalt : s.settle.route.halt = s.route.halt := by rw [settle_route]

/-- R189: supervision keeps all but its alarm output, which is asserted by the alarm list. -/
theorem settle_sup : s.settle.sup = { s.sup with output := s.sup.asserts } := by
  have h : s.settle.sup = s.setOutputs.sup :=
    show s.settle.bare.sup = s.setOutputs.bare.sup from congrArg State.sup (bare_settle s)
  rw [h]
  simp [State.setOutputs]

@[simp] theorem settle_alarms : s.settle.sup.alarms = s.sup.alarms := by rw [settle_sup]
@[simp] theorem settle_halt : s.settle.sup.halt = s.sup.halt := by rw [settle_sup]
@[simp] theorem settle_overflow : s.settle.sup.overflow = s.sup.overflow := by rw [settle_sup]
@[simp] theorem settle_restart : s.settle.sup.restart = s.sup.restart := by rw [settle_sup]

/-- R119: gates 1 and 2 keep all but their hold signals; a gate of any other number, all. -/
theorem find_settle_gates (g : Nat) :
    Tbl.find g s.settle.gates = if g = 1 ∨ g = 2 then (Tbl.find g s.gates).map Gate.shown else Tbl.find g s.gates := by
  have h : s.settle.gates = ((s.setHoldSignal 1).setHoldSignal 2).gates :=
    show s.settle.bare.gates = s.setOutputs.bare.gates from congrArg State.gates (bare_settle s)
  rw [h, find_setHoldSignal, find_setHoldSignal]
  by_cases h2 : g = 2
  · subst h2; simp
  · simp [h2]

/-! ### The taking of a request -/

/-- R171, R2: a request that a check refuses is answered with the reason, and changes nothing else. -/
theorem takeRequest_refused {i : Instr} {k : Kind} {r : Req} {why : Reason} (owner : State → State × Ans)
    (h : (s.take i).portCheck ((s.take i).takenIn k r) k r.port i = some why ∨
      ((s.take i).portCheck ((s.take i).takenIn k r) k r.port i = none ∧ (s.take i).stateCheck k r = some why)) :
    takeRequest i k r s owner = done ((s.take i).reply k r (.refused why)) := by
  unfold takeRequest
  rcases h with h | ⟨h, h'⟩
  · simp [h]
  · simp [h, h']

/-- R171: a request that passes the checks is decided by its owner, whose answer goes to the port. -/
theorem takeRequest_admitted {i : Instr} {k : Kind} {r : Req} (owner : State → State × Ans)
    (h : (s.take i).portCheck ((s.take i).takenIn k r) k r.port i = none) (h' : (s.take i).stateCheck k r = none) :
    takeRequest i k r s owner = done ((owner (s.take i)).1.reply k r (owner (s.take i)).2) := by
  unfold takeRequest
  simp [h, h']

/-- Every taking of a request ends in a state: an answered one of the owner's, or of the state before it. -/
theorem takeRequest_done (i : Instr) (k : Kind) (r : Req) (owner : State → State × Ans) :
    ∃ t a, takeRequest i k r s owner = done (t.reply k r a) ∧ (t = (owner (s.take i)).1 ∨ t = s.take i) := by
  unfold takeRequest
  dsimp only
  split
  · exact ⟨_, _, rfl, .inr rfl⟩
  · split
    · exact ⟨_, _, rfl, .inr rfl⟩
    · exact ⟨_, _, rfl, .inl rfl⟩

end

end Sys2Proof.Machine
end

