-- ==== Sys2Proof/Laws/Ports.lean ====
section
/-! SUPPORT. The ports under the named operations: which leave them, and what a post (R175) and an answer (R172) do to them. -/

namespace Sys2Proof.Machine

section

variable (s : State) (p : Port)

/-! ### Operations that leave the ports -/

@[simp] theorem port_onSection (n : Nat) (f : SectionRec → SectionRec) : (s.onSection n f).port p = s.port p := by cases p <;> rfl
@[simp] theorem port_onPoint (n : Nat) (f : PointRec → PointRec) : (s.onPoint n f).port p = s.port p := by cases p <;> rfl
@[simp] theorem port_onRoute (f : RouteSetter → RouteSetter) : (s.onRoute f).port p = s.port p := by cases p <;> rfl
@[simp] theorem port_onEntry (n : Nat) (f : RouteEntry → RouteEntry) : (s.onEntry n f).port p = s.port p := by cases p <;> rfl
@[simp] theorem port_onGate (n : Nat) (f : Gate → Gate) : (s.onGate n f).port p = s.port p := by cases p <;> rfl
@[simp] theorem port_onStab (f : Stabling → Stabling) : (s.onStab f).port p = s.port p := by cases p <;> rfl
@[simp] theorem port_onSiding (n : Nat) (f : SidingRec → SidingRec) : (s.onSiding n f).port p = s.port p := by cases p <;> rfl
@[simp] theorem port_onShunt (n : Nat) (f : ShuntEntry → ShuntEntry) : (s.onShunt n f).port p = s.port p := by cases p <;> rfl
@[simp] theorem port_onRoster (f : Roster → Roster) : (s.onRoster f).port p = s.port p := by cases p <;> rfl
@[simp] theorem port_onSup (f : Supervision → Supervision) : (s.onSup f).port p = s.port p := by cases p <;> rfl
@[simp] theorem port_onPins (f : Pins → Pins) : (s.onPins f).port p = s.port p := by cases p <;> rfl
@[simp] theorem port_onDesc (f : Description → Description) : (s.onDesc f).port p = s.port p := by cases p <;> rfl
@[simp] theorem port_send (c : Instr) : (s.send c).port p = s.port p := by cases p <;> rfl
@[simp] theorem port_take (c : Instr) : (s.take c).port p = s.port p := by cases p <;> rfl
@[simp] theorem port_raise (a : Alarm) : (s.raise a).port p = s.port p := by cases p <;> rfl
@[simp] theorem port_endAlarm (a : Alarm) : (s.endAlarm a).port p = s.port p := by cases p <;> rfl

/-! ### A post -/

/-- R175: each port copies the notice. -/
@[simp] theorem port_post (g : Group) (k : Nat) (fs : List Field) :
    (s.post g k fs).port p = (s.port p).copyNotice (decide (p = .desk) && decide (g = .alarm)) ⟨g, k, s.minute, fs⟩ := by
  cases p <;> simp [State.post, State.port]

/-! ### An answer -/

/-- R172: the answer goes to the port of its request, and to no other. -/
theorem port_reply (k : Kind) (r : Req) (a : Ans) :
    (s.reply k r a).port p = if p = r.port then PortState.answer (BitVec.ofNat 8 k.code) r.tag a (s.port p) else s.port p := by
  unfold State.reply
  by_cases h : p = r.port
  · subst h; simp
  · simp [h, State.onPort_other _ h]

end

section

variable (q : PortState)

/-! ### What copying a notice leaves of a port -/

@[simp] theorem copyNotice_rate (b : Bool) (n : Notice) : (q.copyNotice b n).rate = q.rate := by
  unfold PortState.copyNotice; repeat' (first | split | rfl)
@[simp] theorem copyNotice_receiver (b : Bool) (n : Notice) : (q.copyNotice b n).receiver = q.receiver := by
  unfold PortState.copyNotice; repeat' (first | split | rfl)
@[simp] theorem copyNotice_queue (b : Bool) (n : Notice) : (q.copyNotice b n).queue = q.queue := by
  unfold PortState.copyNotice; repeat' (first | split | rfl)
@[simp] theorem copyNotice_inHand (b : Bool) (n : Notice) : (q.copyNotice b n).inHand = q.inHand := by
  unfold PortState.copyNotice; repeat' (first | split | rfl)
@[simp] theorem copyNotice_path (b : Bool) (n : Notice) : (q.copyNotice b n).path = q.path := by
  unfold PortState.copyNotice; repeat' (first | split | rfl)
@[simp] theorem copyNotice_sending (b : Bool) (n : Notice) : (q.copyNotice b n).sending = q.sending := by
  unfold PortState.copyNotice; repeat' (first | split | rfl)
@[simp] theorem copyNotice_subscription (b : Bool) (n : Notice) : (q.copyNotice b n).subscription = q.subscription := by
  unfold PortState.copyNotice; repeat' (first | split | rfl)
@[simp] theorem copyNotice_cursor (b : Bool) (n : Notice) : (q.copyNotice b n).cursor = q.cursor := by
  unfold PortState.copyNotice; repeat' (first | split | rfl)
@[simp] theorem copyNotice_lineError (b : Bool) (n : Notice) : (q.copyNotice b n).lineError = q.lineError := by
  unfold PortState.copyNotice; repeat' (first | split | rfl)

/-! ### What an answer leaves of a port -/

@[simp] theorem answer_rate (k t : Byte) (a : Ans) : (q.answer k t a).rate = q.rate := by
  unfold PortState.answer; split <;> rfl
@[simp] theorem answer_receiver (k t : Byte) (a : Ans) : (q.answer k t a).receiver = q.receiver := by
  unfold PortState.answer; split <;> rfl
@[simp] theorem answer_queue (k t : Byte) (a : Ans) : (q.answer k t a).queue = q.queue := by
  unfold PortState.answer; split <;> rfl
@[simp] theorem answer_sending (k t : Byte) (a : Ans) : (q.answer k t a).sending = q.sending := by
  unfold PortState.answer; split <;> rfl
@[simp] theorem answer_subscription (k t : Byte) (a : Ans) : (q.answer k t a).subscription = q.subscription := by
  unfold PortState.answer; split <;> rfl
@[simp] theorem answer_cursor (k t : Byte) (a : Ans) : (q.answer k t a).cursor = q.cursor := by
  unfold PortState.answer; split <;> rfl
@[simp] theorem answer_lineError (k t : Byte) (a : Ans) : (q.answer k t a).lineError = q.lineError := by
  unfold PortState.answer; split <;> rfl
@[simp] theorem answer_notices (k t : Byte) (a : Ans) : (q.answer k t a).notices = q.notices := by
  unfold PortState.answer; split <;> rfl
@[simp] theorem answer_noticesLost (k t : Byte) (a : Ans) : (q.answer k t a).noticesLost = q.noticesLost := by
  unfold PortState.answer; split <;> rfl

theorem awaits_eq (k t : Byte) :
    q.awaits k t = q.inHand.any (fun h => decide (h.kind = k) && decide (h.tag = t) && !h.answered) := by
  unfold PortState.awaits
  cases q.inHand <;> rfl

/-- R172, R179: the answer stands at the young end of the path, with the KIND and TAG of its request, and is the request in
hand's own where that request is this one. -/
theorem answer_path (k t : Byte) (a : Ans) :
    (q.answer k t a).path =
      q.path ++ [⟨k, t, a, false, q.awaits k t, q.awaits k t && q.inHand.any InHand.dropped⟩] := by
  unfold PortState.answer
  cases h : q.awaits k t
  · simp
  · cases hq : q.inHand <;> simp [Option.any]

/-- R171: an answer marks the request in hand as answered where it is that request's. -/
theorem answer_inHand (k t : Byte) (a : Ans) :
    (q.answer k t a).inHand = if q.awaits k t then q.inHand.map (fun h => { h with answered := true }) else q.inHand := by
  unfold PortState.answer
  split <;> simp_all

end

end Sys2Proof.Machine
end

