-- ==== Sys2Proof/Laws/Effect.lean ====
section
/-! SUPPORT. The words of a taking (`Put`, `Del`, `Effect` of Safety.lean): what the table operations and an answer do in those
words, and the taking of a request that its checks admit. -/

namespace Sys2Proof.Machine

/-! ## Tables -/

theorem put_put {α : Type} {n : Nat} {a : α} {t : Tbl α} : Put n a t (Tbl.put n a t) := fun m => Tbl.find_put n m a t

theorem del_del {α : Type} {n : Nat} {t : Tbl α} : Del n t (Tbl.del n t) := fun m => Tbl.find_del n m t

/-- A change of the record held under a number puts the changed record there. -/
theorem put_adjust {α : Type} {n : Nat} {a b : α} {f : α → α} {t : Tbl α} (h : Tbl.find n t = some a) (hb : f a = b) :
    Put n b t (Tbl.adjust n f t) := by
  intro m
  rw [Tbl.find_adjust]
  by_cases e : m = n
  · subst e; simp [h, hb]
  · simp [e]

/-- Two changes in a row of one record. -/
theorem put_adjust_adjust {α : Type} {n : Nat} {a b : α} {f g : α → α} {t : Tbl α} (h : Tbl.find n t = some a)
    (hb : g (f a) = b) : Put n b t (Tbl.adjust n g (Tbl.adjust n f t)) := by
  intro m
  simp only [Tbl.find_adjust]
  by_cases e : m = n
  · subst e; simp [h, hb]
  · simp [e]

/-- A table that is left alone holds what it held. -/
theorem put_same {α : Type} {n : Nat} {a : α} {t : Tbl α} (h : Tbl.find n t = some a) : Put n a t t := by
  intro m
  by_cases e : m = n
  · subst e; simp [h]
  · simp [e]

/-! ## Ports, apart from answers and notices -/

@[simp] theorem aside_copyNotice (q : PortState) (b : Bool) (n : Notice) : (q.copyNotice b n).aside = q.aside := by
  simp [PortState.aside]

@[simp] theorem aside_answer (q : PortState) (k t : Byte) (a : Ans) : (q.answer k t a).aside = q.aside := by
  simp [PortState.aside]

theorem aside_reply (s : State) (k : Kind) (r : Req) (a : Ans) (p : Port) :
    ((s.reply k r a).port p).aside = (s.port p).aside := by
  rw [port_reply]; split <;> simp

/-! ## Effects -/

/-- Nothing happens. -/
theorem effect_none (s : State) (changed : List Part) : Effect changed s.claims id none s s :=
  ⟨⟨rfl, rfl, fun x _ => by cases x <;> simp [Part.same]⟩, rfl, fun _ => ⟨rfl, rfl⟩, fun _ => ⟨rfl, rfl⟩⟩

/-- An answer (R172) after a taking that formed none. -/
theorem effect_reply {changed : List Part} {claims : List Instr} {posts : State → State} {s t : State} (k : Kind) (r : Req)
    (a : Ans) (h : Effect changed claims posts none s t) :
    Effect changed claims posts (some (k, r, a)) s (t.reply k r a) := by
  obtain ⟨h, hc, hn, ha⟩ := h
  refine ⟨⟨by simp [h.1], by simp [h.2.1], ?_⟩, by simp [hc], ?_, ?_⟩
  · intro x hx
    have := h.2.2 x hx
    cases x <;> simp_all [Part.same, aside_reply]
  · intro p
    have := hn p
    rw [port_reply]; split <;> simp_all
  · have hp := ha r.port
    have own : (t.port r.port).awaits (BitVec.ofNat 8 k.code) r.tag = (s.port r.port).inHand.any (InHand.isFor k r) := by
      rw [awaits_eq, hp.2]; rfl
    refine ⟨?_, ?_, ?_⟩
    · rw [port_reply, if_pos rfl, answer_path, own, hp.1, hp.2]
    · rw [port_reply, if_pos rfl, answer_inHand, own, hp.2]
    · intro p hq
      unfold NoAnswerAt
      rw [port_reply, if_neg hq]
      exact ha p

/-- A claim leaves the claims in flight. -/
theorem effect_take (s : State) (c : Instr) (changed : List Part) : Effect changed (s.claims.erase c) id none s (s.take c) :=
  ⟨⟨rfl, rfl, fun x _ => by cases x <;> simp [Part.same]⟩, rfl, fun _ => by simp, fun _ => ⟨by simp, by simp⟩⟩

/-- A request that is answered and changes nothing. -/
theorem effect_answer (s : State) (c : Instr) (k : Kind) (r : Req) (a : Ans) (changed : List Part) :
    Effect changed (s.claims.erase c) id (some (k, r, a)) s ((s.take c).reply k r a) := effect_reply k r a (effect_take s c changed)

/-! ## Requests that the checks admit -/

/-- R14: a request taken in RUN. -/
theorem takenIn_run (k : Kind) {q : Req} {s : State} (h : InRun q s) : s.takenIn k q = .run := by
  obtain ⟨ho, ha⟩ := h
  unfold State.takenIn
  rw [ho]
  cases hq : (s.port q.port).inHand with
  | none => rfl
  | some x =>
    rw [hq] at ha
    simp only [awaits_eq, hq, Option.any_some]
    simp only [Option.all_some, Bool.or_eq_true, decide_eq_true_eq] at ha
    by_cases hx : (decide (x.kind = BitVec.ofNat 8 k.code) && decide (x.tag = q.tag) && !x.answered) = true
    · simp only [hx, if_true]
      simp only [Bool.and_eq_true, decide_eq_true_eq, Bool.not_eq_true'] at hx
      simpa [hx.1.2, hx.2] using ha
    · simp only [hx]; simp

@[simp] theorem takenIn_take (s : State) (c : Instr) (k : Kind) (q : Req) : (s.take c).takenIn k q = s.takenIn k q := by
  simp [State.takenIn]

/-- In RUN, a request but a definition record: permitted, its codes given, naming no gate. -/
theorem takeRequest_run {k : Kind} {q : Req} {i : Instr} {s : State} (hk : k.permits q.port = true) (hc : i.codesOk = true)
    (hg : i.gateNamed = none) (ho : InRun q s) (hl : k.loads = false) (owner : State → State × Ans) :
    takeRequest i k q s owner = done ((owner (s.take i)).1.reply k q (owner (s.take i)).2) := by
  apply takeRequest_admitted
  · simp [State.portCheck, hk, hc, hg]
  · simp [State.stateCheck, takenIn_run k ho, hl]

/-- In CONFIG, a definition record or a commit: permitted, its codes given. -/
theorem takeRequest_config {k : Kind} {q : Req} {i : Instr} {s : State} (hk : k.permits q.port = true)
    (hc : i.codesOk = true) (hg : i.gateNamed = none) (ho : s.op = .config) (hl : k.loads = true)
    (owner : State → State × Ans) :
    takeRequest i k q s owner = done ((owner (s.take i)).1.reply k q (owner (s.take i)).2) := by
  apply takeRequest_admitted
  · simp [State.portCheck, hk, hc, hg]
  · simp [State.stateCheck, ho, hl]

end Sys2Proof.Machine
end

