-- ==== Sys2Proof/Tests/Slice0.lean ====
section
/-! SUPPORT. The model's own tests: ill-formed commands, the CRC and the ROUTE_DEF layout, single takings on a small depot, and
for each statement with hypotheses a state and operands that meet them. -/

namespace Sys2Proof.Tests

set_option Elab.async false

open Sys2Proof.Machine

/-! ## A small depot: one gate, two sidings, one head shunt, six routes across one ladder section -/

/-- Its description. -/
def depot : Description where
  sections := [(1, ⟨.reader, some 1, none, .both⟩), (2, ⟨.approach, some 1, none, .none⟩), (3, ⟨.ladder, none, none, .both⟩),
    (4, ⟨.mouth, none, some 1, .none⟩), (5, ⟨.body, none, some 1, .none⟩), (6, ⟨.mouth, none, some 2, .none⟩),
    (7, ⟨.body, none, some 2, .none⟩), (8, ⟨.gateOut, some 1, none, .none⟩), (9, ⟨.headShunt, none, none, .none⟩),
    (10, ⟨.ladder, none, none, .none⟩), (64, ⟨.ladder, none, none, .occupy⟩)]
  points := [(1, ⟨some 3, 6⟩), (32, ⟨some 10, 6⟩)]
  sidings := [(1, ⟨4, 5, 100, ⟨true, false, false, false⟩⟩), (2, ⟨6, 7, 100, ⟨false, true, false, false⟩⟩)]
  gates := [(1, ⟨1, 1, [2], 8⟩)]
  headShunts := [(1, 9)]
  routes := [
    (1, ⟨.arrival, 1, some 1, some 1, some 2, some 5, [⟨3, [⟨1, .normal⟩]⟩, ⟨4, []⟩], []⟩),
    (2, ⟨.arrival, 1, some 1, some 2, some 2, some 7, [⟨3, [⟨1, .reverse⟩]⟩, ⟨6, []⟩], []⟩),
    (3, ⟨.departure, 2, some 1, some 1, none, none, [⟨4, []⟩, ⟨3, [⟨1, .normal⟩]⟩, ⟨8, []⟩], []⟩),
    (4, ⟨.shuntOut, 3, some 1, some 1, none, some 9, [⟨4, []⟩, ⟨3, [⟨1, .normal⟩]⟩], []⟩),
    (5, ⟨.shuntIn, 4, some 1, some 2, none, some 7, [⟨3, [⟨1, .reverse⟩]⟩, ⟨6, []⟩], []⟩),
    (6, ⟨.yard, 5, none, none, some 64, none, [⟨10, []⟩, ⟨3, [⟨1, .normal⟩]⟩], [⟨32, .normal, 1⟩]⟩)]
  params := none

/-- The lines with every section free and both points detected NORMAL. -/
def lines : Pins := ⟨List.replicate 64 .free, List.replicate 32 .detecting, List.replicate 32 .notDetecting⟩

/-- The depot loaded, in CONFIG. -/
def loaded : State := { State.reset with pins := lines, desc := depot }

/-- The depot in RUN. -/
def yard : State := loaded.enterRun

/-- A request of the desk, of the planner, of the line. -/
def desk : Req := ⟨.desk, 7⟩
def planner : Req := ⟨.planner, 7⟩
def line : Req := ⟨.line, 7⟩

/-- A stabled tram of 30 m. -/
def tram (f : Nat) : StackRec := ⟨f, 30, ⟨false, false, false, false⟩, ⟨false, false, false, false⟩, .stabled, false, some 100, none, false⟩

/-- The depot with trams 11 and 12 in siding 1 and both censuses KNOWN. -/
def stabled : State :=
  (yard.onSiding 1 (fun r => { r with census := .known, stack := [tram 11, tram 12] })).onSiding 2
    (fun r => { r with census := .known })

/-- A table entry of a route. -/
def entry (route : Nat) (kind : RouteKind) (state : RouteState) (front : Nat) (p : Purpose) : RouteEntry :=
  ⟨route, kind, .desk, state, none, front, 0, ⟨false, false, false⟩, [], [], none, p⟩

/-- A state with a route of the depot in slot 1: its sections reserved, its points locked. -/
def holding (s : State) (e : RouteEntry) : State :=
  match s.routeDef e.route with
  | some d =>
    { s with
      sections := s.sections.map (fun p => if d.sections.contains p.1 then (p.1, { p.2 with reservedBy := some 1 }) else p)
      points := s.points.map (fun p =>
        if (d.points.map Prod.fst).contains p.1 then (p.1, { p.2 with lock := some 1, commanded := some .normal }) else p)
      route := { s.route with table := [(1, e)] } }
  | none => s

/-- An arrival record of a tram. -/
def waiting (f : Nat) : Arrival :=
  ⟨some f, none, some 30, some ⟨false, false, false, false⟩, some ⟨false, false, false, false⟩, .none, .waiting, none, none, false,
   none, false⟩

/-- What a command leaves, read by a test. -/
def after (c : Instr) (s : State) (p : State → Bool) : Bool :=
  match exec c s with
  | .next t => p t
  | _ => false

/-! ## Commands that cannot come about (WellFormed) -/

theorem test_wf_numbers : [Instr.sectionQuery desk 256, .sectionForceOn desk 256, .pointBlock desk 256, .routeSet desk 256,
    .gateHold desk 256, .sidingDoubt desk 256, .shuntCancel desk 256, .tableSelect desk 1 256 1,
    .sectionDef planner 256 1 none none 0, .pointDef planner 1 none 256, .headshuntDef planner 1 256,
    .arrivalDiscard desk 1 256, .shuntRetarget desk 1 256].all (fun c => !c.wf) = true := by decide

theorem test_wf_wide_numbers : [Instr.sidingDef planner 1 1 1 65536 0, .clockSet planner 65536, .rosterRemove planner 65536,
    .shunt desk 65536 1, .arrivalAdd desk 1 65536 30 0 0, .arrivalIdentify desk 1 1 65536 30 0 0,
    .rosterAdd planner 65536 0 1 none none, .censusSet planner 1 [⟨65536, 30, 0, 0⟩]].all (fun c => !c.wf) = true := by decide

theorem test_wf_optional : [Instr.sectionDef planner 1 1 (some 0) none 0, .pointDef planner 1 (some 0) 6,
    .rosterAdd planner 1 0 1 (some 65535) none, .rosterAdd planner 1 0 1 none (some 0), .depart desk none none (some 0),
    .depart desk (some 65535) none none].all (fun c => !c.wf) = true := by decide

theorem test_wf_lines : [Instr.occupancyInputChange 0 .free, .confirmationTimerExpiry 65, .detectionChange 33 .broken .broken,
    .throwTimerExpiry 0, .readerOccupyEdge 3 .input, .inboundFrame 0 [], .stackingReport 3 ⟨.restart, none, 0, 0⟩,
    .timeReleaseExpiry 17, .withheldReply 1 33, .storeTimerExpiry 129, .gateRestart 3,
    .pointStateReport ⟨0, .lost, .normal, .normal, .detection⟩,
    .rosterDepartureEvent ⟨.proceed, none, 129, .departure, .desk, .none, none⟩].all (fun c => !c.wf) = true := by decide

theorem test_wf_lists : [Instr.gateDef planner 1 1 1 [] 8, .gateDef planner 1 1 1 [2, 2, 2, 2, 2] 8,
    .routeDef planner [1, 5, 1, 0, 0, 0, 0, 1], .routeDef planner (List.replicate 57 5),
    .censusSet planner 1 (List.replicate 13 ⟨1, 30, 0, 0⟩),
    .yardParams planner ⟨some 65536, none, none, none, none, none, none, none, none, none, none, none, none, none⟩].all
    (fun c => !c.wf) = true := by decide

theorem test_wf_codes : [Instr.subscribe desk 128, .tableSelect desk 11 0 1, .tableSelect desk 0 0 1,
    .sectionDef planner 1 8 none none 0, .sectionDef planner 1 1 none none 5, .sidingDef planner 1 4 5 100 16,
    .routeDef planner [1, 6, 1, 0, 0, 0, 0, 1, 10], .pointThrow desk 1 3, .sidingAbilities planner 1 16,
    .rosterAuto planner 1 3, .alarmAck desk 1 11 1 none, .arrivalAdd desk 1 5 30 16 0,
    .yardParams planner ⟨none, none, none, none, none, none, none, none, none, none, none, none, none, some 3⟩,
    .arrivalIdentify desk 1 1 5 30 0 16, .censusSet planner 1 [⟨1, 30, 16, 0⟩]].all (fun c => !c.wf) = true := by decide

theorem test_wf_accepts : [Instr.powerOnReset ⟨0, 0, 0⟩, .sectionDef planner 64 7 none (some 24) 4, .pointThrow desk 32 2,
    .occupancyInputChange 64 .short, .routeDef planner [1, 5, 1, 0, 0, 0, 0, 1, 10], .depart line none (some 4095) (some 2),
    .alarmAck desk 1 6 128 (some 64)].all Instr.wf = true := by decide

/-! ## The line (R168, 09 section 9.7) -/

/-- R168: the nine ASCII characters "123456789" give 0x29B1. -/
theorem test_crc : crc16 [0x31, 0x32, 0x33, 0x34, 0x35, 0x36, 0x37, 0x38, 0x39] = 0x29B1 := by decide +kernel

/-- The ROUTE_DEF payload of the depot's YARD route, byte by byte. -/
theorem test_route_layout : decodeRouteDef [6, 5, 5, 0, 0, 64, 0, 0x12, 10, 3, 0x80, 0x9F, 1] =
    (Tbl.find 6 depot.routes).map (fun d => (6, d)) := by decide

/-- A fourth setting byte, a setting byte before a section byte, and a byte too many are malformed (R10, R180). -/
theorem test_route_malformed : [[6, 5, 5, 0, 0, 64, 0, 0x01, 10, 0x80, 0x81, 0x82, 0x83], [6, 5, 5, 0, 0, 64, 0, 0x01, 0x80, 10],
    [6, 5, 5, 0, 0, 64, 0, 0x01, 10, 3], [6, 6, 5, 0, 0, 64, 0, 0x01, 10]].all
    (fun p => (decodeRouteDef (p.map (BitVec.ofNat 8))).isNone) = true := by decide

/-! ## Single takings -/

theorem test_depot_commits : depot.commitFault = none := by decide +kernel

theorem test_commit : after (.configCommit planner) loaded (fun t =>
    t.op = .run ∧ t.gates.all (fun p => p.2.held.restart) ∧ t.planner.sending.isSome) = true := by decide +kernel

theorem test_occupy_input : after (.occupancyInputChange 3 .openCircuit) yard (fun t =>
    (Tbl.find 3 t.sections).any (fun r => r.pending = some ⟨.occupied, 300⟩)) = true := by decide +kernel

theorem test_broken_input_ignored : after (.occupancyInputChange 11 .short) yard (fun t =>
    t.sections = yard.sections ∧ t.claims = []) = true := by decide +kernel

/-- The depot with section 3 about to be confirmed OCCUPIED. -/
def occupying : State := yard.onSection 3 (fun r => { r with level := .occupied, pending := some ⟨.occupied, 0⟩ })

theorem test_confirmation : after (.confirmationTimerExpiry 3) occupying (fun t =>
    t.isOccupied 3 ∧ t.claims = [.routeOccupyEdge 3 .input, .alarmRaise (.unroutedOccupancy 3)] ∧
    t.desk.sending = some (.notice ⟨.sect, 1, none, [.u8 3, .u8 2, .u8 1, .u8 0]⟩)) = true := by decide +kernel

theorem test_force_on : after (.sectionForceOn desk 3) yard (fun t =>
    t.isForced 3 ∧ t.isOccupied 3 ∧ t.claims.getLast? = some (.forceFlagReport 3 true) ∧
    t.desk.sending = some (.answer ⟨0x10, 7, ⟨.done, none, []⟩, false, false, false⟩)) = true := by decide +kernel

theorem test_detection_lost : after (.detectionChange 1 .broken .notDetecting) yard (fun t =>
    t.pointState 1 = some .lost ∧ t.claims.length = 1) = true := by decide +kernel

theorem test_throw : after (.pointThrow desk 1 2) yard (fun t =>
    (Tbl.find 1 t.points).any (fun r => r.state = .moving ∧ r.drive = some .reverse ∧ r.throwTimer = some 6000)) = true := by
  decide +kernel

theorem test_throw_detected : after (.pointThrow desk 1 1) yard (fun t =>
    t.pointState 1 = some .normal ∧ t.desk.sending = some (.answer ⟨0x12, 7, ⟨.done, none, []⟩, false, false, false⟩)) = true := by
  decide +kernel

theorem test_route_set : after (.routeSet desk 6) yard (fun t =>
    t.route.proceed = [5] ∧ t.reservedBy 10 = some 1 ∧ t.reservedBy 3 = some 1 ∧
    (Tbl.find 32 t.points).bind PointRec.lock = some 1) = true := by decide +kernel

theorem test_route_not_permitted : after (.routeSet desk 1) yard (fun t => t.route = yard.route ∧
    t.desk.sending = some (.answer ⟨0x18, 7, ⟨.refused, some .notPermitted, []⟩, false, false, false⟩)) = true := by decide +kernel

/-- The depot with its YARD route set to PROCEED. -/
def proceeding : State := holding yard (entry 6 .yard .proceed 0 .none)

theorem test_tram_enters : after (.routeOccupyEdge 10 .input) proceeding (fun t =>
    (Tbl.find 1 t.route.table).any (fun e => e.state = .occupied ∧ e.front = 1) ∧ t.route.proceed = []) = true := by decide +kernel

theorem test_cancel_near : after (.routeCancel desk 6) (proceeding.onSection 64 (fun r => { r with confirmed := .occupied }))
    (fun t => (Tbl.find 1 t.route.table).any (fun e => e.state = .timeRelease ∧ e.timer = some 45000)) = true := by decide +kernel

theorem test_halt_stops_signals : after (.routeHaltReport true) proceeding (fun t => t.route.proceed = []) = true := by
  decide +kernel

theorem test_window_opens : after (.readerOccupyEdge 1 .input) yard (fun t =>
    (Tbl.find 1 t.gates).any (fun x => x.window = .wait ∧ x.waitTimer = some 2000)) = true := by decide +kernel

/-- An inbound frame of tram 25, 30 m, toggle 1, that needs COVERED. -/
def frame25 : TagBytes := ⟨1, 0, 25, 30, 1, 0, 0xC8, 0x33⟩

theorem test_frame_crc : crc16 [1, 0, 25, 30, 1, 0] = frame25.crcHigh ++ frame25.crcLow := by decide +kernel

theorem test_frame_read : after (.inboundFrame 1 (0x5A :: frame25.bytes)) (yard.onGate 1 (fun x => { x with window := .wait }))
    (fun t => (Tbl.find 1 t.gates).any (fun x => x.queue.map Arrival.fleet = [some 25] ∧ x.window = .read)) = true := by
  decide +kernel

theorem test_release_opens_gate : after (.gateRelease desk 1) yard (fun t =>
    (Tbl.find 1 t.gates).any (fun x => x.held.isEmpty ∧ x.holdProceed)) = true := by decide +kernel

theorem test_allocation : after (.arrivalAdd desk 1 25 30 1 0) stabled (fun t =>
    (Tbl.find 1 t.stab.sidings).any (fun r => r.stack.length = 3 ∧ r.stack.getLast?.any (fun x => x.fleet = 25 ∧ x.state = .reserved))
    ∧ t.route.proceed = [1]) = true := by decide +kernel

theorem test_census : after (.censusSet planner 2 [⟨31, 40, 0, 0⟩]) (yard.onSection 7 (fun r => { r with confirmed := .occupied }))
    (fun t => (Tbl.find 2 t.stab.sidings).any (fun r => r.census = .known ∧ r.stack.map StackRec.fleet = [31]) ∧
      t.claims = [.stackingReport 1 ⟨.census, none, 58, 0⟩]) = true := by decide +kernel

theorem test_shunt : after (.shunt planner 12 2) stabled (fun t =>
    (Tbl.find 1 t.stab.shunts).any (fun e => e.fleet = 12 ∧ e.phase = .outWait) ∧ t.route.proceed = [3] ∧
    t.planner.sending = some (.answer ⟨0x2F, 7, ⟨.accepted, none, [.u8 1, .u8 1]⟩, false, false, false⟩)) = true := by
  decide +kernel

theorem test_shunt_blocked : after (.shunt planner 11 2) stabled (fun t =>
    t.planner.sending = some (.answer ⟨0x2F, 7, ⟨.refused, some .blocked, [.u8 1, .u16 12]⟩, false, false, false⟩)) = true := by
  decide +kernel

theorem test_clock : after (.clockSet planner 600) yard (fun t =>
    t.minute = some 600 ∧ t.roster.minuteTimer = some 60000) = true := by decide +kernel

theorem test_depart : after (.depart line none (some 12) (some 1)) stabled (fun t =>
    t.roster.fleetDepartures = [⟨12, 1, 1, 3, .line, some 1, .called⟩] ∧ t.route.proceed = [2]) = true := by decide +kernel

theorem test_last_minute : after .minuteTimerExpiry (yard.onRoster (fun r => { r with clock := some 2879 })) (fun t =>
    t.minute = some 2879) = true := by decide +kernel

theorem test_halt : after (.halt desk) yard (fun t => t.sup.halt ∧
    t.claims = [.routeHaltReport true, .gateHaltReport 1 true, .rosterHaltReport true]) = true := by decide +kernel

theorem test_restart_reported : after (.restartTakenReport .roster)
    (yard.onSup (fun v => { v with restart := some ⟨[.roster], desk⟩ })) (fun t => t.sup.restart = none ∧
      t.desk.sending = some (.answer ⟨0x3C, 7, ⟨.done, none, []⟩, false, false, false⟩)) = true := by decide +kernel

theorem test_alarm_output : after (.alarmRaise (.gateOverrun 1)) yard (fun t => t.sup.output ∧ t.sup.alarms.length = 1) = true := by
  decide +kernel

/-- A STATUS request frame with TAG 9, on the line. -/
theorem test_status_frame : after (.controlFrame .line (frameChars (frameBytes [0x01, 9]))) yard (fun t =>
    t.line.sending.any (fun o => match o with | .answer a => a.kind = 1 ∧ a.tag = 9 ∧ a.ans.status = .done | _ => false)) = true := by
  decide +kernel

theorem test_break : after (.lineBreak .desk) (yard.onPort .desk (fun q => { q with
    receiver := .frame [2], queue := [⟨1, 2, []⟩], inHand := some ⟨1, 1, .run, false, false⟩ })) (fun t => t.desk.receiver = .hunt ∧ t.desk.queue = []) = true := by decide +kernel

/-- What a step leaves, read by a test. -/
def stepped (s : State) (p : State → Bool) : Bool :=
  match step s with
  | .next t => p t
  | _ => false

theorem test_step_takes_claims : stepped { yard with claims := [.routeRestart] }
    (fun t => t.claims = [.restartTakenReport .route]) = true := by decide +kernel

/-- R14: a request that its port handed on in CONFIG is taken as in CONFIG. -/
theorem test_handed_on_in_config : after (.halt desk) { (yard.onPort .desk (fun q => { q with
    inHand := some ⟨0x3A, 7, .config, false, false⟩ })) with claims := [.halt desk] } (fun t => t.sup.halt = false ∧
      t.desk.sending = some (.answer ⟨0x3A, 7, ⟨.refused, some .wrongState, []⟩, false, true, false⟩)) = true := by decide +kernel

/-- R167, R168: a framing error, and a LENGTH out of its bounds, discard the frame. -/
theorem test_frame_discarded :
    after (.controlFrame .desk [⟨0xA5, true⟩, ⟨3, true⟩, ⟨1, false⟩]) yard (fun t => t.desk.lineError ∧ t.desk.receiver = .hunt) ∧
    after (.controlFrame .desk [⟨0xA5, true⟩, ⟨59, true⟩]) yard (fun t => t.desk.lineError ∧ t.desk.receiver = .hunt) ∧
    after (.controlFrame .desk [⟨0xA5, true⟩, ⟨58, true⟩]) yard (fun t => !t.desk.lineError ∧ t.desk.receiver = .frame [58]) := by
  decide +kernel

/-- R179: a PORT_RESET in hand is answered by the first frame after the reset. -/
theorem test_port_reset_in_hand : after (.portReset desk) (yard.onPort .desk (fun q => { q with
    inHand := some ⟨0x03, 7, .run, false, false⟩ })) (fun t =>
      t.desk.sending = some (.answer ⟨0x03, 7, ⟨.done, none, []⟩, false, true, false⟩)) = true := by decide +kernel

theorem test_step_ticks : stepped yard (fun t => t.uptime = 1) = true := by decide +kernel

theorem test_step_front : stepped { yard with pending := [.haltRelease desk, .halt desk] } (fun t =>
    t.pending = [.halt desk]) = true := by decide +kernel

/-! ## States and operands that meet the statements' hypotheses -/

theorem test_witness_InRun : InRun desk yard ∧ InRun planner yard ∧ InRun line yard ∧
    InRun desk (yard.onPort .desk (fun q => { q with inHand := some ⟨0x10, 7, .run, false, false⟩ })) :=
  ⟨⟨rfl, rfl⟩, ⟨rfl, rfl⟩, ⟨rfl, rfl⟩, rfl, rfl⟩

/-! ### Occupancy monitor and point controller -/

theorem test_witness_OccupancyInputs :
    (Tbl.find 1 yard.sections).isSome ∧ (Tbl.find 64 yard.sections).isSome ∧
    (Tbl.find 3 occupying.sections).any (fun r => r.pending.isSome ∧ r.confirmed = .clear) ∧
    Tbl.find 11 yard.sections = none ∧ Tbl.find 2 yard.points = none ∧ Tbl.find 2 yard.gates = none := by decide +kernel

theorem test_witness_ConfirmationMakesAnEdge :
    (Tbl.find 3 occupying.sections).any (fun r => r.pending = some ⟨.occupied, 0⟩) ∧
    (Tbl.find 64 (yard.onSection 64 (fun r => { r with pending := some ⟨.clear, 0⟩ })).sections).any (fun r =>
      r.pending = some ⟨.clear, 0⟩) := by decide +kernel

theorem test_witness_SectionForce : desk.port = .desk ∧ yard.op = .run ∧ (Tbl.find 1 yard.sections).isSome ∧
    (Tbl.find 64 yard.sections).isSome ∧
    (Tbl.find 64 (yard.onSection 64 (fun r => { r with forced := true })).sections).any (fun r =>
      r.forced ∧ r.level = .clear) := by decide +kernel

theorem test_witness_SectionQueryAndRestart : desk.port = .desk ∧ yard.op = .run ∧ (Tbl.find 1 yard.sections).isSome ∧
    (Tbl.find 64 yard.sections).isSome := by decide +kernel

/-- The depot with points 1 and 32 in a state. -/
def pointsIn (st : PointState) : State :=
  (yard.onPoint 1 (fun r => { r with state := st })).onPoint 32 (fun r => { r with state := st })

theorem test_witness_DetectionAndThrowTimers : (Tbl.find 1 yard.points).isSome ∧ (Tbl.find 32 yard.points).isSome ∧
    (Tbl.find 1 (pointsIn .moving).points).any (fun r => r.state = .moving) ∧
    (Tbl.find 32 (pointsIn .failed).points).any (fun r => r.state = .failed) := by decide +kernel

theorem test_witness_DetectionIsReadAsItArrives : (Tbl.find 1 yard.points).isSome ∧ (Tbl.find 32 yard.points).isSome ∧
    readingOf .detecting .broken = .normal ∧ readingOf .broken .detecting = .reverse ∧
    readingOf .broken .notDetecting = .none ∧ readingOf .detecting .detecting = .both := by decide +kernel

theorem test_witness_PointThrowRows : desk.port = .desk ∧ yard.op = .run ∧ (Tbl.find 1 yard.points).isSome ∧
    (Tbl.find 32 yard.points).isSome := by decide +kernel

theorem test_witness_PointRequestsAndRestart : desk.port = .desk ∧ yard.op = .run ∧ (Tbl.find 32 yard.points).isSome ∧
    (Tbl.find 1 (pointsIn .outOfService).points).any (fun r => r.state = .outOfService) ∧ Tbl.wf yard.points := by
  unfold Tbl.wf
  decide +kernel

/-! ### Route setter -/

/-- A stored request of the depot's YARD route. -/
def stored6 : StoreEntry := ⟨6, .planner, .none, none, 180000⟩

/-- A state with a store. -/
def storing (l : List StoreEntry) : State := yard.onRoute (fun r => { r with store := l })

/-- The depot with section 10 occupied, so that its YARD route is not available. -/
def busy : State := yard.onSection 10 (fun r => { r with confirmed := .occupied })

theorem test_witness_RouteSetRefusedOrStored : desk.port = .desk ∧ yard.op = .run ∧
    Tbl.find 7 yard.desc.routes = none ∧ (Tbl.find 1 yard.desc.routes).any (fun d => d.kind ≠ .yard) ∧
    (Tbl.find 6 yard.desc.routes).any (fun d => d.kind = .yard ∧
      (yard.onSection 10 (fun r => { r with forced := true })).unavailableObject d = some (.sect 10) ∧
      (pointsIn .outOfService).unavailableObject d = some (.point 1) ∧
      busy.unavailableObject d = none ∧ busy.available d [] = false ∧ busy.route.store.length < 8) ∧
    proceeding.slotOf 6 = some 1 ∧ (storing [stored6]).storePosition 6 = some 1 ∧
    (storing (List.replicate 8 { stored6 with route := 1 })).route.store.length = 8 := by decide +kernel

theorem test_witness_AvailableRouteTakesASlot : desk.port = .desk ∧ yard.op = .run ∧
    (Tbl.find 6 yard.desc.routes).any (fun d => d.kind = .yard ∧ (routePoints d).Nodup ∧ yard.unavailableObject d = none ∧
      yard.available d yard.route.store) ∧
    yard.slotOf 6 = none ∧ yard.storePosition 6 = none ∧ yard.freeSlot = some 1 := by decide +kernel

/-- Routes that take a slot with a point to throw, to turn round, under way, and withheld, and one that is stored. -/
theorem test_witness_taken_points : (Tbl.find 6 yard.desc.routes).any (fun d =>
    [(PointState.reverse, none, false, some PointCause.throwStart), (.moving, some Position.reverse, false, some .reversal),
      (.moving, some .normal, false, none), (.reverse, none, true, none), (.normal, none, false, none)].all (fun x =>
      let s := (yard.onPoint 32 (fun r => { r with state := x.1, drive := x.2.1, sect := 64 })).onSection 64 (fun r =>
        { r with confirmed := if x.2.2.1 then .occupied else .clear })
      slotTaken d s = some 1 && (Tbl.find 32 s.points).any (fun r => (takenPoint 1 .normal r s).2 = x.2.2.2)) &&
    slotTaken d busy = none && requestRefusal 6 d busy = none) = true := by decide +kernel

/-- The depot with its YARD route in slot 1, in a state, the tram so far on it. -/
def inState (st : RouteState) (front : Nat) : State := holding yard (entry 6 .yard st front .none)

/-- What the statements about a table entry ask: it stands in slot 1 under its catalogue route. -/
def standsIn (s : State) : Bool :=
  match s.active 6 with
  | some (slot, e) => slot = 1 && Tbl.find 1 s.route.table = some e && e.route = 6 && (Tbl.find 6 s.desc.routes).isSome &&
      decide (s.route.store = [])
  | none => false

theorem test_witness_RouteCancel : desk.port = .desk ∧ yard.op = .run ∧ standsIn (inState .setting 0) ∧
    standsIn (inState .proceed 0) ∧ standsIn (inState .occupied 1) ∧ standsIn (inState .degraded 0) ∧
    standsIn (inState .timeRelease 0) ∧
    (Tbl.find 6 yard.desc.routes).any (fun d => d.approach.any (fun a => !(yard.onSection 64 (fun r =>
      { r with confirmed := .occupied })).isClear a)) ∧
    (Tbl.find 6 yard.desc.routes).isSome ∧ yard.active 6 = none ∧ yard.stored 6 = none ∧
    (storing [stored6]).active 6 = none ∧ (storing [stored6]).stored 6 = some stored6 := by decide +kernel

theorem test_witness_who_may_cancel : mayCancel .desk .line ∧ mayCancel .planner .planner ∧ mayCancel .line .line ∧
    mayCancel .planner .desk = false ∧ mayCancel .line .planner = false ∧ mayCancel .line .auto = false := by decide

/-- Two requests in the store, that of route 6 the younger. -/
def waitingStore : List StoreEntry := [⟨1, .auto, .gateArrival 1 25, none, 0⟩, stored6]

/-- Removals from the table and from the store while requests are stored. -/
theorem test_witness_removals_with_requests_stored :
    [(RouteState.setting, 0), (.proceed, 0), (.degraded, 0), (.degraded, 2), (.occupied, 2), (.timeRelease, 0)].all (fun x =>
      let s := (inState x.1 x.2).onRoute (fun r => { r with store := waitingStore })
      (match s.active 6 with | some (slot, e) => slot = 1 && e.state = x.1 && e.route = 6 | none => false) &&
      s.route.store.length = 2) ∧
    (storing waitingStore).active 6 = none ∧ (storing waitingStore).stored 6 = some stored6 ∧
    (waitingStore.all (fun e => (storing waitingStore).stored e.route = some e && (Tbl.find e.route yard.desc.routes).isSome)) ∧
    yard.active 6 = none ∧ yard.stored 6 = none ∧
    (match (inState .occupied 2).active 6 with | some (_, e) => e.state ≠ .degraded | none => False) := by
  refine ⟨by decide +kernel, by decide +kernel, by decide +kernel, by decide +kernel, by decide +kernel, by decide +kernel, ?_⟩
  exact fun h => by cases h

theorem test_witness_ResumeAndForceRelease : desk.port = .desk ∧ yard.op = .run ∧ standsIn (inState .degraded 0) ∧
    standsIn (inState .degraded 2) ∧ standsIn (inState .occupied 2) := by decide +kernel

theorem test_witness_RouteTimersRunOut : (storing [stored6]).route.store = [stored6] ∧
    (Tbl.find 6 yard.desc.routes).isSome ∧
    (Tbl.find 1 (inState .timeRelease 0).route.table).any (fun e => e.state = .timeRelease ∧ e.route = 6) ∧
    (inState .timeRelease 0).route.store = [] := by decide +kernel

/-- A section stands as a path element of the entry in slot 1. -/
def elementIs (s : State) (n i : Nat) (p : RouteEntry → Bool) : Bool :=
  match s.elementAt n with
  | some (slot, e, _, k) => slot = 1 && k = i && decide (Tbl.find 1 s.route.table = some e) && p e
  | none => false

/-- The depot's YARD route with the tram on it and an irregular clearance standing. -/
def irregularAt (i : Nat) : State :=
  holding yard { entry 6 .yard .degraded 2 .none with causes := ⟨false, true, false⟩, irregular := [i] }

theorem test_witness_TramEntersAndAdvances :
    elementIs (inState .proceed 0) 10 1 (fun e => e.front = 0 ∧ e.state = .proceed) ∧
    elementIs (inState .occupied 1) 3 2 (fun e => 1 ≤ e.front) ∧
    elementIs (inState .setting 0) 3 2 (fun e => e.front = 0 ∧ e.state = .setting) ∧
    elementIs (inState .proceed 0) 3 2 (fun e => e.front = 0 ∧ e.state ≠ .setting) ∧
    elementIs (inState .setting 0) 10 1 (fun e => e.front = 0 ∧ e.state ≠ .proceed) ∧
    elementIs ((inState .proceed 0).onRoute (fun r => { r with halt := true })) 10 1 (fun e => e.front = 0) ∧
    (inState .proceed 0).route.halt = false ∧
    elementIs (inState .occupied 2) 3 2 (fun e => e.front = 2 ∧ e.irregular.contains 2 = false) ∧
    elementIs (irregularAt 2) 3 2 (fun e => e.front = 2 ∧ e.irregular.contains 2) := by decide +kernel

/-- A departure in SETTING whose origin signal is passed at stop with its last section occupied. -/
theorem test_witness_passage_at_stop :
    elementIs ((holding yard (entry 3 .departure .setting 0 (.dutyDeparture 1 12))).onSection 8 (fun r =>
      { r with confirmed := .occupied })) 4 1 (fun e => e.front = 0 ∧ e.state = .setting) ∧
    (Tbl.find 3 depot.routes).any (fun d => d.sections.drop 2 = [8] ∧ d.points.all (fun p =>
      (holding yard (entry 3 .departure .setting 0 (.dutyDeparture 1 12))).detected p.1 p.2)) := by decide +kernel

theorem test_witness_ClearanceBehindTheTram :
    elementIs ((inState .occupied 2).onSection 3 (fun r => { r with confirmed := .occupied })) 10 1 (fun e =>
      1 ≤ e.front ∧ e.irregular = []) ∧
    elementIs (inState .occupied 1) 10 1 (fun e => 1 ≤ e.front ∧ e.irregular = []) ∧
    elementIs (inState .occupied 2) 3 2 (fun e => 2 ≤ e.front ∧ e.causes.irregular = false ∧ e.route = 6) ∧
    (Tbl.find 6 yard.desc.routes).any (fun d => d.path.length = 2 ∧ d.kind = .yard ∧ d.destination = none ∧
      (d.sections[1]?).any ((inState .occupied 2).onSection 3 (fun r => { r with confirmed := .occupied })).isOccupied ∧
      (d.sections[1]?).any (inState .occupied 1).isOccupied = false) ∧
    (inState .occupied 2).route.store = [] ∧ (∀ p ∈ (inState .occupied 2).route.table, p.2.state ≠ .setting) := by
  decide +kernel

/-- The depot with its SHUNT_IN route in slot 1, the tram on its last element, its siding's body clear. -/
def offTarget : State := holding yard (entry 5 .shuntIn .occupied 2 .none)

theorem test_witness_clearance_of_the_last_element :
    elementIs offTarget 6 2 (fun e => e.front = 2 ∧ e.irregular = []) ∧
    (Tbl.find 5 depot.routes).any (fun d => atItsDestination d offTarget = false ∧ d.path.length = 2) ∧
    elementIs (irregularAt 1) 3 2 (fun e => e.front = 2 ∧ e.irregular.contains 2 = false ∧ e.causes.irregular) ∧
    (Tbl.find 6 depot.routes).any (fun d => atItsDestination d (irregularAt 1) ∧ d.path.length = 2) ∧
    (∀ p ∈ offTarget.route.table, p.2.state ≠ .setting) ∧ offTarget.route.store = [] := by decide +kernel

theorem test_witness_clearance_ahead : elementIs (inState .setting 0) 10 1 (fun e => e.front < 1) ∧
    (Tbl.find 6 depot.routes).any (fun d => standsClear 1 d (inState .setting 0)) ∧
    elementIs (irregularAt 1) 10 1 (fun e => 1 ≤ e.front ∧ e.irregular.contains 1) ∧
    (∀ p ∈ (irregularAt 1).route.table, p.2.withheld = []) ∧ (irregularAt 1).route.store = [] := by decide +kernel

theorem test_witness_withheld_and_scan : (yard.elementAt 9).isNone ∧ (yard.elementAt 64).isNone ∧
    ((Tbl.find 1 yard.points).bind PointRec.lock).all (fun slot => (Tbl.find slot yard.route.table).isNone) ∧
    ((Tbl.find 2 yard.points).bind PointRec.lock).all (fun slot => (Tbl.find slot yard.route.table).isNone) ∧
    (Tbl.find 1 (inState .setting 0).points).any (fun r => r.lock = some 1 ∧ (inState .setting 0).isFree r.sect) ∧
    (Tbl.find 1 (inState .degraded 0).route.table).any (fun e => e.state = .degraded) ∧
    (Tbl.find 6 depot.routes).any (fun d => (pointsIn .outOfService).unavailableObject d = some (.point 1) ∧
      yard.unavailableObject d = none ∧ yard.available d [] ∧ yard.freeSlot = some 1 ∧ (routePoints d).Nodup ∧
      busy.unavailableObject d = none ∧ busy.available d [] = false) := by decide +kernel

theorem test_witness_PointAndForceReports :
    (Tbl.find 32 (inState .setting 0).points).any (fun r => r.lock = some 1) ∧
    (Tbl.find 1 (inState .setting 0).route.table).any (fun e => e.state = .setting ∧ e.route = 6) ∧
    (Tbl.find 6 yard.desc.routes).isSome ∧ (inState .setting 0).route.store = [] ∧
    (Tbl.find 1 ((inState .setting 0).onSection 3 (fun r => { r with confirmed := .occupied })).points).any (fun r =>
      r.lock = some 1 ∧ ((inState .setting 0).onSection 3 (fun r => { r with confirmed := .occupied })).isFree r.sect = false) := by
  decide +kernel

theorem test_witness_RouteHaltAndRestart : Tbl.wf proceeding.route.table ∧
    proceeding.route.table.any (fun p => p.2.state = .proceed && (proceeding.routeDef p.2.route).any (fun d => d.points.all (fun x =>
      (Tbl.find x.1 proceeding.points).any (fun r => r.lock = some p.1 && r.state = detectedIn x.2)))) := by
  unfold Tbl.wf; decide +kernel

/-! ### Gate controllers -/

/-- The depot's gate with a queue and a window. -/
def gated (q : List Arrival) (w : PassWindow) : State := stabled.onGate 1 (fun x => { x with queue := q, window := w })

/-- An outbound frame of tram 25. -/
def outbound25 : TagBytes := ⟨3, 0, 25, 30, 1, 0, 0x43, 0x73⟩

theorem test_witness_frames_valid : frame25.valid false ∧ outbound25.valid true ∧ ¬ outbound25.valid false := by
  unfold TagBytes.valid; decide +kernel

theorem test_witness_InboundFrames : (Tbl.find 1 depot.gates).isSome ∧
    (Tbl.find 1 yard.gates).any (fun x => x.rxIn = none ∧ x.window = .closed) ∧
    (Tbl.find 1 (gated [] .read).gates).any (fun x => x.rxIn = none ∧ x.window = .read ∧ x.inToggle = none) ∧
    (Tbl.find 1 (gated [waiting 31] .wait).gates).any (fun x => x.rxIn = none ∧ x.inToggle ≠ some frame25.frame.toggle ∧
      x.queue.length = 1) ∧
    (Tbl.find 1 (gated [waiting 31, waiting 32, waiting 33] .untimed).gates).any (fun x => x.queue.length = 3) ∧
    (Tbl.find 1 (gated [waiting 31, waiting 32, waiting 33, waiting 34] .wait).gates).any (fun x => x.queue.length = 4) := by
  decide +kernel

theorem test_witness_frame_at_the_head :
    (Tbl.find 1 (gated [] .wait).gates).any (fun x => x.rxIn = none ∧ x.queue = [] ∧ x.inToggle ≠ some frame25.frame.toggle) ∧
    (Tbl.find 1 (gated [{ waiting 31 with mark := .unread, isWindow := true }] .unread).gates).any (fun x =>
      x.window = .unread ∧ x.queue.findIdx? (fun a => a.isWindow && a.mark = .unread) = some 0) ∧
    (Tbl.find 1 (gated [] .unread).gates).any (fun x => x.queue.findIdx? (fun a => a.isWindow && a.mark = .unread) = none) := by
  decide +kernel

theorem test_witness_OutboundFrameIsKept : (Tbl.find 1 depot.gates).isSome ∧
    (Tbl.find 1 yard.gates).any (fun x => x.rxOut = none ∧ x.outToggle = none) := by decide +kernel

/-- The reader receivers with no frame being assembled, and with none, one, six and seven bytes of one. -/
theorem test_witness_reader_receivers : (Tbl.find 1 yard.gates).any (fun x => x.rxIn = none ∧ x.rxOut = none) ∧
    [0, 1, 6, 7].all (fun k =>
      let s := yard.onGate 1 (fun x => { x with rxIn := some (frame25.bytes.take k), rxOut := some (outbound25.bytes.take k) })
      (Tbl.find 1 s.gates).any (fun x => x.rxIn.any (fun l => l.length = k) ∧ x.rxOut.any (fun l => l.length = k))) := by
  decide +kernel

/-- R104: a frame whose bytes come in three commands, after bytes that are none of it, makes the record that one command makes. -/
theorem test_frame_in_pieces :
    (match exec (.inboundFrame 1 ([1, 2, 0x5A] ++ frame25.bytes.take 3)) (yard.onGate 1 (fun x => { x with window := .wait })) with
    | .next t => after (.inboundFrame 1 (frame25.bytes.drop 3)) t (fun t =>
        (Tbl.find 1 t.gates).any (fun x => x.queue.map Arrival.fleet = [some 25] ∧ x.rxIn = none))
    | _ => false) = true := by decide +kernel

theorem test_witness_invalid_outbound : ¬ frame25.valid true := by unfold TagBytes.valid; decide +kernel

theorem test_witness_PassWindow : (Tbl.find 1 depot.gates).isSome ∧
    (Tbl.find 1 yard.gates).any (fun x => x.window = .closed ∧ x.early = none) ∧
    (Tbl.find 1 (gated [] .read).gates).any (fun x => x.window ≠ .closed ∧ x.window ≠ .wait) ∧
    (Tbl.find 1 (gated [] .wait).gates).any (fun x => x.window = .wait ∧ x.queue.length < 4) ∧
    (Tbl.find 1 (gated [waiting 31, waiting 32, waiting 33, waiting 34] .wait).gates).any (fun x =>
      x.window = .wait ∧ x.queue.length = 4) := by decide +kernel

theorem test_witness_early_read : (Tbl.find 1 ((gated [] .closed).onGate 1 (fun x =>
    { x with early := some ⟨frame25.frame, 1500⟩ })).gates).any (fun x => x.window = .closed ∧ x.early = some ⟨frame25.frame, 1500⟩) := by
  decide +kernel

/-- What head processing finds for a tram of the depot that needs nothing. -/
def placed (s : State) : Allocation := (s.allocate 1 25 30 ⟨false, false, false, false⟩ ⟨false, false, false, false⟩).2

theorem test_witness_head_processing : (Tbl.find 1 (gated [waiting 25] .closed).gates).any (fun x =>
      x.queue.head?.any (fun a => a.state = .waiting ∧ a.mark = .none ∧ a.paused = false ∧ a.fleet = some 25)) ∧
    placed (gated [waiting 25] .closed) = .siding 1 ∧ (gated [waiting 25] .closed).lookup .arrival 1 1 = some 1 ∧
    placed yard = .noPlace .capacity ∧ (stabled.allocate 1 11 30 ⟨false, false, false, false⟩ ⟨false, false, false, false⟩).2 = .duplicate ∧
    (Tbl.find 1 depot.routes).any (fun d => d.kind = .arrival ∧ (routePoints d).Nodup ∧ stabled.unavailableObject d = none ∧
      requestRefusal 1 d stabled = none ∧
      requestRefusal 1 d (holding stabled (entry 1 .arrival .setting 0 .none)) = some (.duplicate, [.u8 1])) := by
  decide +kernel

theorem test_witness_gate_requests : desk.port = .desk ∧ line.port = .line ∧ yard.op = .run ∧ (Tbl.find 1 depot.gates).isSome ∧
    (Tbl.find 1 yard.gates).isSome := by decide +kernel

theorem test_witness_ArrivalRequests : stabled.identity 25 = .free ∧ stabled.identity 11 ≠ .free ∧
    (Tbl.find 1 (gated [{ waiting 31 with mark := .unread, fleet := none }] .closed).gates).any (fun x =>
      x.queue[0]?.any (fun a => a.mark ≠ .none ∧ a.state = .waiting)) ∧
    (Tbl.find 1 (gated [waiting 31, { waiting 32 with state := .routed }] .closed).gates).any (fun x =>
      x.queue[1]?.any (fun a => a.state ≠ .waiting ∧ a.mark = .none) ∧ x.queue.length < 4) ∧
    (Tbl.find 1 (gated [waiting 31, waiting 32, waiting 33, waiting 34] .closed).gates).any (fun x => x.queue.length = 4) ∧
    (0 : Byte).toNat < 16 ∧ (15 : Byte).toNat < 16 := by decide +kernel

theorem test_witness_RouteEventsAtTheGate :
    (Tbl.find 1 (gated [waiting 31, { waiting 32 with state := .allocated }] .closed).gates).any (fun x =>
      x.queue.findIdx? (fun y => y.fleet = some 32) = some 1 ∧ x.queue[1]?.any (fun a => a.state = .allocated)) ∧
    (Tbl.find 1 (gated [{ waiting 31 with state := .routed }] .closed).gates).any (fun x =>
      x.queue.findIdx? (fun y => y.fleet = some 31) = some 0 ∧ x.queue[0]?.any (fun a => a.state ≠ .waiting)) ∧
    (Tbl.find 1 (stabled.onGate 1 (fun x => { x with outRead := some ⟨11, 3, none⟩ })).gates).any (fun x =>
      x.outRead.any (fun o => o.route = 3 ∧ some 12 ≠ some o.fleet)) := by decide +kernel

/-! ### Stabling block -/

/-- A RESERVED record of an arrival at gate 1, a CALLED and a LEAVING record of a departure by fleet. -/
def reserved (f : Nat) : StackRec := { tram f with state := .reserved, stabledAt := none, purpose := some (.gateArrival 1) }
def outgoing (f : Nat) (st : StackState) (p : StackPurpose) : StackRec := { tram f with state := st, purpose := some p }

/-- The depot with one stack in siding 1 and one in siding 2, and shunt 1 in a phase. -/
def stackedIn (a b : List StackRec) : State :=
  (stabled.onSiding 1 (fun r => { r with stack := a })).onSiding 2 (fun r => { r with stack := b })
def shunting (a b : List StackRec) (e : ShuntEntry) : State := (stackedIn a b).onStab (fun x => { x with shunts := [(1, e)] })

/-- The record of a fleet stands in a siding at a place, in the state that a test asks. -/
def standsAt (s : State) (f n i : Nat) (p : StackRec → Bool) : Bool :=
  match s.findTram f with
  | some (m, r, k, x) => m = n && k = i && decide (Tbl.find n s.stab.sidings = some r) && p x
  | none => false

/-- A CALL of a tram is taken at a place; it is refused for a reason. -/
def callableAt (s : State) (f n i : Nat) : Bool :=
  match s.callCheck f with
  | .ok p => decide (p = (n, i))
  | .error _ => false
def notCallable (s : State) (f : Nat) (r : Reason) : Bool :=
  match s.callCheck f with
  | .ok _ => false
  | .error a => decide (a.reason = some r)

theorem test_witness_CandidatesAndAllocation : Tbl.wf stabled.stab.sidings ∧
    (stabled.allocate 1 25 30 ⟨false, false, false, false⟩ ⟨false, false, false, false⟩).2 = .siding 1 ∧
    (stabled.allocate 1 25 80 ⟨false, true, false, false⟩ ⟨false, false, false, false⟩).2 = .siding 2 := by unfold Tbl.wf; decide +kernel

theorem test_witness_RouteEventsOnTheStack :
    standsAt (stackedIn [tram 11, reserved 25] []) 25 1 1 (fun x => x.state = .reserved ∧ x.purpose = some (.gateArrival 1)) ∧
    standsAt (stackedIn [outgoing 11 .called (.dutyDeparture 999)] []) 11 1 0 (fun x =>
      x.state = .called ∧ x.purpose = some (.dutyDeparture 999)) ∧
    standsAt (stackedIn [tram 11, outgoing 12 .leaving (.fleetDeparture 1)] []) 12 1 1 (fun x =>
      x.state = .leaving ∧ x.purpose = some (.fleetDeparture 1)) := by decide +kernel

/-- The siding that a departure route leaves, where a force release finds no record. -/
def sidingLeft (s : State) (route : Nat) : Option Census :=
  ((s.routeDef route).bind RouteDef.fromObj).bind (fun n => (Tbl.find n s.stab.sidings).map SidingRec.census)

/-- Pairings without an effect; and records that have gone: none of the fleet, or one with another purpose, with the siding KNOWN, in
DOUBT, or not given. -/
theorem test_witness_other_pairings : stabled.findTram 25 = none ∧
    standsAt (stackedIn [tram 11, reserved 25] []) 25 1 1 (fun x => x.state = .reserved ∧ x.purpose = some (.gateArrival 1)) ∧
    standsAt (stackedIn [outgoing 11 .called (.dutyDeparture 999)] []) 11 1 0 (fun x =>
      x.purpose = some (.dutyDeparture 999) ∧ departurePairing x.state .complete = false) ∧
    standsAt (stackedIn [tram 11, outgoing 12 .leaving (.fleetDeparture 1)] []) 12 1 1 (fun x =>
      x.purpose = some (.fleetDeparture 1) ∧ departurePairing x.state (.elementReleased 2) = false) ∧
    standsAt stabled 12 1 1 (fun x => x.purpose ≠ some (.dutyDeparture 1)) ∧
    sidingLeft stabled 3 = some .known ∧ sidingLeft yard 3 = some .doubt ∧ sidingLeft stabled 7 = none := by decide +kernel

/-- R134: FORCE-RELEASED with the record gone. -/
theorem test_departure_record_gone :
    after (.stablingDepartureEvent ⟨.forceReleased, some 1, 3, .departure, .line, .fleetDeparture 25 1, none⟩) stabled (fun t =>
      sidingLeft t 3 = some .doubt ∧ t.claims.contains (.alarmRaise (.departureAbandoned 25)) ∧ t.claims.length = 2) = true := by
  decide +kernel

theorem test_witness_claims_on_a_stack :
    standsAt (stackedIn [tram 11, reserved 25] []) 25 1 1 (fun x =>
      x.state = .reserved ∧ x.purpose = some (.gateArrival 1) ∧ x.entered = false) ∧
    standsAt (stackedIn [outgoing 11 .called (.dutyDeparture 999)] []) 11 1 0 (fun x => x.state = .called) ∧
    stabled.findTram 25 = none ∧ (Tbl.find 1 yard.stab.sidings).any (fun r => r.census = .doubt) ∧
    (Tbl.find 1 stabled.stab.sidings).any (fun r => r.census = .known) ∧ Tbl.find 3 yard.stab.sidings = none := by decide +kernel

theorem test_witness_BodyEdgeCrossCheck : (Tbl.find 5 depot.sections).bind SectionDef.siding = some 1 ∧
    (Tbl.find 1 stabled.stab.sidings).any (fun r => r.census = .known ∧ r.stack ≠ []) ∧
    (Tbl.find 7 depot.sections).bind SectionDef.siding = some 2 ∧
    (Tbl.find 2 stabled.stab.sidings).any (fun r => r.census = .known ∧ r.stack = []) := by decide +kernel

theorem test_witness_CensusIsDecided : planner.port = .planner ∧ yard.op = .run ∧ (Tbl.find 1 yard.stab.sidings).isSome ∧
    (∀ e ∈ ([⟨4095, 80, 15, 0⟩] : List CensusEntry), e.mandatory.toNat < 16 ∧ e.wanted.toNat < 16) := by decide +kernel

theorem test_witness_SidingFieldsChange : yard.op = .run ∧ (Tbl.find 1 yard.stab.sidings).isSome ∧ desk.port = .desk ∧
    planner.port = .planner ∧ (15 : Byte).toNat < 16 := by decide +kernel

theorem test_witness_ShuntIsDecided : planner.port = .planner ∧ stabled.op = .run ∧ Tbl.wf stabled.stab.sidings ∧
    standsAt stabled 12 1 1 (fun x => stabled.targetRefusal 2 x.length x.mandatory none = none) ∧
    callableAt stabled 12 1 1 ∧
    (Tbl.find 2 stabled.stab.sidings).isSome ∧
    [1, 2].find? (fun h => stabled.hasShuntRoutes 1 2 h && (Tbl.find h stabled.stab.shunts).isNone) = some 1 ∧
    stabled.lookup .shuntOut 1 1 = some 4 ∧
    (stabled.routeDef 4).any (fun d => d.kind = .shuntOut ∧ stabled.unavailableObject d = none ∧ (routePoints d).Nodup) ∧
    (stabled.routeDef 4).any (fun d => requestRefusal 4 d stabled = none ∧ slotTaken d stabled = some 1 ∧
      requestRefusal 4 d (holding stabled (entry 4 .shuntOut .setting 0 .none)) = some (.duplicate, [.u8 1])) := by
  unfold Tbl.wf; decide +kernel

/-- A shunt whose target is not empty, and one that puts its tram in front of one due out before it. -/
theorem test_witness_shunt_inverts :
    let s := (stackedIn [tram 11, tram 12] [tram 31]).onRoster (fun r => { r with duties := [Duty.new 1 700 1 (some 31) none] })
    (Tbl.find 2 s.stab.sidings).any (fun tr => isInOrder s (dueOfFleet s 12) (2, tr) = false ∧ tr.stack ≠ [] ∧
      s.targetRefusal 2 30 (tram 12).mandatory none = none) ∧
    (Tbl.find 2 s.stab.sidings).any (fun tr => isInOrder s (dueOfFleet s 31) (2, tr)) ∧
    after (.shunt desk 12 2) s (fun t => t.claims.length = 2 ∧ (Tbl.find 1 t.stab.shunts).isSome) := by decide +kernel

/-- A shunt of tram 12 from siding 1 to siding 2 in a phase. -/
def shunt12 (ph : ShuntPhase) (inRoute : Option Nat) (st : InStanding) : ShuntEntry := ⟨12, 1, 2, .planner, ph, 4, inRoute, st⟩

theorem test_witness_ShuntRequests :
    (Tbl.find 1 (holding (shunting [outgoing 12 .called (.shuntEntry 1)] [] (shunt12 .outWait none .none))
      (entry 4 .shuntOut .setting 0 (.shuntEntry 1 12))).stab.shunts).any (fun e => e.phase = .outWait) ∧
    (match (holding (shunting [outgoing 12 .called (.shuntEntry 1)] [] (shunt12 .outWait none .none))
      (entry 4 .shuntOut .setting 0 (.shuntEntry 1 12))).active 4 with
      | some (slot, e) => slot = 1 ∧ e.purpose = .shuntEntry 1 12 ∧ e.state = .setting
      | none => False) ∧
    (let s := shunting [] [outgoing 12 .reserved (.shuntEntry 1)] (shunt12 .inWait none .none)
     Tbl.wf s.stab.sidings ∧ standsAt s 12 2 0 (fun x => s.targetRefusal 2 x.length x.mandatory (some 12) = none) ∧
     (s.lookup .shuntIn 1 2).isSome) ∧
    (let s := shunting [] [outgoing 12 .reserved (.shuntEntry 1)] { shunt12 .inWait none .none with source := 24 }
     standsAt s 12 2 0 (fun x => s.targetRefusal 1 x.length x.mandatory (some 12) = none)) := by
  refine ⟨by decide +kernel, ?_, by unfold Tbl.wf; decide +kernel, by decide +kernel⟩
  exact ⟨rfl, rfl, rfl⟩

/-- Routes under the stabling block's cancel claim: of a shunt and of another purpose, in the table and in the store; and none. -/
theorem test_witness_cancel_claims :
    ((holding stabled (entry 4 .shuntOut .proceed 0 (.shuntEntry 1 12))).active 4).any (fun p => p.2.purpose = .shuntEntry 1 12) ∧
    ((inState .setting 0).active 6).any (fun p => p.2.purpose = .none) ∧
    (storing [⟨5, .planner, .shuntEntry 1 12, some 12, 60000⟩, stored6]).active 5 = none ∧
    ((storing [⟨5, .planner, .shuntEntry 1 12, some 12, 60000⟩, stored6]).stored 5).any (fun e => e.purpose = .shuntEntry 1 12) ∧
    ((storing [stored6]).stored 6).any (fun e => e.purpose = .none) ∧ yard.active 5 = none ∧ yard.stored 5 = none := by
  decide +kernel

/-- The depot with a SHUNT_IN route into siding 1 too, and a shunt of tram 12 from siding 3 waiting to enter siding 2, its in route
standing nowhere or in the store. -/
def retargetable (inRoute : Option Nat) (st : InStanding) : State :=
  let s := shunting [tram 11] [outgoing 12 .reserved (.shuntEntry 1)] { shunt12 .inWait inRoute st with source := 3 }
  { s with desc := { s.desc with routes := s.desc.routes ++
    [(7, ⟨.shuntIn, 4, some 1, some 1, none, some 5, [⟨3, [⟨1, .normal⟩]⟩, ⟨4, []⟩], []⟩)] } }

theorem test_witness_retarget_moves :
    (let s := retargetable none .none
     Tbl.wf s.stab.sidings ∧ standsAt s 12 2 0 (fun x => s.targetRefusal 1 x.length x.mandatory (some 12) = none) ∧
     s.lookup .shuntIn 1 1 = some 7 ∧ s.lookup .shuntIn 1 2 = some 5) ∧
    (let s := (retargetable (some 5) .stored).onRoute (fun r => { r with store := [⟨5, .planner, .shuntEntry 1 12, some 12, 60000⟩] })
     standsAt s 12 2 0 (fun x => s.targetRefusal 1 x.length x.mandatory (some 12) = none) ∧
     (s.cancelShuntRoute 5).2.status = .done) := by
  unfold Tbl.wf; decide +kernel

/-- R146: a retarget withdraws the stored in route, moves the record, and requests the in route anew. -/
theorem test_retarget_withdraws :
    after (.shuntRetarget desk 1 1) ((retargetable (some 5) .stored).onRoute (fun r => { r with
      store := [⟨5, .planner, .shuntEntry 1 12, some 12, 60000⟩] })) (fun t =>
        t.route.store = [] ∧ standsAt t 12 1 1 (fun x => x.state = .reserved) ∧
        (Tbl.find 1 t.stab.shunts).any (fun e => e.target = 1 ∧ e.inRoute = some 7 ∧ e.standing = .table)) = true := by decide +kernel

/-- Shunt 1 of tram 12 waiting to enter a long siding 2, with k trams stabled behind its RESERVED record. -/
def crowded (k : Nat) : State :=
  (shunting [] ((List.range k).map (fun j => tram (100 + j)) ++ [outgoing 12 .reserved (.shuntEntry 1)])
    (shunt12 .inWait none .none)).onSiding 2 (fun r => { r with length := 1000 })

/-- R146: the entry's own record is one of the 12 records of the present target. -/
theorem test_retarget_counts_own_record :
    standsAt (crowded 11) 12 2 11 (fun x => (crowded 11).targetRefusal 2 x.length x.mandatory (some 12) = some (.refused .full)) ∧
    standsAt (crowded 10) 12 2 10 (fun x => (crowded 10).targetRefusal 2 x.length x.mandatory (some 12) = none) ∧
    after (.shuntRetarget desk 1 2) (crowded 11) (fun t =>
      t.desk.sending = some (.answer ⟨0x31, 7, ⟨.refused, some .full, []⟩, false, false, false⟩)) = true := by
  decide +kernel

theorem test_witness_ShuntRouteEvents :
    standsAt (shunting [outgoing 12 .called (.shuntEntry 1)] [] (shunt12 .outWait none .none)) 12 1 0 (fun _ => true) ∧
    standsAt (shunting [tram 11, outgoing 12 .leaving (.shuntEntry 1)] [] (shunt12 .outMoving none .none)) 12 1 1 (fun x =>
      x.state = .leaving) ∧
    standsAt (shunting [] [outgoing 12 .reserved (.shuntEntry 1)] (shunt12 .inWait (some 5) .stored)) 12 2 0 (fun _ => true) ∧
    (Tbl.find 2 stabled.stab.sidings).isSome := by decide +kernel

theorem test_witness_in_route :
    (let s := shunting [] [outgoing 12 .reserved (.shuntEntry 1)] (shunt12 .outMoving none .none)
     standsAt s 12 2 0 (fun _ => true) ∧ (Tbl.find 1 s.stab.sidings).isSome ∧ s.lookup .shuntIn 1 2 = some 5 ∧
     s.lookup .shuntIn 1 1 = none ∧ s.slotOf 5 = none ∧ s.storePosition 5 = none ∧
     (Tbl.find 5 depot.routes).any (fun d => d.kind = .shuntIn ∧ s.unavailableObject d = none ∧ (routePoints d).Nodup ∧
       s.available d s.route.store)) ∧
    (let s := shunting [outgoing 12 .leaving (.shuntEntry 1)] [] (shunt12 .outMoving none .none)
     standsAt s 12 1 0 (fun x => x.state = .leaving) ∧ (Tbl.find 2 s.stab.sidings).isSome) ∧
    (shunting [] [outgoing 12 .reserved (.shuntEntry 1)] (shunt12 .inWait (some 5) .stored)).findTram 12 ≠ none := by
  decide +kernel

/-- Shunt events without an effect: no entry, another fleet or route, and a pairing of no row. -/
theorem test_witness_other_shunt_events : Tbl.find 1 stabled.stab.shunts = none ∧
    outPairing .outWait .proceed = false ∧ outPairing .outMoving (.elementReleased 2) = false ∧ outPairing .inWait .complete = false ∧
    (shunt12 .outWait none .none).fleet ≠ 31 ∧ (shunt12 .outWait none .none).outRoute ≠ 5 ∧
    (shunt12 .inWait (some 5) .table).inRoute = some 5 ∧
    standsAt (shunting [outgoing 12 .called (.shuntEntry 1)] [] (shunt12 .outMoving none .none)) 12 1 0 (fun x =>
      x.state ≠ .leaving) := by decide +kernel

/-! ### Roster block -/

/-- A PLANNED duty; one whose departure is in flight. -/
def duty (n : Nat) (f : Option Nat) : Duty := Duty.new n 700 1 f none
def called (n f : Nat) (p : DepartProgress) : Duty :=
  { Duty.new n 700 1 (some f) none with departure := some ⟨f, 1, 1, 3, .desk, none, p⟩ }

/-- The depot with a roster, at minute 705. -/
def rostered (l : List Duty) : State := stabled.onRoster (fun r => { r with duties := l, clock := some 705, minuteTimer := some 0 })

theorem test_witness_ClockAndMinuteEvent : planner.port = .planner ∧ yard.op = .run ∧
    (∀ d ∈ (rostered [called 1 12 .entered]).roster.duties, d.departure.isSome) ∧
    (rostered [duty 999 (some 11)]).roster.clock = some 705 ∧
    (rostered [duty 999 (some 11)]).roster.duties.find? (fun d => d.duty = 999) = some (duty 999 (some 11)) ∧
    (duty 999 (some 11)).departure = none ∧ (rostered [duty 999 (some 11)]).autoDue 706 (duty 999 (some 11)) = false ∧
    (let s := (rostered [duty 1 (some 11)]).onRoster (fun r => { r with auto1 := true })
     s.autoDue 706 (duty 1 (some 11)) ∧ (s.departDuty 1 .auto).2 = ⟨.refused, some .blocked, [.u8 1, .u16 12]⟩) := by
  decide +kernel

theorem test_witness_DepartIsDecided : (rostered []).op = .run ∧
    notCallable (rostered []) 11 .blocked ∧
    (∀ p ∈ yard.stab.sidings, yard.selectable 1 none [] p = none) ∧
    (let s := rostered [duty 999 (some 12)]
     standsAt s 12 1 1 (fun _ => true) ∧ s.lineHeld 1 = false ∧ s.lookup .departure 1 1 = some 3 ∧
     (s.routeDef 3).any (fun d => d.kind = .departure ∧ s.unavailableObject d = none ∧ (routePoints d).Nodup) ∧
     (s.routeDef 3).any (fun d => requestRefusal 3 d s = none) ∧
     s.roster.duties.find? (fun d => d.duty = 999) = some (duty 999 (some 12))) ∧
    (∀ y ∈ (rostered []).roster.duties, y.fleet ≠ some 12) ∧ (Tbl.find 1 (rostered []).gates).isSome := by decide +kernel

/-- The depot at minute 705, auto-calling, with one duty due at 700, of tram 12 or open. -/
def autoCalling (f : Option Nat) : State := (rostered [duty 1 f]).onRoster (fun r => { r with auto1 := true })

/-- R160–R162: an auto-call made, whose entry is then passed by; one refused BLOCKED, whose DUE_BLOCKED keeps the due test from
posting, before the late test; and an open duty longer than every tram. -/
theorem test_witness_minuteEventTests :
    (let s := autoCalling (some 12)
     s.autoDue 706 (duty 1 (some 12)) ∧
     (s.minuteTests 706 1).roster.duties.all (fun d => d.departure.isSome ∧ d.lateNotified = false)) ∧
    (let s := autoCalling (some 11)
     s.lineHeld 1 = false ∧ notCallable s 11 .blocked ∧ (s.minuteTests 706 1).roster.duties = [{ duty 1 (some 11) with
       lastRefusal := some .blocked, dueNotified := true, lateNotified := true }]) ∧
    (let s := autoCalling none
     s.lineHeld 1 = false ∧ ∀ p ∈ s.stab.sidings, s.selectable 1 (some 41) [] p = none) := by decide +kernel

/-- Siding 1 of the depot with its two trams, and the route by which its outer tram departs. -/
def siding1 : SidingRec := ⟨4, 5, 100, ⟨true, false, false, false⟩, .known, false, none, [tram 11, tram 12]⟩
def departure3 : RouteDef := ⟨.departure, 2, some 1, some 1, none, none, [⟨4, []⟩, ⟨3, [⟨1, .normal⟩]⟩, ⟨8, []⟩], []⟩

theorem test_witness_departures_made : MayDepart 12 1 1 3 1 siding1 (tram 12) departure3 (autoCalling none) ∧
    MayDepart 12 1 1 3 1 siding1 (tram 12) departure3 (autoCalling (some 12)) ∧
    (autoCalling none).autoDue 706 (duty 1 none) ∧ (autoCalling (some 12)).autoDue 706 (duty 1 (some 12)) ∧
    (autoCalling none).roster.duties.find? (fun y => y.duty = 1) = some (duty 1 none) := by
  unfold MayDepart MayBeCalled Stands
  refine ⟨⟨⟨⟨?_, ?_⟩, rfl, ?_⟩, ?_⟩, ⟨⟨⟨?_, ?_⟩, rfl, ?_⟩, ?_⟩, ?_⟩ <;> decide +kernel

/-- The depot with route 3 in the table for a departure before, and a duty of tram 12 or an open one. -/
def departingBefore (f : Option Nat) : State := holding (autoCalling f) (entry 3 .departure .setting 0 (.dutyDeparture 9 31))

theorem test_witness_departures_undone :
    MayBeCalled 12 1 1 1 siding1 (tram 12) (departingBefore none) ∧
    departureRefusal 1 1 (departingBefore none) = some (.duplicate, [.u8 1]) ∧
    departureRefusal 1 2 (departingBefore none) = some (.unavailable, [.u8 1]) := by
  unfold MayBeCalled Stands
  refine ⟨⟨⟨?_, ?_⟩, rfl, ?_⟩, ?_, ?_⟩ <;> decide +kernel

/-- R156: a refused route undoes the call and the binding. -/
theorem test_departure_undone : after (.depart line (some 1) none none) (departingBefore none) (fun t =>
    t.roster.duties = [duty 1 none] ∧ t.stab.sidings = (departingBefore none).stab.sidings ∧
    t.line.sending = some (.answer ⟨0x39, 7, ⟨.refused, some .duplicate, [.u8 1]⟩, false, false, false⟩)) = true := by
  decide +kernel

theorem test_witness_IsSelected : IsSelected (duty 1 none) 12 1 siding1 (tram 12) (autoCalling none) := by
  have all : (autoCalling none).stab.sidings.filterMap ((autoCalling none).selectable 1 none []) = [(1, tram 12)] := by
    decide +kernel
  refine ⟨rfl, by decide +kernel, by decide +kernel, fun p hp n y h => Or.inl ?_⟩
  have found := all ▸ List.mem_filterMap.2 ⟨p, hp, h⟩
  simpa using found

theorem test_witness_DepartureIsFollowed :
    ((rostered [called 999 12 .called]).roster.duties.find? (fun d => d.duty = 999)).any (fun e =>
      e.departure.any (fun d => d.fleet = 12 ∧ d.progress = .called)) ∧
    ((rostered [called 1 12 .pastMouth]).roster.duties.find? (fun d => d.duty = 1)).any (fun e =>
      e.departure.any (fun d => d.fleet = 12 ∧ d.progress = .pastMouth)) ∧
    ((stabled.onRoster (fun r => { r with fleetDepartures := [⟨12, 1, 1, 3, .line, none, .entered⟩] })).roster.fleetDepartures.find?
      (fun d => d.fleet = 12)).isSome := by decide +kernel

/-- Events that find no departure record: no such duty, a PLANNED one, one of another fleet, and no such fleet in the list. -/
theorem test_witness_no_departure_record :
    [Purpose.dutyDeparture 5 12, .dutyDeparture 2 12, .dutyDeparture 1 31, .fleetDeparture 12 1].all (fun p =>
      recordFollowed ⟨.complete, some 1, 3, .departure, .desk, p, none⟩ (rostered [called 1 12 .called, duty 2 (some 12)]) = none) := by
  decide +kernel

theorem test_witness_RosterHaltAndRestart : ((rostered [called 1 12 .pastMouth, duty 999 none]).roster.duties.map Duty.duty).Nodup := by
  decide +kernel

/-! ### Supervision, description store, ports -/

theorem test_witness_desk_requests : desk.port = .desk ∧ yard.op = .run := by decide +kernel

theorem test_witness_alarms :
    (yard.onSup (fun v => { v with alarms := [⟨.gateOverrun 1, none, 255, .acked⟩] })).sup.alarms[0]?.isSome ∧
    Alarm.ofFields? 4 1 none = some (.gateOverrun 1) ∧ Alarm.ofFields? 11 1 none = none := by decide +kernel

theorem test_witness_store_requests : planner.port = .planner ∧ loaded.op = .config ∧ loaded.desc.commitFault = none ∧
    State.reset.desc.commitFault = some (.gateDef, 1, .noGate) := by decide +kernel

theorem test_witness_RequestsAreCheckedFirst :
    (Instr.gateHold line 1, yard.op) = (.gateHold line 1, .run) ∧ mayMake .line Kind.gateHold.code = false ∧
    mayMake .desk Kind.gateHold.code ∧ (Tbl.find 2 yard.desc.gates).isNone ∧
    (Instr.sidingAbilities planner 1 16).codesOk = false ∧ isIn Kind.configCommit.code 8 15 := by decide +kernel

theorem test_witness_PortsAnswerTheirOwnRequests : (127 : Byte).toNat < 128 ∧ (yard.port .desk).cursor = none := by decide +kernel

theorem test_witness_FramesAreReceived : (yard.port .desk).receiver = .hunt ∧ (yard.port .desk).inHand = none ∧
    (yard.port .desk).queue = [] ∧ (List.replicate 56 (0 : Byte)).length ≤ 56 ∧
    ((yard.onPort .desk (fun q => { q with inHand := some ⟨1, 1, .run, false, false⟩ })).port .desk).inHand.isSome ∧
    ([0, 0] : List Byte) ≠ crcBytes [2, 1, 9] := by decide +kernel

/-! ### The machine -/

theorem test_witness_StepTakesTheFrontCommand : { yard with pending := [Instr.halt desk] }.pending = [Instr.halt desk] := rfl

theorem test_witness_StepOnAnEmptyQueue : yard.pending = [] ∧ yard.claims = [] ∧ yard.expiries = [] ∧ occupying.expiries ≠ [] ∧
    { yard with claims := [Instr.routeRestart] }.claims ≠ [] := by decide +kernel

/-- The depot with every timer at this time left. -/
def timed (left : Nat) : State :=
  let s := (inState .timeRelease 0).onEntry 1 (fun e => { e with timer := some left })
  let s := (s.onSection 3 (fun r => { r with pending := some ⟨.occupied, left⟩ })).onPoint 1 (fun r => { r with throwTimer := some left })
  let s := (s.onPoint 32 (fun r => { r with coolTimer := some left })).onRoute (fun r => { r with store := [{ stored6 with timer := left }] })
  (s.onGate 1 (fun x => { x with waitTimer := some left, early := some ⟨frame25.frame, left⟩ })).onRoster (fun r =>
    { r with minuteTimer := some left })

theorem test_witness_expiries : (timed 0).expiries = [.confirmationTimerExpiry 3, .throwTimerExpiry 1, .coolDownExpiry 32,
    .storeTimerExpiry 6, .timeReleaseExpiry 1, .readerWaitExpiry 1, .earlyReadExpiry 1, .minuteTimerExpiry] ∧
    (timed 1).expiries = [] := by decide +kernel

theorem test_witness_OutputsFollowEveryStep : OutputsFollow yard := by
  refine ⟨by decide +kernel, ?_, by decide +kernel⟩
  intro m x h hm
  rcases hm with rfl | rfl
  · cases h; rfl
  · cases h

theorem test_witness_RecordsMatchEveryStep : RecordsMatchTheDescription yard :=
  ⟨rfl, rfl, rfl, rfl, rfl⟩

theorem test_witness_TablesInOrder : TablesInOrder yard := by unfold TablesInOrder Tbl.wf; decide +kernel

theorem test_witness_PendingIsTheInputEveryStep : (Tbl.find 3 occupying.sections).any (fun r =>
    r.pending.any (fun p => r.forced = false ∧ p.toward = r.level ∧ r.level ≠ r.confirmed)) ∧
    occupying.sections.all (fun p => p.1 = 3 ∨ p.2.pending = none) := by decide +kernel

/-- What is not defined in the depot: section 11, point 2, route 7, siding 3. -/
theorem test_witness_undefined_objects : (Tbl.find 11 yard.sections).isNone ∧ (Tbl.find 2 yard.points).isNone ∧
    (Tbl.find 7 yard.desc.routes).isNone ∧ (Tbl.find 3 yard.stab.sidings).isNone := by decide +kernel

theorem test_witness_DescriptionIsFixedInRun : yard.op = .run ∧ (∀ straps, Instr.routeRestart ≠ .powerOnReset straps) ∧
    after .routeRestart yard (fun _ => true) = true := ⟨rfl, (fun straps h => by cases h), by decide +kernel⟩

/-- The payload of `test_route_layout` as numbers, and fields out of the ranges of R10. -/
theorem test_witness_routePayloadsAreRead :
    (Tbl.find 6 depot.routes).any (fun d => fitsLayout 6 d ∧
      routeLayout 6 d = [6, 5, 5, 0, 0, 64, 0, 0x12, 10, 3, 0x80, 0x9F, 1] ∧ fitsLayout 129 d = false ∧ fitsLayout 0 d = false ∧
      fitsLayout 6 { d with flank := [⟨32, .normal, 13⟩] } = false ∧ fitsLayout 6 { d with path := [] } = false) := by
  decide +kernel

theorem test_witness_RouteDefReadsBack : (Tbl.find 6 depot.routes).any (fitsLayout 128) ∧
    fitsLayout 1 ⟨.arrival, 48, some 2, some 24, some 64, some 64, List.replicate 12 ⟨64, [⟨32, .reverse⟩]⟩,
      List.replicate 4 ⟨32, .reverse, 12⟩⟩ := by decide +kernel

end Sys2Proof.Tests
end

/-! # The two tables that come and go (04 R55, 07 section 7.6)

The route table and the shunt table gain and lose entries in RUN. Whether they stand in rising order (`State.order`) is left
by every operation, as an equation that `simp` rewrites with, but where an entry is removed: there an order that held holds
after (`ordered_…`). One lemma for each operation, in the order of the base lemmas (Laws/BaseYard, Laws/BaseDepot). -/

namespace Sys2Proof

variable {α : Type}

/-- Storing a record neither makes nor mends a fault in the order of the numbers. -/
theorem Tbl.wf_put_iff (k : Nat) (a : α) (t : Tbl α) : Tbl.wf (Tbl.put k a t) ↔ Tbl.wf t := by
  refine ⟨?_, fun h => Tbl.wf_put h k a⟩
  induction t with
  | nil => simp [Tbl.wf]
  | cons p t ih =>
    obtain ⟨n, b⟩ := p
    unfold Tbl.put
    split
    · intro h
      exact (List.pairwise_cons.mp h).2
    · split
      · rename_i heq
        subst heq
        exact id
      · intro h
        obtain ⟨hn, ht⟩ := List.pairwise_cons.mp h
        exact List.pairwise_cons.mpr ⟨fun m hm => hn m ((Tbl.mem_keys_put k m a t).mpr (.inr hm)), ih ht⟩

/-- The order of the numbers is a property of the numbers alone. -/
theorem Tbl.wf_congr {β : Type} {t : Tbl α} {u : Tbl β} (h : Tbl.keys u = Tbl.keys t) : Tbl.wf u ↔ Tbl.wf t := by
  unfold Tbl.wf Tbl.keys at *
  rw [h]

end Sys2Proof

namespace Sys2Proof.Machine

/-- Whether the route table and the shunt table stand in order. -/
def State.order (s : State) : Prop × Prop := (Tbl.wf s.route.table, Tbl.wf s.stab.shunts)

/-- Both tables stand in order. -/
def Ordered (o : Prop × Prop) : Prop := o.1 ∧ o.2

section

variable (s : State)

@[simp] theorem order_onSection (n : Nat) (f : SectionRec → SectionRec) : (s.onSection n f).order = s.order := by simp [State.order]
@[simp] theorem order_onPoint (n : Nat) (f : PointRec → PointRec) : (s.onPoint n f).order = s.order := by simp [State.order]
@[simp] theorem order_onGate (g : Nat) (f : Gate → Gate) : (s.onGate g f).order = s.order := by simp [State.order]
@[simp] theorem order_onRoster (f : Roster → Roster) : (s.onRoster f).order = s.order := by simp [State.order]
@[simp] theorem order_onSup (f : Supervision → Supervision) : (s.onSup f).order = s.order := by simp [State.order]
@[simp] theorem order_onPins (f : Pins → Pins) : (s.onPins f).order = s.order := by simp [State.order]
@[simp] theorem order_onDesc (f : Description → Description) : (s.onDesc f).order = s.order := by simp [State.order]
@[simp] theorem order_onSiding (n : Nat) (f : SidingRec → SidingRec) : (s.onSiding n f).order = s.order := by simp [State.order]
@[simp] theorem order_send (c : Instr) : (s.send c).order = s.order := by simp [State.order]
@[simp] theorem order_take (c : Instr) : (s.take c).order = s.order := by simp [State.order]
@[simp] theorem order_raise (a : Alarm) : (s.raise a).order = s.order := by simp [State.order]
@[simp] theorem order_endAlarm (a : Alarm) : (s.endAlarm a).order = s.order := by simp [State.order]
@[simp] theorem order_post (g : Group) (k : Nat) (fs : List Field) : (s.post g k fs).order = s.order := by simp [State.order]
@[simp] theorem order_onPort (p : Port) (f : PortState → PortState) : (s.onPort p f).order = s.order := by simp [State.order]
@[simp] theorem order_reply (k : Kind) (r : Req) (a : Ans) : (s.reply k r a).order = s.order := by simp [State.order]

/-- A change of the route setter that leaves the numbers of its table. -/
theorem order_onRoute {f : RouteSetter → RouteSetter} (h : Tbl.keys (f s.route).table = Tbl.keys s.route.table) :
    (s.onRoute f).order = s.order := by
  simp only [State.order, State.onRoute_route, State.onRoute_stab, Tbl.wf_congr h]

/-- A change of the stabling block that leaves the numbers of its shunt table. -/
theorem order_onStab {f : Stabling → Stabling} (h : Tbl.keys (f s.stab).shunts = Tbl.keys s.stab.shunts) :
    (s.onStab f).order = s.order := by
  simp only [State.order, State.onStab_route, State.onStab_stab, Tbl.wf_congr h]

@[simp] theorem order_onEntry (n : Nat) (f : RouteEntry → RouteEntry) : (s.onEntry n f).order = s.order :=
  order_onRoute s (Tbl.keys_adjust n f _)
@[simp] theorem order_onShunt (n : Nat) (f : ShuntEntry → ShuntEntry) : (s.onShunt n f).order = s.order :=
  order_onStab s (Tbl.keys_adjust n f _)
@[simp] theorem order_onStore (f : RouteSetter → List StoreEntry) :
    (s.onRoute (fun r => { r with store := f r })).order = s.order := by simp [State.order]
@[simp] theorem order_onHalt (v : Bool) : (s.onRoute (fun r => { r with halt := v })).order = s.order := by simp [State.order]
@[simp] theorem order_handed (v : Bool) : (s.onStab (fun b => { b with handed := v })).order = s.order := by simp [State.order]

/-- An entry put into the route table. -/
@[simp] theorem order_putEntry (n : Nat) (e : RouteEntry) :
    (s.onRoute (fun r => { r with table := Tbl.put n e r.table })).order = s.order := by
  simp [State.order, Tbl.wf_put_iff]

/-- An entry put into the shunt table. -/
@[simp] theorem order_putShunt (n : Nat) (e : ShuntEntry) :
    (s.onStab (fun b => { b with shunts := Tbl.put n e b.shunts })).order = s.order := by
  simp [State.order, Tbl.wf_put_iff]

/-- A walk each of whose steps keeps the order keeps it. -/
theorem order_foldl {α : Type} {f : State → α → State} (h : ∀ s a, (f s a).order = s.order) (l : List α) :
    (l.foldl f s).order = s.order := by
  induction l generalizing s with
  | nil => rfl
  | cons a l ih => rw [List.foldl_cons, ih, h]

variable {s}

/-- An entry removed from the route table. -/
@[simp] theorem ordered_delEntry (h : Ordered s.order) (n : Nat) :
    Ordered (s.onRoute (fun r => { r with table := Tbl.del n r.table })).order :=
  ⟨Tbl.wf_del h.1 n, h.2⟩

/-- An entry removed from the shunt table. -/
@[simp] theorem ordered_delShunt (h : Ordered s.order) (n : Nat) :
    Ordered (s.onStab (fun b => { b with shunts := Tbl.del n b.shunts })).order :=
  ⟨h.1, Tbl.wf_del h.2 n⟩

end

end Sys2Proof.Machine

namespace Sys2Proof.Machine

variable (s : State)

/-! ## Occupancy monitor -/

@[simp] theorem order_deliverEdge (n : Nat) (k : SectionKind) (o : Occ) (c : EdgeCause) :
    (s.deliverEdge n k o c).order = s.order := by
  unfold State.deliverEdge; repeat' (first | split | simp)

@[simp] theorem order_confirm (n : Nat) (r : SectionRec) (o : Occ) (c : EdgeCause) : (s.confirm n r o c).order = s.order := by
  unfold State.confirm; repeat' (first | split | simp)

@[simp] theorem order_takeLevel (n : Nat) (r : SectionRec) (l : Occ) : (s.takeLevel n r l).order = s.order := by
  unfold State.takeLevel; repeat' (first | split | simp)

@[simp] theorem order_takeForceOn (n : Nat) : (takeForceOn n s).1.order = s.order := by
  unfold takeForceOn; repeat' (first | split | simp)

@[simp] theorem order_takeForceOff (n : Nat) : (takeForceOff n s).1.order = s.order := by
  unfold takeForceOff; repeat' (first | split | simp)

@[simp] theorem order_takeSectionQuery (n : Nat) : (takeSectionQuery n s).1.order = s.order := by
  unfold takeSectionQuery; repeat' (first | split | simp)

/-! ## Point controller -/

@[simp] theorem order_endLossIfDetected (n : Nat) : (s.endLossIfDetected n).order = s.order := by
  unfold State.endLossIfDetected; repeat' (first | split | simp)

@[simp] theorem order_postPoint (n : Nat) (c : PointCause) : (s.postPoint n c).order = s.order := by
  unfold State.postPoint; repeat' (first | split | simp)

@[simp] theorem order_setPointState (n : Nat) (new : PointState) (c : PointCause) (f : PointRec → PointRec) :
    (s.setPointState n new c f).order = s.order := by
  unfold State.setPointState; repeat' (first | split | simp)

@[simp] theorem order_startThrow (n : Nat) (p : Position) : (s.startThrow n p).order = s.order := by simp [State.startThrow]

@[simp] theorem order_reverseThrow (n : Nat) (p : Position) : (s.reverseThrow n p).order = s.order := by
  simp [State.reverseThrow]

@[simp] theorem order_unlockPoint (n slot : Nat) : (s.unlockPoint n slot).order = s.order := by
  unfold State.unlockPoint; repeat' (first | split | simp)

/-- A granted lock keeps the base. -/
theorem order_lockPoint {n slot : Nat} {p : Position} {t : State} (h : s.lockPoint n slot p = .ok t) : t.order = s.order := by
  unfold State.lockPoint at h
  repeat' split at h
  all_goals first | cases h; simp | cases h

@[simp] theorem order_commandPoint (n slot : Nat) (p : Position) : (s.commandPoint n slot p).order = s.order := by
  unfold State.commandPoint; repeat' (first | split | simp)

@[simp] theorem order_takeReading (n : Nat) (r : PointRec) (rd : Reading) : (s.takeReading n r rd).order = s.order := by
  unfold State.takeReading; repeat' (first | split | simp)

@[simp] theorem order_takePointThrow (n p : Nat) : (takePointThrow n p s).1.order = s.order := by
  unfold takePointThrow; repeat' (first | split | simp)

@[simp] theorem order_takePointBlock (n : Nat) : (takePointBlock n s).1.order = s.order := by
  unfold takePointBlock; repeat' (first | split | simp)

@[simp] theorem order_takePointRestore (n : Nat) : (takePointRestore n s).1.order = s.order := by
  unfold takePointRestore; repeat' (first | split | simp)

@[simp] theorem order_takePointQuery (n : Nat) : (takePointQuery n s).1.order = s.order := by
  unfold takePointQuery; repeat' (first | split | simp)

@[simp] theorem order_restartPoint (n : Nat) : (s.restartPoint n).order = s.order := by
  unfold State.restartPoint; repeat' (first | split | simp)

/-! ## Route setter -/

@[simp] theorem order_postEntry (slot : Nat) (e : RouteEntry) (k : Nat) : (s.postEntry slot e k).order = s.order := by
  simp [State.postEntry]

@[simp] theorem order_postSlot (slot : Nat) : (s.postSlot slot).order = s.order := by
  unfold State.postSlot; repeat' (first | split | simp)

@[simp] theorem order_postFailed (sl : Option Nat) (n : Nat) (o : Owner) (p : Purpose) (w : FailCause) :
    (s.postFailed sl n o p w).order = s.order := by simp [State.postFailed]

@[simp] theorem order_postCancelled (sl : Option Nat) (n : Nat) (o : Owner) (p : Purpose) (m : CancelMode) :
    (s.postCancelled sl n o p m).order = s.order := by simp [State.postCancelled]

@[simp] theorem order_sendEvent (ev : RouteEvent) : (s.sendEvent ev).order = s.order := by
  unfold State.sendEvent; repeat' (first | split | simp)

@[simp] theorem order_slotEvent (slot : Nat) (p : Progress) : (s.slotEvent slot p).order = s.order := by
  unfold State.slotEvent; repeat' (first | split | simp)

@[simp] theorem order_reserve (slot : Nat) (l : List Nat) : (s.reserve slot l).order = s.order :=
  order_foldl s (by simp) l

@[simp] theorem order_unreserve (slot : Nat) (l : List Nat) : (s.unreserve slot l).order = s.order :=
  order_foldl s (by simp) l

@[simp] theorem order_unlockAll (slot : Nat) (l : List Nat) : (s.unlockAll slot l).order = s.order :=
  order_foldl s (by simp) l

@[simp] theorem order_lockAll (slot : Nat) (l : List (Nat × Position)) : (s.lockAll slot l).1.order = s.order := by
  induction l generalizing s with
  | nil => rfl
  | cons p l ih =>
    unfold State.lockAll
    split
    · rfl
    · rename_i h; rw [ih, order_lockPoint s h]

@[simp] theorem order_commandAll (slot : Nat) (l : List (Nat × Position)) : (s.commandAll slot l).order = s.order :=
  order_foldl s (by intro s a; split <;> simp) l

@[simp] theorem ordered_removeEntry (ho : Ordered s.order) (slot : Nat) (e : RouteEntry) :
    Ordered (s.removeEntry slot e).order := by
  simp [State.removeEntry, ho]

@[simp] theorem order_testProceed (slot : Nat) : (s.testProceed slot).order = s.order := by
  unfold State.testProceed; repeat' (first | split | simp)

@[simp] theorem order_takeInto (slot : Nat) (q : RouteRequest) (d : RouteDef) : (s.takeInto slot q d).1.order = s.order := by
  have h := order_lockAll (s.reserve slot d.sections) slot d.points
  unfold State.takeInto
  dsimp only
  split <;> rename_i e <;> rw [e] at h <;> simpa using h

@[simp] theorem order_storeRequest (q : RouteRequest) : (s.storeRequest q).1.order = s.order := by
  unfold State.storeRequest; repeat' (first | split | simp)

@[simp] theorem order_takeOrStore (q : RouteRequest) (d : RouteDef) : (s.takeOrStore q d).1.order = s.order := by
  unfold State.takeOrStore
  split
  · rename_i slot _ _
    have h := order_takeInto s slot q d
    split
    · rename_i e; rw [e] at h; exact h
    · rename_i e; rw [e] at h
      split
      · exact h
      · simpa using h
  · simp

@[simp] theorem order_requestRoute (ks : List RouteKind) (q : RouteRequest) : (s.requestRoute ks q).1.order = s.order := by
  unfold State.requestRoute; repeat' (first | split | simp)

@[simp] theorem order_failStored (e : StoreEntry) (d : RouteDef) (o : YardObject) : (s.failStored e d o).order = s.order := by
  simp [State.failStored]

@[simp] theorem order_scanOne (kept : List StoreEntry) (e : StoreEntry) : (s.scanOne kept e).1.order = s.order := by
  unfold State.scanOne
  split
  · rfl
  · rename_i d _
    split
    · simp
    · split
      · rename_i slot _ _
        have h := order_takeInto s slot e.request d
        split
        · rename_i x; rw [x] at h; exact h
        · rename_i x; rw [x] at h
          split
          · simpa using h
          · exact h
      · rfl

@[simp] theorem order_scanFrom (kept l : List StoreEntry) : (State.scanFrom kept l s).order = s.order := by
  induction l generalizing s kept with
  | nil => simp [State.scanFrom]
  | cons e l ih =>
    have h := order_scanOne s kept e
    unfold State.scanFrom
    split <;> rename_i x <;> rw [x] at h <;> rw [ih] <;> exact h

@[simp] theorem order_scan : s.scan.order = s.order := by simp [State.scan]

@[simp] theorem order_overtaken (slot : Nat) (e : RouteEntry) (c : OvertakeClaim) :
    (s.overtaken slot e c).order = s.order := by
  unfold State.overtaken; repeat' (first | split | simp)

@[simp] theorem order_goDegraded (slot : Nat) (e : RouteEntry) (c : Causes) (o : OvertakeClaim) :
    (s.goDegraded slot e c o).order = s.order := by
  unfold State.goDegraded; repeat' (first | split | simp)

@[simp] theorem ordered_releaseEntry (ho : Ordered s.order) (slot : Nat) (e : RouteEntry) (p : Progress) (m : CancelMode) :
    Ordered (s.releaseEntry slot e p m).order := by simp [State.releaseEntry, ho]

@[simp] theorem order_releaseStored (e : StoreEntry) (m : CancelMode) : (s.releaseStored e m).order = s.order := by
  simp [State.releaseStored]

@[simp] theorem ordered_cancelEntry (ho : Ordered s.order) (slot : Nat) (e : RouteEntry) :
    Ordered (s.cancelEntry slot e).1.order := by
  unfold State.cancelEntry; repeat' (first | split | simp [ho])

@[simp] theorem ordered_cancelRoute (ho : Ordered s.order) (n : Nat) (c : Owner → Purpose → Bool) :
    Ordered (s.cancelRoute n c).1.order := by
  unfold State.cancelRoute; repeat' (first | split | simp [ho])

@[simp] theorem ordered_cancelShuntRoute (ho : Ordered s.order) (n : Nat) :
    Ordered (s.cancelShuntRoute n).1.order := by simp [State.cancelShuntRoute, ho]

@[simp] theorem order_enterRoute (slot : Nat) : (s.enterRoute slot).order = s.order := by simp [State.enterRoute]

@[simp] theorem order_passAtStop (slot : Nat) (e : RouteEntry) (d : RouteDef) : (s.passAtStop slot e d).order = s.order := by
  unfold State.passAtStop; dsimp only; repeat' (first | split | simp)

@[simp] theorem order_unexpected (slot : Nat) (e : RouteEntry) (n : Nat) : (s.unexpected slot e n).order = s.order := by
  simp [State.unexpected]

@[simp] theorem order_takeOccupy (slot : Nat) (e : RouteEntry) (d : RouteDef) (i n : Nat) :
    (s.takeOccupy slot e d i n).order = s.order := by
  unfold State.takeOccupy; repeat' (first | split | simp)

@[simp] theorem order_releaseElement (slot : Nat) (d : RouteDef) (i n : Nat) :
    (s.releaseElement slot d i n).order = s.order := by
  simp [State.releaseElement]

@[simp] theorem order_irregularClearance (slot : Nat) (e : RouteEntry) (i n : Nat) :
    (s.irregularClearance slot e i n).order = s.order := by simp [State.irregularClearance]

@[simp] theorem ordered_completeRoute (ho : Ordered s.order) (slot : Nat) (e : RouteEntry) :
    Ordered (s.completeRoute slot e).order := by
  simp [State.completeRoute, ho]

@[simp] theorem ordered_takeClear (ho : Ordered s.order) (slot : Nat) (e : RouteEntry) (d : RouteDef) (i n : Nat) :
    Ordered (s.takeClear slot e d i n).order := by
  unfold State.takeClear; repeat' (first | split | simp [ho])

@[simp] theorem order_renewEntry (n slot : Nat) : (State.renewEntry n s slot).order = s.order := by
  unfold State.renewEntry; repeat' (first | split | simp)

@[simp] theorem order_renewWithheld (n : Nat) : (s.renewWithheld n).order = s.order := order_foldl s (by simp) _

@[simp] theorem ordered_failEntry (ho : Ordered s.order) (slot : Nat) (e : RouteEntry) (n : Nat) :
    Ordered (s.failEntry slot e n).order := by
  simp [State.failEntry, ho]

@[simp] theorem ordered_takeReport (ho : Ordered s.order) (slot : Nat) (e : RouteEntry) (r : PointReport) :
    Ordered (s.takeReport slot e r).order := by
  unfold State.takeReport; repeat' (first | split | simp [ho])

@[simp] theorem order_takeRouteSet (n : Nat) : (takeRouteSet n s).1.order = s.order := by simp [takeRouteSet]

@[simp] theorem ordered_takeRouteCancel (ho : Ordered s.order) (p : Port) (n : Nat) :
    Ordered (takeRouteCancel p n s).1.order := by
  unfold takeRouteCancel; repeat' (first | split | simp [ho])

@[simp] theorem order_takeRouteResume (n : Nat) : (takeRouteResume n s).1.order = s.order := by
  unfold takeRouteResume; repeat' (first | split | simp)

@[simp] theorem ordered_takeForceRelease (ho : Ordered s.order) (n : Nat) : Ordered (takeForceRelease n s).1.order := by
  unfold takeForceRelease; repeat' (first | split | simp [ho])

@[simp] theorem order_showAspect (p : Nat × RouteEntry) : (s.showAspect p).order = s.order := by
  unfold State.showAspect; repeat' (first | split | simp)

@[simp] theorem order_dropEntry (p : Nat × RouteEntry) : (s.dropEntry p).order = s.order := by simp [State.dropEntry]

@[simp] theorem order_freeSections (s : State) : s.freeSections.order = s.order := by
  simp [State.order, State.freeSections]

end Sys2Proof.Machine

/-! SUPPORT. The base of the state through the operations of the gate controllers, the stabling block, the roster block and
supervision. -/

namespace Sys2Proof.Machine

variable (s : State)

/-! ## Stabling block: claims of other blocks -/

@[simp] theorem order_postStack (n f p : Nat) (st : Option StackState) (c : StackCause) :
    (s.postStack n f p st c).order = s.order := by
  simp [State.postStack]

@[simp] theorem order_postSiding (n : Nat) (c : StackCause) : (s.postSiding n c).order = s.order := by
  unfold State.postSiding; repeat' (first | split | simp)

@[simp] theorem order_postInversion (f n b : Nat) : (s.postInversion f n b).order = s.order := by
  simp [State.postInversion]

@[simp] theorem order_report (c : StackCause) (g : Option Nat) : (s.report c g).order = s.order :=
  order_foldl s (by simp) _

@[simp] theorem order_onRecord (n f : Nat) (g : StackRec → StackRec) : (s.onRecord n f g).order = s.order := by
  simp [State.onRecord]

@[simp] theorem order_pushRecord (n : Nat) (x : StackRec) : (s.pushRecord n x).order = s.order := by
  simp [State.pushRecord]

@[simp] theorem order_dropRecord (n f : Nat) : (s.dropRecord n f).order = s.order := by
  simp [State.dropRecord]

@[simp] theorem order_setDoubt (n : Nat) (c : StackCause) : (s.setDoubt n c).order = s.order := by
  unfold State.setDoubt; repeat' (first | split | simp)

@[simp] theorem order_doubtClaim (n : Nat) (c : StackCause) : (s.doubtClaim n c).order = s.order := by
  unfold State.doubtClaim; repeat' (first | split | simp)

@[simp] theorem order_allocate (g f l : Nat) (ma wa : Needs) : (s.allocate g f l ma wa).1.order = s.order := by
  unfold State.allocate; repeat' (first | split | simp)

@[simp] theorem order_releaseClaim (g f : Nat) : (s.releaseClaim g f).order = s.order := by
  unfold State.releaseClaim; repeat' (first | split | simp)

@[simp] theorem order_markCalled (n f : Nat) (p : StackPurpose) (b : Bool) : (s.markCalled n f p b).order = s.order := by
  simp [State.markCalled]

@[simp] theorem order_callClaim (f : Nat) (p : StackPurpose) : (s.callClaim f p).1.order = s.order := by
  unfold State.callClaim; repeat' (first | split | simp)

@[simp] theorem order_uncallClaim (f : Nat) (p : StackPurpose) : (s.uncallClaim f p).order = s.order := by
  unfold State.uncallClaim; repeat' (first | split | simp)

@[simp] theorem order_selectionClaim (d g : Nat) (m : Option Nat) (l : List Nat) :
    (s.selectionClaim d g m l).1.order = s.order := by
  unfold State.selectionClaim
  split
  · rfl
  · rename_i x _
    have h := order_callClaim s x.fleet (.dutyDeparture d)
    split <;> rename_i e <;> rw [e] at h <;> exact h

/-! ## Gate controllers -/

@[simp] theorem order_postArrival (g p : Nat) (a : Arrival) (c : QueueCause) : (s.postArrival g p a c).order = s.order := by
  simp [State.postArrival]

@[simp] theorem order_postQueue (g p : Nat) (c : QueueCause) : (s.postQueue g p c).order = s.order := by
  unfold State.postQueue; repeat' (first | split | simp)

@[simp] theorem order_onArrival (g p : Nat) (f : Arrival → Arrival) : (s.onArrival g p f).order = s.order := by
  simp [State.onArrival]

@[simp] theorem order_queueChanged (g : Nat) (j : Bool) : (s.queueChanged g j).order = s.order := by
  simp [State.queueChanged]

@[simp] theorem order_requestArrival (g f n : Nat) : (s.requestArrival g f n).order = s.order := by
  unfold State.requestArrival
  cases s.lookup .arrival g n with
  | none => simp
  | some route =>
    have h := order_requestRoute s [.arrival] ⟨route, .auto, .gateArrival g f, none⟩
    dsimp only
    split <;> rename_i e <;> rw [e] at h <;> simpa using h

@[simp] theorem order_noPlace (g f : Nat) (w : PlaceReason) : (s.noPlace g f w).order = s.order := by
  unfold State.noPlace; repeat' (first | split | simp)

@[simp] theorem order_processHead (g : Nat) : (s.processHead g).order = s.order := by
  unfold State.processHead
  split
  · rfl
  · split
    · rename_i f l ma wa _ _ _ _
      have h := order_allocate s g f l ma wa
      split
      · split <;> rename_i e <;> rw [e] at h <;> simpa using h
      · rfl
    · rfl

@[simp] theorem order_newHead (g : Nat) : (s.newHead g).order = s.order := by
  simp [State.newHead]

@[simp] theorem order_overrun (g : Nat) : (s.overrun g).order = s.order := by
  simp [State.overrun]

@[simp] theorem order_joinQueue (g : Nat) (a : Arrival) (c : QueueCause) : (s.joinQueue g a c).order = s.order := by
  unfold State.joinQueue; repeat' (first | split | simp)

@[simp] theorem order_createRecord (g : Nat) (x : Gate) (f : ReaderFrame) : (s.createRecord g x f).order = s.order := by
  unfold State.createRecord; repeat' (first | split | simp)

@[simp] theorem order_fillRecord (g : Nat) (x : Gate) (f : ReaderFrame) : (s.fillRecord g x f).order = s.order := by
  unfold State.fillRecord; repeat' (first | split | simp)

@[simp] theorem order_takeInWindow (g : Nat) (x : Gate) (d : GateDef) (f : ReaderFrame) :
    (s.takeInWindow g x d f).order = s.order := by
  unfold State.takeInWindow; repeat' (first | split | simp)

@[simp] theorem order_takeInbound (g : Nat) (f : ReaderFrame) : (s.takeInbound g f).order = s.order := by
  unfold State.takeInbound; repeat' (first | split | simp)

@[simp] theorem order_inboundByte (g : Nat) (b : Byte) : (State.inboundByte g s b).order = s.order := by
  unfold State.inboundByte; repeat' (first | split | simp)

@[simp] theorem order_openWindow (g : Nat) (x : Gate) (d : GateDef) : (s.openWindow g x d).order = s.order := by
  unfold State.openWindow; repeat' (first | split | simp)

@[simp] theorem order_appendUnread (g : Nat) (x : Gate) : (s.appendUnread g x).order = s.order := by
  unfold State.appendUnread; repeat' (first | split | simp)

@[simp] theorem order_takeArrivalEvent (g p : Nat) (a : Arrival) (ev : RouteEvent) :
    (s.takeArrivalEvent g p a ev).order = s.order := by
  unfold State.takeArrivalEvent; repeat' (first | split | simp)

@[simp] theorem order_takeOutbound (g : Nat) (f : ReaderFrame) : (s.takeOutbound g f).order = s.order := by
  unfold State.takeOutbound; repeat' (first | split | simp)

@[simp] theorem order_outboundByte (g : Nat) (b : Byte) : (State.outboundByte g s b).order = s.order := by
  unfold State.outboundByte; repeat' (first | split | simp)

@[simp] theorem order_wrongTram (ev : RouteEvent) (r : Nat) : (s.wrongTram ev r).order = s.order := by
  unfold State.wrongTram; repeat' (first | split | simp)

@[simp] theorem order_compareOutbound (g : Nat) (x : Gate) (ev : RouteEvent) :
    (s.compareOutbound g x ev).order = s.order := by
  unfold State.compareOutbound; repeat' (first | split | simp)

@[simp] theorem order_takeIdentify (g p f l : Nat) (a b : Byte) : (takeIdentify g p f l a b s).1.order = s.order := by
  unfold takeIdentify; repeat' (first | split | simp)

@[simp] theorem order_takeDiscard (g p : Nat) : (takeDiscard g p s).1.order = s.order := by
  unfold takeDiscard; repeat' (first | split | simp)

@[simp] theorem order_takeAdd (g f l : Nat) (a b : Byte) : (takeAdd g f l a b s).1.order = s.order := by
  unfold takeAdd; repeat' (first | split | simp)

@[simp] theorem order_takeArrivalResume (g : Nat) : (takeArrivalResume g s).1.order = s.order := by
  unfold takeArrivalResume; repeat' (first | split | simp)

@[simp] theorem order_takeClearOverrun (g : Nat) : (takeClearOverrun g s).1.order = s.order := by
  unfold takeClearOverrun; repeat' (first | split | simp)

@[simp] theorem order_takeGate (g : Nat) (f : Gate → Gate) : (takeGate g f s).1.order = s.order := by
  unfold takeGate; repeat' (first | split | simp)

@[simp] theorem order_takeLine (g : Nat) (v : Bool) : (takeLine g v s).1.order = s.order := by
  unfold takeLine; repeat' (first | split | simp)

@[simp] theorem order_restartArrival (g : Nat) (p : Arrival × Nat) : (State.restartArrival g s p).order = s.order := by
  unfold State.restartArrival; repeat' (first | split | simp)

/-! ## Stabling block: its own commands -/

@[simp] theorem order_postStabled (f n p : Nat) : (s.postStabled f n p).order = s.order := by
  simp [State.postStabled]

@[simp] theorem order_removeRecord (n f p : Nat) (c : StackCause) : (s.removeRecord n f p c).order = s.order := by
  simp [State.removeRecord]

@[simp] theorem order_takeArrival (n f i : Nat) (ev : Progress) : (s.takeArrival n f i ev).order = s.order := by
  unfold State.takeArrival; repeat' (first | split | simp)

@[simp] theorem order_takeDeparture (n f i : Nat) (x : StackRec) (ev : Progress) :
    (s.takeDeparture n f i x ev).order = s.order := by
  unfold State.takeDeparture; repeat' (first | split | simp)

@[simp] theorem order_takeCensus (n : Nat) (es : List CensusEntry) : (takeCensus n es s).1.order = s.order := by
  unfold takeCensus; repeat' (first | split | simp)

@[simp] theorem order_changeSiding (n : Nat) (f : SidingRec → SidingRec) (c : StackCause) :
    (changeSiding n f c s).1.order = s.order := by
  unfold changeSiding; repeat' (first | split | simp)

@[simp] theorem order_takeAbilities (n : Nat) (a : Byte) : (takeAbilities n a s).1.order = s.order := by
  unfold takeAbilities; repeat' (first | split | simp)

@[simp] theorem order_takeDoubt (n : Nat) : (takeDoubt n s).1.order = s.order := by
  unfold takeDoubt; repeat' (first | split | simp)

@[simp] theorem order_postShunt (h : Nat) (e : ShuntEntry) (p : Option ShuntPhase) (c : ShuntCause) :
    (s.postShunt h e p c).order = s.order := by
  simp [State.postShunt]

@[simp] theorem order_postPhase (h : Nat) (c : ShuntCause) : (s.postPhase h c).order = s.order := by
  unfold State.postPhase; repeat' (first | split | simp)

@[simp] theorem ordered_endShunt (ho : Ordered s.order) (h : Nat) (e : ShuntEntry) (c : ShuntCause) :
    Ordered (s.endShunt h e c).order := by
  simp [State.endShunt, ho]

@[simp] theorem order_clearIncoming (n : Nat) (c : StackCause) : (s.clearIncoming n c).order = s.order := by
  unfold State.clearIncoming; repeat' (first | split | simp)

@[simp] theorem order_requestIn (h : Nat) (c : ShuntCause) : (s.requestIn h c).1.order = s.order := by
  unfold State.requestIn
  split
  · rfl
  · rename_i e _
    dsimp only
    split
    · simp
    · split
      · simp
      · rename_i route _
        have hb := order_requestRoute (s.onShunt h (fun x => { x with inRoute := none, standing := .none })) [.shuntIn]
          (e.routeRequest h route)
        split <;> rename_i x <;> rw [x] at hb <;> simpa using hb

@[simp] theorem order_moveRecord (h : Nat) (e : ShuntEntry) : (s.moveRecord h e).order = s.order := by
  unfold State.moveRecord; repeat' (first | split | simp)

@[simp] theorem ordered_takeOutWait (ho : Ordered s.order) (h : Nat) (e : ShuntEntry) (i : Nat) (ev : Progress) :
    Ordered (s.takeOutWait h e i ev).order := by
  unfold State.takeOutWait; repeat' (first | split | simp [ho])

@[simp] theorem ordered_abandonShunt (ho : Ordered s.order) (h : Nat) (e : ShuntEntry) :
    Ordered (s.abandonShunt h e).order := by
  unfold State.abandonShunt; repeat' (first | split | simp [ho])

@[simp] theorem ordered_takeOutMoving (ho : Ordered s.order) (h : Nat) (e : ShuntEntry) (ev : Progress) :
    Ordered (s.takeOutMoving h e ev).order := by
  unfold State.takeOutMoving; repeat' (first | split | simp [ho])

@[simp] theorem ordered_takeIn (ho : Ordered s.order) (h : Nat) (e : ShuntEntry) (i : Nat) (ev : Progress) :
    Ordered (s.takeIn h e i ev).order := by
  unfold State.takeIn; repeat' (first | split | simp [ho])

@[simp] theorem order_noteInversion (f n : Nat) (b : Option StackRec) : (s.noteInversion f n b).order = s.order := by
  unfold State.noteInversion; repeat' (first | split | simp)

/-- The stabling block put back as it was. -/
theorem order_restoreStab {u : State} (h : u.order = s.order) : (u.onStab (fun _ => s.stab)).order = s.order :=
  Prod.ext (show u.order.1 = s.order.1 from congrArg Prod.fst h) rfl

@[simp] theorem order_startShunt (h f a i t o : Nat) (w : Owner) : (s.startShunt h f a i t o w).1.order = s.order := by
  have hq := order_requestRoute
    (((s.onStab (fun b => { b with shunts := Tbl.put h ⟨f, a, t, w, .outWait, o, none, .none⟩ b.shunts })).onSiding t
      (fun r => { r with incoming := some h })).markCalled a f (.shuntEntry h) s.stab.handed) [.shuntOut]
    (ShuntEntry.routeRequest h ⟨f, a, t, w, .outWait, o, none, .none⟩ o)
  simp only [order_markCalled, order_onSiding, order_putShunt] at hq
  unfold State.startShunt
  dsimp only
  split <;> rename_i e <;> rw [e] at hq
  · exact order_restoreStab s hq
  · simpa using hq

@[simp] theorem order_takeShunt (p : Port) (f t : Nat) : (takeShunt p f t s).1.order = s.order := by
  unfold takeShunt; repeat' (first | split | simp)

@[simp] theorem ordered_takeShuntCancel (ho : Ordered s.order) (p : Port) (h : Nat) :
    Ordered (takeShuntCancel p h s).1.order := by
  unfold takeShuntCancel; repeat' (first | split | simp [ho])

@[simp] theorem order_moveTarget (h t : Nat) (e : ShuntEntry) : (s.moveTarget h t e).1.order = s.order := by
  unfold State.moveTarget; repeat' (first | split | simp)

@[simp] theorem ordered_takeRetarget (ho : Ordered s.order) (h t : Nat) : Ordered (takeRetarget h t s).1.order := by
  unfold takeRetarget
  repeat' (first | split | simp [ho])
  all_goals (rename_i x; have hc := congrArg (fun p => Ordered p.1.order) x; simpa [ho] using hc)

@[simp] theorem order_noteRecord (n : Nat) (p : StackRec × Nat) : (State.noteRecord n s p).order = s.order := by
  unfold State.noteRecord; repeat' (first | split | simp)

@[simp] theorem order_noteRecords (n : Nat) (l : List (StackRec × Nat)) : (l.foldl (State.noteRecord n) s).order = s.order :=
  order_foldl s (by simp) l

@[simp] theorem order_noteSiding (p : Nat × SidingRec) : (State.noteSiding s p).order = s.order := by
  unfold State.noteSiding; repeat' (first | split | simp)

/-! ## Roster block -/

@[simp] theorem order_postRoster (d : Duty) (c : RosterCause) : (s.postRoster d c).order = s.order := by
  simp [State.postRoster]

@[simp] theorem order_takeClockSet (m : Nat) : (takeClockSet m s).1.order = s.order := by
  unfold takeClockSet; repeat' (first | split | simp)

@[simp] theorem order_onDuty (n : Nat) (f : Duty → Duty) : (s.onDuty n f).order = s.order := by
  simp [State.onDuty]

@[simp] theorem order_dropDuty (n : Nat) : (s.dropDuty n).order = s.order := by
  simp [State.dropDuty]

@[simp] theorem order_takeRosterAdd (d u g : Nat) (f m : Option Nat) : (takeRosterAdd d u g f m s).1.order = s.order := by
  unfold takeRosterAdd; repeat' (first | split | simp)

@[simp] theorem order_takeRosterRemove (d : Nat) : (takeRosterRemove d s).1.order = s.order := by
  unfold takeRosterRemove; repeat' (first | split | simp)

@[simp] theorem order_takeRosterClear : (takeRosterClear s).1.order = s.order :=
  (order_foldl _ (by simp) _).trans (order_onRoster s _)

@[simp] theorem order_takeRosterAuto (g v : Nat) : (takeRosterAuto g v s).1.order = s.order := by
  unfold takeRosterAuto; repeat' (first | split | simp)

@[simp] theorem order_makeDeparture (q : DepartAsk) (d : Departure) : (s.makeDeparture q d).order = s.order := by
  unfold State.makeDeparture; repeat' (first | split | simp)

@[simp] theorem order_undoCall (q : DepartAsk) (f : Nat) : (s.undoCall q f).order = s.order := by
  unfold State.undoCall; repeat' (first | split | simp)

@[simp] theorem order_requestDeparture (q : DepartAsk) (f n : Nat) : (s.requestDeparture q f n).1.order = s.order := by
  unfold State.requestDeparture
  split
  · simp
  · rename_i route _
    have hb := order_requestRoute s [.departure] ⟨route, q.owner, q.purpose f, some f⟩
    dsimp only
    split <;> rename_i x <;> rw [x] at hb <;> simpa using hb

@[simp] theorem order_departNamed (q : DepartAsk) (f : Nat) : (s.departNamed q f).1.order = s.order := by
  have hb := order_callClaim s f q.stackPurpose
  unfold State.departNamed
  split <;> rename_i x <;> rw [x] at hb <;> simpa using hb

@[simp] theorem order_departOpen (q : DepartAsk) (d : Nat) (m : Option Nat) : (s.departOpen q d m).1.order = s.order := by
  have hb := order_selectionClaim s d q.gate m (s.roster.duties.filterMap Duty.fleet)
  unfold State.departOpen
  split <;> rename_i x <;> rw [x] at hb <;> simpa using hb

@[simp] theorem order_departDuty (d : Nat) (o : Owner) : (s.departDuty d o).1.order = s.order := by
  unfold State.departDuty; repeat' (first | split | simp)

@[simp] theorem order_departFleet (f g : Nat) (o : Owner) : (s.departFleet f g o).1.order = s.order := by
  unfold State.departFleet; repeat' (first | split | simp)

@[simp] theorem order_takeDepart (p : Port) (d f g : Option Nat) : (takeDepart p d f g s).1.order = s.order := by
  unfold takeDepart; repeat' (first | split | simp)

@[simp] theorem order_postExpired (d : Option Nat) (f : Nat) (ev : Progress) : (s.postExpired d f ev).order = s.order := by
  simp [State.postExpired]

@[simp] theorem order_followDuty (e : Duty) (d : Departure) (ev : RouteEvent) : (s.followDuty e d ev).order = s.order := by
  unfold State.followDuty; repeat' (first | split | simp)

@[simp] theorem order_followFleet (d : Departure) (ev : RouteEvent) : (s.followFleet d ev).order = s.order := by
  unfold State.followFleet; repeat' (first | split | simp)

@[simp] theorem order_postDueBlocked (e : Duty) (f : Option Nat) (b : Bool) (l : List Field) :
    (s.postDueBlocked e f b l).order = s.order := by
  simp [State.postDueBlocked]

@[simp] theorem order_autoCall (m : Nat) (e : Duty) : (State.autoCall m e s).order = s.order := by
  have hb := order_departDuty s e.duty .auto
  unfold State.autoCall
  generalize s.departDuty e.duty .auto = q at hb ⊢
  obtain ⟨q, st, why, l⟩ := q
  cases st <;> cases why <;> dsimp only <;> (repeat' (first | split | simp [hb]))

@[simp] theorem order_dueTest (m : Nat) (e : Duty) : (State.dueTest m e s).order = s.order := by
  unfold State.dueTest; repeat' (first | split | simp)

@[simp] theorem order_lateTest (m : Nat) (e : Duty) : (State.lateTest m e s).order = s.order := by
  unfold State.lateTest; repeat' (first | split | simp)

/-- A test on a planned entry keeps the base where the test does. -/
theorem order_ifPlanned {f : Duty → State → State} (h : ∀ e t, (f e t).order = t.order) (d : Nat) :
    (s.ifPlanned d f).order = s.order := by
  unfold State.ifPlanned; repeat' (first | split | simp [h])

@[simp] theorem order_minuteTests (m d : Nat) : (State.minuteTests m s d).order = s.order := by
  unfold State.minuteTests
  rw [order_ifPlanned _ (by simp), order_ifPlanned _ (by simp), order_ifPlanned _ (by simp)]

@[simp] theorem order_minuteEvent (m : Nat) : (State.minuteEvent m s).order = s.order := order_foldl s (by simp) _

@[simp] theorem order_dropDeparture (p : StackPurpose) (d : Departure) : (s.dropDeparture p d).order = s.order := by
  unfold State.dropDeparture; repeat' (first | split | simp)

@[simp] theorem order_restartDuty (e : Duty) : (s.restartDuty e).order = s.order := by
  unfold State.restartDuty; repeat' (first | split | simp)

@[simp] theorem order_restartFleet (d : Departure) : (s.restartFleet d).order = s.order := by
  simp [State.restartFleet]

/-! ## Supervision -/

@[simp] theorem order_sendAll {α : Type} (f : α → Instr) (l : List α) :
    (l.foldl (fun s a => s.send (f a)) s).order = s.order := order_foldl s (by simp) l

@[simp] theorem order_takeHalt (v : Bool) : (takeHalt v s).1.order = s.order := by
  unfold takeHalt; repeat' (first | split | simp)

@[simp] theorem order_postRaised (a : Alarm) (c : Nat) (st : AlarmState) (p : Nat) :
    (s.postRaised a c st p).order = s.order := by
  simp [State.postRaised]

@[simp] theorem order_takeRaise (a : Alarm) : (s.takeRaise a).order = s.order := by
  unfold State.takeRaise; repeat' (first | split | simp)

@[simp] theorem order_takeConditionEnd (a : Alarm) : (s.takeConditionEnd a).order = s.order := by
  unfold State.takeConditionEnd; repeat' (first | split | simp)

@[simp] theorem order_takeAlarmAck (p : Nat) (a : Option Alarm) : (takeAlarmAck p a s).1.order = s.order := by
  unfold takeAlarmAck; repeat' (first | split | simp)

@[simp] theorem order_takeAckAll : (takeAckAll s).1.order = s.order := by
  simp [takeAckAll]

@[simp] theorem order_handRestart (r : Req) : (s.handRestart r).order = s.order := by
  simp [State.handRestart]

end Sys2Proof.Machine

/-! # What a taking does to the records -/

namespace Sys2Proof.Machine

section

variable (s : State)

/-- What every taking but a power-on reset, a definition record and a commit leaves: the base, apart from the lines, the time
and the queue. -/
def State.held : Base := { s.base with pending := [], uptime := 0, pins := .idle }

/-- A state that holds the records of another, its tables in order where those were. -/
def Keeps (s u : State) : Prop := u.held = s.held ∧ (Ordered s.order → Ordered u.order)

/-- A taking that ends in a state which keeps the records. -/
def KeptBy (s : State) (r : Result) : Prop := ∃ u, r = done u ∧ Keeps s u

variable {s}

theorem kept_done {u : State} (hb : u.base = s.base) (ho : Ordered s.order → Ordered u.order) : KeptBy s (done u) :=
  ⟨u, rfl, by simp only [State.held, hb], ho⟩

/-- A request whose owner keeps the base and the order: refused or admitted, it keeps the records. -/
theorem kept_takeRequest {i : Instr} {k : Kind} {r : Req} {owner : State → State × Ans}
    (hb : ∀ u, (owner u).1.base = u.base) (ho : ∀ u, Ordered u.order → Ordered (owner u).1.order) :
    KeptBy s (takeRequest i k r s owner) := by
  obtain ⟨t, a, he, rfl | rfl⟩ := takeRequest_done s i k r owner
  · rw [he]; exact kept_done (by simp [hb]) (fun h => by simpa using ho (s.take i) (by simpa using h))
  · rw [he]; exact kept_done (by simp) (by simp)

end

section

variable (s : State)

/-! ### Ports -/

@[simp] theorem order_takePortOwned (i : Instr) : (takePortOwned i s).1.order = s.order := by
  unfold takePortOwned
  split
  · simp [takeStatus]
  · simp [takeSubscribe]
  · simp [takePortReset]
  · unfold takeTableSelect; repeat' (first | split | simp)
  · unfold takeTableNext; repeat' (first | split | simp)
  · rfl

@[simp] theorem order_handOver (p : Port) : (s.handOver p).order = s.order := by
  unfold State.handOver; repeat' (first | split | simp)

@[simp] theorem order_settle : s.settle.order = s.order := by simp [State.order]

theorem kept_controlFrame (p : Port) (l : List LineChar) : KeptBy s (execControlFrame p l s) :=
  kept_done (base_foldl s (by simp) l) (by rw [order_foldl s (by simp) l]; exact id)

theorem kept_frameGap (p : Port) : KeptBy s (execFrameGap p s) := kept_done (by simp) (by simp)
theorem kept_lineBreak (p : Port) : KeptBy s (execLineBreak p s) := kept_done (by simp) (by simp)
theorem kept_frameSent (p : Port) : KeptBy s (execFrameSent p s) := kept_done (by simp) (by simp)

/-! ### Occupancy monitor and point controller -/

/-- A new signal on a line is no part of what is held. -/
theorem kept_onPins {u : State} (f : Pins → Pins) (hb : u.base = (s.onPins f).base) (ho : u.order = s.order) :
    KeptBy s (done u) :=
  ⟨u, rfl, by rw [State.held, hb]; rfl, by rw [ho]; exact id⟩

theorem kept_occupancyInputChange (n : Nat) (v : LineSignal) : KeptBy s (execOccupancyInputChange n v s) := by
  unfold execOccupancyInputChange
  dsimp only
  split
  · exact kept_onPins s _ (base_takeLevel _ n _ _) (by simp)
  · exact kept_onPins s _ rfl rfl

theorem kept_confirmationTimerExpiry (n : Nat) : KeptBy s (execConfirmationTimerExpiry n s) := by
  unfold execConfirmationTimerExpiry
  repeat' split
  all_goals exact kept_done (by simp) (by simp)

theorem kept_detectionChange (n : Nat) (a b : DetectSignal) : KeptBy s (execDetectionChange n a b s) := by
  unfold execDetectionChange
  dsimp only
  split
  · exact kept_onPins s _ (base_takeReading _ n _ _) (by simp)
  · exact kept_onPins s _ rfl rfl

theorem kept_throwTimerExpiry (n : Nat) : KeptBy s (execThrowTimerExpiry n s) := by
  unfold execThrowTimerExpiry
  repeat' split
  all_goals exact kept_done (by simp) (by simp)

theorem kept_coolDownExpiry (n : Nat) : KeptBy s (execCoolDownExpiry n s) := by
  unfold execCoolDownExpiry
  repeat' split
  all_goals exact kept_done (by simp) (by simp)

theorem kept_pointRestart : KeptBy s (execPointRestart s) :=
  kept_done ((base_foldl _ (by simp) _).trans (base_take s _)) (by rw [order_send, order_foldl _ (by simp)]; exact id)

/-! ### Route setter -/

theorem kept_forceFlagReport (n : Nat) (v : Bool) : KeptBy s (execForceFlagReport n v s) := by
  unfold execForceFlagReport
  split <;> exact kept_done (by simp) (by simp)

theorem kept_routeOccupyEdge (n : Nat) (c : EdgeCause) : KeptBy s (execRouteOccupyEdge n c s) := by
  unfold execRouteOccupyEdge
  dsimp only
  split <;> exact kept_done (by simp) (by simp)

theorem kept_routeClearEdge (n : Nat) (c : EdgeCause) : KeptBy s (execRouteClearEdge n c s) := by
  unfold execRouteClearEdge
  dsimp only
  split
  · exact kept_done (by simp) (fun h => by simp [h])
  · exact kept_done (by simp) (by simp)

theorem kept_pointStateReport (r : PointReport) : KeptBy s (execPointStateReport r s) := by
  unfold execPointStateReport
  dsimp only
  repeat' split
  all_goals exact kept_done (by simp) (fun h => by simp [h])

theorem kept_withheldReply (slot n : Nat) : KeptBy s (execWithheldReply slot n s) := by
  unfold execWithheldReply
  dsimp only
  repeat' split
  all_goals exact kept_done (by simp) (by simp)

theorem kept_storeTimerExpiry (n : Nat) : KeptBy s (execStoreTimerExpiry n s) := by
  unfold execStoreTimerExpiry
  split <;> exact kept_done (by simp) (by simp)

theorem kept_timeReleaseExpiry (slot : Nat) : KeptBy s (execTimeReleaseExpiry slot s) := by
  unfold execTimeReleaseExpiry
  repeat' split
  all_goals exact kept_done (by simp) (fun h => by simp [h])

theorem kept_routeHaltReport (v : Bool) : KeptBy s (execRouteHaltReport v s) := by
  unfold execRouteHaltReport
  dsimp only
  split
  · exact kept_done (by simp) (by simp)
  · exact kept_done (by rw [base_foldl _ (by simp)]; simp) (by rw [order_foldl _ (by simp)]; simp)

/-- The restart of the route setter empties its table, and an empty table is in order. -/
theorem kept_routeRestart : KeptBy s (execRouteRestart s) := by
  have hf := order_foldl (s.take .routeRestart) (f := State.dropEntry) (by simp) (s.take .routeRestart).route.table
  rw [order_take] at hf
  refine kept_done ?_ (fun h => ⟨List.Pairwise.nil, ?_⟩)
  · rw [base_send, base_onRoute, base_freeSections, base_foldl _ (by simp), base_take]
  · exact (congrArg Prod.snd hf).mpr h.2

/-! ### Gate controllers -/

theorem kept_inboundFrame (g : Nat) (l : List Byte) : KeptBy s (execInboundFrame g l s) :=
  kept_done (base_foldl s (by simp) l) (by rw [order_foldl s (by simp) l]; exact id)

theorem kept_outboundFrame (g : Nat) (l : List Byte) : KeptBy s (execOutboundFrame g l s) :=
  kept_done (base_foldl s (by simp) l) (by rw [order_foldl s (by simp) l]; exact id)

theorem kept_readerOccupyEdge (g : Nat) (c : EdgeCause) : KeptBy s (execReaderOccupyEdge g c s) := by
  unfold execReaderOccupyEdge
  dsimp only
  repeat' split
  all_goals exact kept_done (by simp) (by simp)

theorem kept_readerClearEdge (g : Nat) (c : EdgeCause) : KeptBy s (execReaderClearEdge g c s) := by
  unfold execReaderClearEdge
  dsimp only
  repeat' split
  all_goals exact kept_done (by simp) (by simp)

theorem kept_readerWaitExpiry (g : Nat) : KeptBy s (execReaderWaitExpiry g s) := by
  unfold execReaderWaitExpiry
  repeat' split
  all_goals exact kept_done (by simp) (by simp)

theorem kept_earlyReadExpiry (g : Nat) : KeptBy s (execEarlyReadExpiry g s) := kept_done (by simp) (by simp)

theorem kept_stackingReport (g : Nat) (r : StackReport) : KeptBy s (execStackingReport g r s) := by
  unfold execStackingReport
  dsimp only
  split <;> exact kept_done (by simp) (by simp)

theorem kept_gateHaltReport (g : Nat) (v : Bool) : KeptBy s (execGateHaltReport g v s) := kept_done (by simp) (by simp)

theorem kept_gateArrivalEvent (g : Nat) (ev : RouteEvent) : KeptBy s (execGateArrivalEvent g ev s) := by
  unfold execGateArrivalEvent
  dsimp only
  repeat' split
  all_goals exact kept_done (by simp) (by simp)

theorem kept_gateDepartureEvent (g : Nat) (ev : RouteEvent) : KeptBy s (execGateDepartureEvent g ev s) := by
  unfold execGateDepartureEvent
  dsimp only
  repeat' split
  all_goals exact kept_done (by simp) (by simp)

theorem kept_gateRestart (g : Nat) : KeptBy s (execGateRestart g s) := by
  unfold execGateRestart
  dsimp only
  split
  · exact kept_done (by rw [base_send, base_foldl _ (by simp)]; simp) (by rw [order_send, order_foldl _ (by simp)]; simp)
  · exact kept_done (by simp) (by simp)

/-! ### Stabling block -/

theorem kept_stablingArrivalEvent (ev : RouteEvent) : KeptBy s (execStablingArrivalEvent ev s) := by
  unfold execStablingArrivalEvent
  dsimp only
  repeat' split
  all_goals exact kept_done (by simp) (by simp)

theorem kept_stablingDepartureEvent (ev : RouteEvent) : KeptBy s (execStablingDepartureEvent ev s) := by
  unfold execStablingDepartureEvent
  dsimp only
  repeat' split
  all_goals exact kept_done (by simp) (by simp)

theorem kept_bodyEdge (n : Nat) (o : Occ) (c : EdgeCause) : KeptBy s (execBodyEdge n o c s) := by
  unfold execBodyEdge
  dsimp only
  repeat' split
  all_goals exact kept_done (by simp) (by simp)

theorem kept_shuntOutEvent (ev : RouteEvent) : KeptBy s (execShuntOutEvent ev s) := by
  unfold execShuntOutEvent
  dsimp only
  repeat' split
  all_goals exact kept_done (by simp) (fun h => by simp [h])

theorem kept_shuntInEvent (ev : RouteEvent) : KeptBy s (execShuntInEvent ev s) := by
  unfold execShuntInEvent
  dsimp only
  repeat' split
  all_goals exact kept_done (by simp) (fun h => by simp [h])

/-- The restart of the stabling block empties the shunt table, and an empty table is in order. -/
theorem kept_stablingRestart : KeptBy s (execStablingRestart s) := by
  have hk : Tbl.keys (s.stab.sidings.map (fun p => (p.1, p.2.restart))) = Tbl.keys s.stab.sidings :=
    Tbl.keys_map s.stab.sidings (fun p => p.2.restart)
  refine kept_done ?_ ?_
  · rw [base_send, base_report, base_foldl _ (by simp)]
    simp [State.base, hk]
  · rw [order_send, order_report, order_foldl _ (by simp)]
    exact fun h => ⟨h.1, List.Pairwise.nil⟩

/-! ### Roster block and supervision -/

theorem kept_minuteTimerExpiry : KeptBy s (execMinuteTimerExpiry s) := by
  unfold execMinuteTimerExpiry
  dsimp only
  repeat' split
  all_goals exact kept_done (by simp) (by simp)

theorem kept_rosterDepartureEvent (ev : RouteEvent) : KeptBy s (execRosterDepartureEvent ev s) := by
  unfold execRosterDepartureEvent
  dsimp only
  repeat' split
  all_goals exact kept_done (by simp) (by simp)

theorem kept_rosterHaltReport (v : Bool) : KeptBy s (execRosterHaltReport v s) := kept_done (by simp) (by simp)

theorem kept_rosterRestart : KeptBy s (execRosterRestart s) :=
  kept_done (by rw [base_send, base_onRoster, base_foldl _ (by simp), base_foldl _ (by simp), base_take])
    (by rw [order_send, order_onRoster, order_foldl _ (by simp), order_foldl _ (by simp), order_take]; exact id)

theorem kept_restart (r : Req) : KeptBy s (execRestart r s) := by
  unfold execRestart
  dsimp only
  repeat' split
  all_goals exact kept_done (by simp) (by simp)

theorem kept_restartTakenReport (b : Block) : KeptBy s (execRestartTakenReport b s) := by
  unfold execRestartTakenReport
  dsimp only
  repeat' split
  all_goals exact kept_done (by simp) (by simp)

end
end Sys2Proof.Machine

namespace Sys2Proof.Machine

section

variable {s t u : State}

theorem held_congr (h : u.base = s.base) : u.held = s.held := by simp only [State.held, h]

theorem Keeps.of_base (hb : u.base = s.base) (ho : u.order = s.order) : Keeps s u :=
  ⟨held_congr hb, by rw [ho]; exact id⟩

theorem Keeps.trans (h : Keeps s t) (h' : Keeps t u) : Keeps s u := ⟨h'.1.trans h.1, h'.2 ∘ h.2⟩

theorem Keeps.settle (s : State) : Keeps s s.settle := .of_base (base_settle s) (order_settle s)

end

/-- The tables of a description stand in order. -/
def Description.Ordered (d : Description) : Prop :=
  Tbl.wf d.sections ∧ Tbl.wf d.points ∧ Tbl.wf d.sidings ∧ Tbl.wf d.gates ∧ Tbl.wf d.headShunts ∧ Tbl.wf d.routes

/-- What a taking can do to the records: it keeps them; in CONFIG it loads a definition record or enters RUN; or it is a power-on
reset. -/
inductive Taken (c : Instr) (s : State) : State → Prop where
  | keeps {u : State} : Keeps s u → Taken c s u
  | loads {u : State} (f : Description → Description) : s.op = .config → (∀ d, d.Ordered → (f d).Ordered) →
      Keeps (s.onDesc f) u → Taken c s u
  | enters {u : State} : s.op = .config → Keeps s.enterRun u → Taken c s u
  | resets (straps : Straps) : c = .powerOnReset straps → Taken c s (.afterPowerOn s.pins straps s.pending)

section

variable {s : State}

/-- R2, R3: the owner of a definition record or a commit looks at it in CONFIG alone. -/
theorem takeRequest_loads (c : Instr) {k : Kind} (r : Req) (owner : State → State × Ans) (hk : k.loads = true) :
    ∃ u, takeRequest c k r s owner = done u ∧ (Keeps s u ∨ s.op = .config ∧ Keeps (owner (s.take c)).1 u) := by
  have refused (why : Reason) : Keeps s ((s.take c).reply k r (.refused why)) := .of_base (by simp) (by simp)
  unfold takeRequest
  dsimp only
  split
  · exact ⟨_, rfl, .inl (refused _)⟩
  · split
    · exact ⟨_, rfl, .inl (refused _)⟩
    · rename_i hs
      have hop : s.op = .config := by
        cases h : s.op with
        | config => rfl
        | run => simp [State.stateCheck, hk, h] at hs
      exact ⟨_, rfl, .inr ⟨hop, .of_base (by simp) (by simp)⟩⟩

/-- A definition record: its owner leaves the state, or stores into the description. -/
theorem taken_load (c : Instr) {k : Kind} (r : Req) {owner : State → State × Ans} {f : Description → Description}
    (hk : k.loads = true) (hf : ∀ d, d.Ordered → (f d).Ordered)
    (ho : ∀ u, (owner u).1 = u ∨ (owner u).1 = u.onDesc f) :
    ∃ u, takeRequest c k r s owner = done u ∧ Taken c s u := by
  obtain ⟨u, he, h | ⟨hop, h⟩⟩ := takeRequest_loads (s := s) c r owner hk
  · exact ⟨u, he, .keeps h⟩
  · refine ⟨u, he, ?_⟩
    rcases ho (s.take c) with hu | hu <;> rw [hu] at h
    · exact .keeps (Keeps.trans (.of_base (by simp) (by simp)) h)
    · exact .loads f hop hf (Keeps.trans ⟨rfl, id⟩ h)

/-- R4: a load leaves the state, or stores into the description. -/
theorem load_cases (ok : Bool) (f : Description → Description) (u : State) :
    (load ok f u).1 = u ∨ (load ok f u).1 = u.onDesc f := by
  unfold load
  split
  · exact .inr rfl
  · exact .inl rfl

/-- CONFIG_COMMIT keeps the records or, in CONFIG, enters RUN. -/
theorem taken_configCommit (r : Req) : ∃ u, exec (.configCommit r) s = done u ∧ Taken (.configCommit r) s u := by
  obtain ⟨u, he, h | ⟨hop, h⟩⟩ := takeRequest_loads (s := s) (.configCommit r) (k := .configCommit) r takeCommit rfl
  · exact ⟨u, he, .keeps h⟩
  · refine ⟨u, he, ?_⟩
    unfold takeCommit at h
    split at h
    · exact .keeps (Keeps.trans (.of_base (by simp) (by simp)) h)
    · exact .enters hop (Keeps.trans ⟨rfl, id⟩ h)

theorem taken_sectionDef (r : Req) (n k : Nat) (g sd : Option Nat) (sel : Nat) :
    ∃ u, exec (.sectionDef r n k g sd sel) s = done u ∧ Taken (.sectionDef r n k g sd sel) s u := by
  cases hk : SectionKind.ofCode? k with
  | none => exact taken_load _ r (f := id) rfl (fun _ => id) (fun u => .inl (by simp [takeSectionDef, hk]))
  | some kind =>
    cases hs : Selection.ofCode? sel with
    | none => exact taken_load _ r (f := id) rfl (fun _ => id) (fun u => .inl (by simp [takeSectionDef, hs]))
    | some selection =>
      refine taken_load _ r (f := fun d => { d with sections := Tbl.put n ⟨kind, g, sd, selection⟩ d.sections }) rfl
        (fun _ ⟨hd, h⟩ => ⟨Tbl.wf_put hd _ _, h⟩) (fun u => ?_)
      simpa only [takeSectionDef, hk, hs] using load_cases _ _ u

theorem taken_pointDef (r : Req) (n : Nat) (sc : Option Nat) (l : Nat) :
    ∃ u, exec (.pointDef r n sc l) s = done u ∧ Taken (.pointDef r n sc l) s u := by
  refine taken_load _ r rfl ?_ (load_cases _ _)
  exact fun _ ⟨h1, h, h2⟩ => ⟨h1, Tbl.wf_put h n _, h2⟩

theorem taken_sidingDef (r : Req) (n m b l : Nat) (ab : Byte) :
    ∃ u, exec (.sidingDef r n m b l ab) s = done u ∧ Taken (.sidingDef r n m b l ab) s u := by
  cases ha : Needs.ofByte? ab with
  | none => exact taken_load _ r (f := id) rfl (fun _ => id) (fun u => .inl (by simp [takeSidingDef, ha]))
  | some a =>
    refine taken_load _ r (f := fun d => { d with sidings := Tbl.put n ⟨m, b, l, a⟩ d.sidings }) rfl
      (fun _ ⟨h1, h2, h, h3⟩ => ⟨h1, h2, Tbl.wf_put h _ _, h3⟩) (fun u => ?_)
    simpa only [takeSidingDef, ha] using load_cases _ _ u

theorem taken_gateDef (r : Req) (n sg rd : Nat) (ap : List Nat) (out : Nat) :
    ∃ u, exec (.gateDef r n sg rd ap out) s = done u ∧ Taken (.gateDef r n sg rd ap out) s u := by
  refine taken_load _ r rfl ?_ (load_cases _ _)
  exact fun _ ⟨h1, h2, h3, h, h4⟩ => ⟨h1, h2, h3, Tbl.wf_put h n _, h4⟩

theorem taken_headshuntDef (r : Req) (n m : Nat) :
    ∃ u, exec (.headshuntDef r n m) s = done u ∧ Taken (.headshuntDef r n m) s u := by
  refine taken_load _ r rfl ?_ (load_cases _ _)
  exact fun _ ⟨h1, h2, h3, h4, h, h5⟩ => ⟨h1, h2, h3, h4, Tbl.wf_put h n _, h5⟩

theorem taken_routeDef (r : Req) (p : List Byte) : ∃ u, exec (.routeDef r p) s = done u ∧ Taken (.routeDef r p) s u := by
  cases hp : decodeRouteDef p with
  | none => exact taken_load _ r (f := id) rfl (fun _ => id) (fun u => .inl (by simp [takeRouteDef, hp]))
  | some x =>
    obtain ⟨n, d⟩ := x
    refine taken_load _ r (f := fun e => { e with routes := Tbl.put n d e.routes }) rfl
      (fun _ ⟨h1, h2, h3, h4, h5, h⟩ => ⟨h1, h2, h3, h4, h5, Tbl.wf_put h _ _⟩) (fun u => ?_)
    simpa only [takeRouteDef, hp] using load_cases _ _ u

theorem taken_yardParams (r : Req) (f : ParamFields) :
    ∃ u, exec (.yardParams r f) s = done u ∧ Taken (.yardParams r f) s u := by
  refine taken_load _ r rfl ?_ (load_cases _ _)
  exact fun _ => id

end


section

variable {s t : State}

theorem KeptBy.taken {c : Instr} (h : KeptBy s (exec c s)) : ∃ u, exec c s = done u ∧ Taken c s u :=
  let ⟨u, he, hk⟩ := h
  ⟨u, he, .keeps hk⟩

/-- R171: a request that its port answers. -/
theorem kept_portOwned (i : Instr) (k : Kind) (r : Req) : KeptBy s (takeRequest i k r s (takePortOwned i)) :=
  kept_takeRequest (by simp) (by simp)

theorem kept_routeCancel (r : Req) (n : Nat) : KeptBy s (execRouteCancel r n s) :=
  kept_takeRequest (by simp) (fun _ h => by simp [h])

theorem kept_depart (r : Req) (d f g : Option Nat) : KeptBy s (execDepart r d f g s) :=
  kept_takeRequest (by simp) (by simp)

/-- Every command ends its taking in one of these ways, in every state. -/
theorem exec_taken (c : Instr) (s : State) : ∃ u, exec c s = done u ∧ Taken c s u := by
  cases c with
  | powerOnReset straps => exact ⟨_, rfl, .resets straps rfl⟩
  | sectionDef r n k g sd sel => exact taken_sectionDef r n k g sd sel
  | pointDef r n sc l => exact taken_pointDef r n sc l
  | sidingDef r n m b l ab => exact taken_sidingDef r n m b l ab
  | gateDef r n sg rd ap out => exact taken_gateDef r n sg rd ap out
  | headshuntDef r n m => exact taken_headshuntDef r n m
  | routeDef r p => exact taken_routeDef r p
  | yardParams r f => exact taken_yardParams r f
  | configCommit r => exact taken_configCommit r
  | controlFrame p l => exact (kept_controlFrame s p l).taken
  | frameGap p => exact (kept_frameGap s p).taken
  | lineBreak p => exact (kept_lineBreak s p).taken
  | frameSent p => exact (kept_frameSent s p).taken
  | occupancyInputChange n v => exact (kept_occupancyInputChange s n v).taken
  | confirmationTimerExpiry n => exact (kept_confirmationTimerExpiry s n).taken
  | detectionChange n a b => exact (kept_detectionChange s n a b).taken
  | throwTimerExpiry n => exact (kept_throwTimerExpiry s n).taken
  | coolDownExpiry n => exact (kept_coolDownExpiry s n).taken
  | pointRestart => exact (kept_pointRestart s).taken
  | forceFlagReport n v => exact (kept_forceFlagReport s n v).taken
  | routeOccupyEdge n e => exact (kept_routeOccupyEdge s n e).taken
  | routeClearEdge n e => exact (kept_routeClearEdge s n e).taken
  | pointStateReport r => exact (kept_pointStateReport s r).taken
  | withheldReply slot n => exact (kept_withheldReply s slot n).taken
  | storeTimerExpiry n => exact (kept_storeTimerExpiry s n).taken
  | timeReleaseExpiry slot => exact (kept_timeReleaseExpiry s slot).taken
  | routeHaltReport v => exact (kept_routeHaltReport s v).taken
  | routeRestart => exact (kept_routeRestart s).taken
  | inboundFrame g l => exact (kept_inboundFrame s g l).taken
  | outboundFrame g l => exact (kept_outboundFrame s g l).taken
  | readerOccupyEdge g e => exact (kept_readerOccupyEdge s g e).taken
  | readerClearEdge g e => exact (kept_readerClearEdge s g e).taken
  | readerWaitExpiry g => exact (kept_readerWaitExpiry s g).taken
  | earlyReadExpiry g => exact (kept_earlyReadExpiry s g).taken
  | stackingReport g r => exact (kept_stackingReport s g r).taken
  | gateHaltReport g v => exact (kept_gateHaltReport s g v).taken
  | gateArrivalEvent g ev => exact (kept_gateArrivalEvent s g ev).taken
  | gateDepartureEvent g ev => exact (kept_gateDepartureEvent s g ev).taken
  | gateRestart g => exact (kept_gateRestart s g).taken
  | stablingArrivalEvent ev => exact (kept_stablingArrivalEvent s ev).taken
  | stablingDepartureEvent ev => exact (kept_stablingDepartureEvent s ev).taken
  | bodyEdge n o e => exact (kept_bodyEdge s n o e).taken
  | shuntOutEvent ev => exact (kept_shuntOutEvent s ev).taken
  | shuntInEvent ev => exact (kept_shuntInEvent s ev).taken
  | stablingRestart => exact (kept_stablingRestart s).taken
  | minuteTimerExpiry => exact (kept_minuteTimerExpiry s).taken
  | rosterDepartureEvent ev => exact (kept_rosterDepartureEvent s ev).taken
  | rosterHaltReport v => exact (kept_rosterHaltReport s v).taken
  | rosterRestart => exact (kept_rosterRestart s).taken
  | restart r => exact (kept_restart s r).taken
  | restartTakenReport b => exact (kept_restartTakenReport s b).taken
  | occupancyRestart => exact (kept_done (by simp) (by simp)).taken
  | alarmRaise a => exact (kept_done (by simp) (by simp)).taken
  | alarmConditionEnd a => exact (kept_done (by simp) (by simp)).taken
  | status r => exact (kept_portOwned (.status r) .status r).taken
  | subscribe r g => exact (kept_portOwned (.subscribe r g) .subscribe r).taken
  | portReset r => exact (kept_portOwned (.portReset r) .portReset r).taken
  | tableSelect r t q i => exact (kept_portOwned (.tableSelect r t q i) .tableSelect r).taken
  | tableNext r => exact (kept_portOwned (.tableNext r) .tableNext r).taken
  | routeCancel r n => exact (kept_routeCancel r n).taken
  | depart r d f g => exact (kept_depart r d f g).taken
  | _ => exact KeptBy.taken (kept_takeRequest (by simp) (fun _ h => by simp [h]))

end

end Sys2Proof.Machine

namespace Sys2Proof.Machine

section

variable {s t : State}

theorem keys_eq_nil {α : Type} {t : Tbl α} : Tbl.keys t = [] ↔ t = [] := List.map_eq_nil_iff

/-- Whether the records match the description is read off what is held. -/
theorem recordsMatch_congr (h : t.held = s.held) (hs : RecordsMatchTheDescription s) : RecordsMatchTheDescription t := by
  have hop : t.op = s.op := congrArg Base.op h
  have hd : t.desc = s.desc := congrArg Base.desc h
  have hf : t.inForce = s.inForce := congrArg Base.inForce h
  have h1 : Tbl.keys t.sections = Tbl.keys s.sections := congrArg Base.sections h
  have h2 : Tbl.keys t.points = Tbl.keys s.points := congrArg Base.points h
  have h3 : Tbl.keys t.gates = Tbl.keys s.gates := congrArg Base.gates h
  have h4 : Tbl.keys t.stab.sidings = Tbl.keys s.stab.sidings := congrArg Base.sidings h
  unfold RecordsMatchTheDescription at *
  rw [hop, hd, hf, h1, h2, h3, h4]
  cases ho : s.op with
  | config =>
    rw [ho] at hs
    simpa only [← keys_eq_nil, h1, h2, h3, h4] using hs
  | run =>
    rw [ho] at hs
    exact hs

theorem tablesInOrder_congr (h : Keeps s t) (hs : TablesInOrder s) : TablesInOrder t := by
  obtain ⟨hh, ho⟩ := h
  have hd : t.desc = s.desc := congrArg Base.desc hh
  have h1 : Tbl.wf t.sections ↔ Tbl.wf s.sections := Tbl.wf_congr (congrArg Base.sections hh)
  have h2 : Tbl.wf t.points ↔ Tbl.wf s.points := Tbl.wf_congr (congrArg Base.points hh)
  have h3 : Tbl.wf t.gates ↔ Tbl.wf s.gates := Tbl.wf_congr (congrArg Base.gates hh)
  have h4 : Tbl.wf t.stab.sidings ↔ Tbl.wf s.stab.sidings := Tbl.wf_congr (congrArg Base.sidings hh)
  obtain ⟨d1, d2, d3, d4, d5, d6, hs1, hs2, ht, hg, hsd, hsh⟩ := hs
  obtain ⟨ht', hsh'⟩ := ho ⟨ht, hsh⟩
  unfold TablesInOrder
  rw [hd, h1, h2, h3, h4]
  exact ⟨d1, d2, d3, d4, d5, d6, hs1, hs2, ht', hg, hsd, hsh'⟩

/-- R14: the passage to RUN makes one record for each defined object. -/
theorem recordsMatch_enterRun (s : State) : RecordsMatchTheDescription s.enterRun :=
  ⟨Tbl.keys_map _ _, Tbl.keys_map _ _, Tbl.keys_map _ _, Tbl.keys_map _ _, rfl⟩

theorem tablesInOrder_enterRun (hs : TablesInOrder s) : TablesInOrder s.enterRun := by
  obtain ⟨d1, d2, d3, d4, d5, d6, -⟩ := hs
  exact ⟨d1, d2, d3, d4, d5, d6, (Tbl.wf_congr (Tbl.keys_map _ _)).mpr d1, (Tbl.wf_congr (Tbl.keys_map _ _)).mpr d2, .nil,
    (Tbl.wf_congr (Tbl.keys_map _ _)).mpr d4, (Tbl.wf_congr (Tbl.keys_map _ _)).mpr d3, .nil⟩

/-- In CONFIG a record loaded leaves every block empty. -/
theorem recordsMatch_onDesc (f : Description → Description) (ho : s.op = .config) (hs : RecordsMatchTheDescription s) :
    RecordsMatchTheDescription (s.onDesc f) := by
  unfold RecordsMatchTheDescription at *
  rw [State.onDesc_op, ho] at *
  exact hs

theorem tablesInOrder_onDesc {f : Description → Description} (hf : ∀ d, d.Ordered → (f d).Ordered) (hs : TablesInOrder s) :
    TablesInOrder (s.onDesc f) := by
  obtain ⟨d1, d2, d3, d4, d5, d6, hr⟩ := hs
  obtain ⟨e1, e2, e3, e4, e5, e6⟩ := hf s.desc ⟨d1, d2, d3, d4, d5, d6⟩
  exact ⟨e1, e2, e3, e4, e5, e6, hr⟩

theorem tablesInOrder_afterPowerOn (pins : Pins) (straps : Straps) (l : List Instr) :
    TablesInOrder (.afterPowerOn pins straps l) :=
  ⟨.nil, .nil, .nil, .nil, .nil, .nil, .nil, .nil, .nil, .nil, .nil, .nil⟩

/-- R1, R3, R14: every command keeps the records matched to the description. -/
theorem exec_recordsMatch {c : Instr} (hs : RecordsMatchTheDescription s) (h : exec c s = .next t) :
    RecordsMatchTheDescription t := by
  obtain ⟨u, he, hu⟩ := exec_taken c s
  rw [h] at he
  cases he
  refine recordsMatch_congr (Keeps.settle u).1 ?_
  cases hu with
  | keeps hk => exact recordsMatch_congr hk.1 hs
  | loads f ho _ hk => exact recordsMatch_congr hk.1 (recordsMatch_onDesc f ho hs)
  | enters _ hk => exact recordsMatch_congr hk.1 (recordsMatch_enterRun s)
  | resets => exact ⟨rfl, rfl, rfl, rfl, rfl⟩

/-- R4: every command keeps the tables in order. -/
theorem exec_tablesInOrder {c : Instr} (hs : TablesInOrder s) (h : exec c s = .next t) : TablesInOrder t := by
  obtain ⟨u, he, hu⟩ := exec_taken c s
  rw [h] at he
  cases he
  refine tablesInOrder_congr (Keeps.settle u) ?_
  cases hu with
  | keeps hk => exact tablesInOrder_congr hk hs
  | loads f _ hf hk => exact tablesInOrder_congr hk (tablesInOrder_onDesc hf hs)
  | enters _ hk => exact tablesInOrder_congr hk (tablesInOrder_enterRun hs)
  | resets => exact tablesInOrder_afterPowerOn _ _ _

/-- Time that passes keeps the records. -/
theorem keeps_tick (s : State) : Keeps s s.tick :=
  ⟨by simp [State.held, State.base, State.tick], fun h => ⟨(Tbl.wf_congr (Tbl.keys_map _ _)).mpr h.1, h.2⟩⟩

/-- A step is a command taken, on a queue that it may have left, or time that passes. -/
theorem step_cases (h : step s = .next t) :
    (∃ c rest, exec c { s with pending := rest } = .next t) ∨ t = s.tick := by
  unfold step State.idle at h
  split at h
  · exact .inl ⟨_, _, h⟩
  · split at h
    · exact .inl ⟨_, s.pending, h⟩
    · split at h
      · exact .inl ⟨_, s.pending, h⟩
      · cases h; exact .inr rfl

end

/-! # The obligations on records and on reset -/

/-- Settles O56: no command makes or loses a record or puts a table out of order (`exec_taken`), and time that passes changes
timers alone. -/
theorem recordsMatchEveryStep : Obligations.RecordsMatchEveryStep := by
  refine ⟨fun s t hs h => ?_, fun s t hs h => ?_⟩
  · obtain ⟨c, rest, he⟩ | rfl := step_cases h
    · exact exec_recordsMatch (s := { s with pending := rest }) hs he
    · exact recordsMatch_congr (keeps_tick s).1 hs
  · obtain ⟨c, rest, he⟩ | rfl := step_cases h
    · exact exec_tablesInOrder (s := { s with pending := rest }) hs he
    · exact tablesInOrder_congr (keeps_tick s) hs

/-- Settles O59: in RUN a command that is no power-on reset keeps what is held (`exec_taken`). -/
theorem descriptionIsFixedInRun : Obligations.DescriptionIsFixedInRun := by
  intro c s t hop hc h
  obtain ⟨u, he, hu⟩ := exec_taken c s
  rw [h] at he
  cases he
  have hk : Keeps s u := by
    cases hu with
    | keeps hk => exact hk
    | loads f ho => exact absurd (hop.symm.trans ho) (by decide)
    | enters ho => exact absurd (hop.symm.trans ho) (by decide)
    | resets straps hr => exact absurd hr (hc straps)
  have hh : u.settle.held = s.held := (hk.trans (.settle u)).1
  exact ⟨(congrArg Base.op hh).trans hop, congrArg Base.desc hh, congrArg Base.inForce hh⟩

/-! ## Reset -/

/-- A port with nothing to do stays as it is. -/
theorem goOn_idle {s : State} {p : Port} (hq : (s.port p).queue = []) (hp : (s.port p).path = [])
    (hn : (s.port p).notices = []) : s.goOn p = s := by
  have hh : s.handOver p = s := by
    unfold State.handOver
    rw [hq]
    split
    · rename_i h; cases h
    · rfl
  simp [State.goOn, hp, State.pump, hh, hn]

/-- With an empty route table no signal shows proceed (R71). -/
theorem proceedSignals_empty {s : State} (h : s.route.table = []) : s.proceedSignals = [] := by
  simp [State.proceedSignals, State.aspect, h]

/-- R1: a power-on reset leaves nothing for the end of its taking to do. -/
theorem settle_afterPowerOn (pins : Pins) (straps : Straps) (l : List Instr) :
    (State.afterPowerOn pins straps l).settle = .afterPowerOn pins straps l := by
  have ho : (State.afterPowerOn pins straps l).setOutputs = .afterPowerOn pins straps l := by
    change { State.afterPowerOn pins straps l with
      route := { RouteSetter.empty with proceed := (State.afterPowerOn pins straps l).proceedSignals } } = _
    rw [proceedSignals_empty rfl]
    rfl
  rw [State.settle, ho, goOn_idle (p := .desk) rfl rfl rfl, goOn_idle (p := .planner) rfl rfl rfl,
    goOn_idle (p := .line) rfl rfl rfl]

theorem afterReset_afterPowerOn (pins : Pins) (straps : Straps) (l : List Instr) :
    AfterReset straps (.afterPowerOn pins straps l) :=
  ⟨rfl, rfl, rfl, rfl, rfl, rfl, rfl, rfl, rfl, rfl, rfl, rfl, rfl, rfl, rfl⟩

/-- Settles O50: the state after a power-on reset has no output line to set and no port with anything to do, so the end of the
taking leaves it as it is. -/
theorem powerOnReset : Obligations.PowerOnReset := by
  refine ⟨fun straps s => ⟨.afterPowerOn s.pins straps s.pending, ?_, afterReset_afterPowerOn _ _ _, rfl, rfl⟩,
    afterReset_afterPowerOn _ _ _, rfl⟩
  exact congrArg Host.Outcome.next (settle_afterPowerOn s.pins straps s.pending)

/-- Settles O58: at reset every table is empty. -/
theorem invariantsHoldAtReset : Obligations.InvariantsHoldAtReset := by
  refine ⟨⟨(proceedSignals_empty rfl).symm, ?_, rfl⟩, ⟨rfl, rfl, rfl, rfl, rfl⟩, ?_, tablesInOrder_afterPowerOn _ _ _⟩
  · intro m x h
    cases h
  · intro n r p h
    cases h

end Sys2Proof.Machine

/-! # What a request is refused for before its owner looks at it (01 sections 1.1, 1.4, 1.5; 09 section 9.3) -/

namespace Sys2Proof.Machine

section

/-! ## The kind table, and when a request is taken -/

/-- R171's kind table, as ranges of KIND. -/
theorem permits_eq_mayMake (k : Kind) (p : Port) : k.permits p = mayMake p k.code := by
  cases k <;> cases p <;> rfl

/-- The definition records and the commit are the kinds 0x08 to 0x0F. -/
theorem loads_eq_isIn (k : Kind) : k.loads = isIn k.code 0x08 0x0F := by cases k <;> rfl

/-- The requests that the port owns are the kinds up to 0x05. -/
theorem ownedByPort_eq (k : Kind) : k.ownedByPort = !decide (0x05 < k.code) := by cases k <;> rfl

/-- R14: a request is taken in CONFIG where the part is in CONFIG, or the request in hand is this one, handed on in CONFIG. -/
theorem takenIn_eq (k : Kind) (q : Req) (s : State) : s.takenIn k q =
    if s.op = .config ∨ (s.port q.port).inHand.any (fun h => h.isFor k q && h.handedIn = .config) = true
      then .config else .run := by
  unfold State.takenIn
  cases ho : s.op with
  | config => simp
  | run =>
    cases hh : (s.port q.port).inHand with
    | none => simp
    | some h =>
      have hw : (s.port q.port).awaits (BitVec.ofNat 8 k.code) q.tag = h.isFor k q := by
        rw [awaits_eq, hh]; rfl
      cases hf : h.isFor k q <;> cases hi : h.handedIn <;> simp [hw, hf, hi]

/-! ## Refusals before the owner -/

/-- What refuses a request before its owner looks at it: a check of the port (R171), and then the operating state (R2, R3). -/
def State.refusal (s : State) (c : Instr) (k : Kind) (q : Req) : Option Reason :=
  ((s.take c).portCheck ((s.take c).takenIn k q) k q.port c).or ((s.take c).stateCheck k q)

/-- A request is taken as `takeRequest` says, but for RESTART, which is answered later (R190). -/
theorem exec_of_request {c : Instr} {k : Kind} {q : Req} (hc : requestOf c = some (k, q)) (s : State) :
    c = .restart q ∨ ∃ owner, exec c s = takeRequest c k q s owner := by
  cases c with
  | restart r => cases hc; exact .inl rfl
  | _ => cases hc <;> exact .inr ⟨_, rfl⟩

/-- A request that is refused before its owner looks at it is answered with the reason, and changes nothing. -/
theorem exec_refusal {c : Instr} {k : Kind} {q : Req} (hc : requestOf c = some (k, q)) {s : State} {why : Reason}
    (h : s.refusal c k q = some why) : exec c s = done ((s.take c).reply k q (.refused why)) := by
  unfold State.refusal at h
  rw [Option.or_eq_some_iff] at h
  obtain rfl | ⟨owner, he⟩ := exec_of_request hc s
  · cases hc
    unfold exec execRestart
    rcases h with h | ⟨h, h'⟩
    · dsimp only; rw [h]
    · dsimp only; rw [h, h']
  · rw [he]
    exact takeRequest_refused s owner h

/-- The refusals in the order of R171 and R2. -/
theorem refusal_eq (s : State) (c : Instr) (k : Kind) (q : Req) : s.refusal c k q =
    if !k.permits q.port then some .notPermitted
    else if !c.codesOk || c.gateNamed.any (fun g => decide (s.takenIn k q = .run) && (Tbl.find g s.desc.gates).isNone) then
      some .badArgument
    else if (if k.loads then s.op = .run else s.takenIn k q = .config ∧ k.ownedByPort = false) then some .wrongState
    else none := by
  have hst : (s.take c).stateCheck k q =
      if (if k.loads then s.op = .run else s.takenIn k q = .config ∧ k.ownedByPort = false) then some .wrongState else none := by
    cases hl : k.loads
    · cases ho : k.ownedByPort <;> simp [State.stateCheck, hl, ho]
    · by_cases hr : s.op = .run <;> simp [State.stateCheck, hl, hr]
  unfold State.refusal State.portCheck
  rw [hst, takenIn_take]
  cases k.permits q.port
  · rfl
  · cases c.codesOk
    · rfl
    · cases c.gateNamed with
      | none => simp
      | some g =>
        by_cases hg : s.takenIn k q = .run ∧ (Tbl.find g s.desc.gates).isNone = true
        · simp [hg]
        · simp only [State.take_desc, hg, Bool.not_true, if_false, Option.any_some]
          rw [not_and, Bool.not_eq_true] at hg
          by_cases ht : s.takenIn k q = .run <;> simp [ht, hg]

theorem request_refusedInOrder : checksBeforeTheOwner := by
  intro c k q s hc
  dsimp only
  intro r hr
  refine ⟨(s.take c).reply k q (.refused r), exec_refusal hc ?_, effect_answer s c k q _ []⟩
  rw [refusal_eq, permits_eq_mayMake, loads_eq_isIn, ownedByPort_eq, takenIn_eq, ← hr]
  cases c.gateNamed <;> simp

/-! ## Objects with no definition record -/

/-- In RUN, a request from a port that may make it, naming no gate, is refused BAD_ARGUMENT where its codes are not given or its owner
refuses it so. -/
theorem refused_badArgument {c : Instr} {k : Kind} {q : Req} {s : State} {owner : State → State × Ans}
    (hk : k.permits q.port = true) (hg : c.gateNamed = none) (hr : InRun q s) (hl : k.loads = false)
    (ho : owner (s.take c) = (s.take c, .refused .badArgument)) :
    ∃ u, takeRequest c k q s owner = .next u.settle ∧
      Effect [] (s.claims.erase c) id (some (k, q, ⟨.refused, some .badArgument, []⟩)) s u := by
  refine ⟨(s.take c).reply k q (.refused .badArgument), ?_, effect_answer s c k q _ []⟩
  cases hc : c.codesOk with
  | true => rw [takeRequest_run hk hc hg hr hl, ho]; rfl
  | false => exact takeRequest_refused s owner (.inl (by simp [State.portCheck, hk, hc]))

theorem undefinedObject_refused : undefinedObjectsAreRefused := by
  intro q n s hr
  refine ⟨fun hp hn => ?_, fun hp hn => ?_, fun hn => ?_, fun hn => ?_⟩
  · have hk : decide (q.port = .desk) = true := decide_eq_true hp
    exact ⟨refused_badArgument hk rfl hr rfl (by simp [takeForceOn, hn]),
      refused_badArgument hk rfl hr rfl (by simp [takeForceOff, hn]),
      refused_badArgument hk rfl hr rfl (by simp [takeSectionQuery, hn])⟩
  · have hk : decide (q.port = .desk) = true := decide_eq_true hp
    exact ⟨fun code => refused_badArgument hk rfl hr rfl (by simp [takePointThrow, hn]),
      refused_badArgument hk rfl hr rfl (by simp [takePointBlock, hn]),
      refused_badArgument hk rfl hr rfl (by simp [takePointRestore, hn]),
      refused_badArgument hk rfl hr rfl (by simp [takePointQuery, hn])⟩
  · refine ⟨refused_badArgument (c := .routeCancel q n) (k := .routeCancel) (owner := takeRouteCancel q.port n) rfl rfl hr rfl
      (by simp [takeRouteCancel, State.routeDef, hn]), fun hp => ?_⟩
    have hk : decide (q.port = .desk) = true := decide_eq_true hp
    exact ⟨refused_badArgument hk rfl hr rfl (by simp [takeRouteSet, State.requestRoute, State.routeDef, hn, Granted.ans]),
      refused_badArgument hk rfl hr rfl (by simp [takeRouteResume, State.routeDef, hn]),
      refused_badArgument hk rfl hr rfl (by simp [takeForceRelease, State.routeDef, hn])⟩
  · refine ⟨fun hp => ?_, fun hp => ?_, fun hp f => ?_⟩
    · have hk : decide (q.port = .planner) = true := decide_eq_true hp
      refine ⟨fun es => refused_badArgument hk rfl hr rfl (by simp [takeCensus, hn]), fun ab => ?_⟩
      refine refused_badArgument hk rfl hr rfl ?_
      unfold takeAbilities
      split
      · simp [changeSiding, hn]
      · rfl
    · have hk : decide (q.port = .desk) = true := decide_eq_true hp
      exact ⟨refused_badArgument hk rfl hr rfl (by simp [changeSiding, hn]),
        refused_badArgument hk rfl hr rfl (by simp [changeSiding, hn]),
        refused_badArgument hk rfl hr rfl (by simp [takeDoubt, hn]),
        fun h => refused_badArgument hk rfl hr rfl (by simp [takeRetarget, hn])⟩
    · have hk : Kind.permits .shunt q.port = true := by
        rcases hp with hp | hp <;> rw [hp] <;> rfl
      exact refused_badArgument hk rfl hr rfl (by simp [takeShunt, hn])

/-! ## Codes: a number is the code of a value exactly where it lies in the range of the codes -/

theorem sectionKind_isSome (k : Nat) : (SectionKind.ofCode? k).isSome = isIn k 1 7 := by
  rw [Bool.eq_iff_iff, SectionKind.ofCode?, List.find?_isSome]
  simp only [decide_eq_true_eq]
  simp [SectionKind.code, isIn]
  omega

theorem selection_isSome (k : Nat) : (Selection.ofCode? k).isSome = isIn k 0 4 := by
  rw [Bool.eq_iff_iff, Selection.ofCode?]
  split
  · simp [isIn]; omega
  · rw [List.find?_isSome]
    simp only [decide_eq_true_eq]
    simp [Selection.code, isIn]
    omega

theorem routeKind_isSome (k : Nat) : (RouteKind.ofCode? k).isSome = isIn k 1 5 := by
  rw [Bool.eq_iff_iff, RouteKind.ofCode?, List.find?_isSome]
  simp only [decide_eq_true_eq]
  simp [RouteKind.code, isIn]
  omega

theorem position_isSome (k : Nat) : (Position.ofCode? k).isSome = isIn k 1 2 := by
  rw [Bool.eq_iff_iff, Position.ofCode?, List.find?_isSome]
  simp only [decide_eq_true_eq]
  simp [Position.code, isIn]
  omega

theorem setting_isSome (k : Nat) : (settingOfCode? k).isSome = isIn k 1 2 := by
  rw [Bool.eq_iff_iff, settingOfCode?]
  split
  · simp [isIn, *]
  · split
    · simp [isIn, *]
    · simp [isIn]; omega

theorem needs_isSome (b : Byte) : (Needs.ofByte? b).isSome = decide (b.toNat ≤ 0x0F) := by
  rw [Bool.eq_iff_iff, Needs.ofByte?]
  split <;> simp <;> omega

/-- R188: an alarm kind with its object; IRREGULAR_CLEARANCE alone has a section too. -/
theorem alarm_isSome (k o : Nat) (sc : Option Nat) :
    (Alarm.ofFields? k o sc).isSome = (isIn k 1 10 && (sc.isSome == decide (k = 6))) := by
  rw [Bool.eq_iff_iff]
  unfold Alarm.ofFields?
  split
  case h_11 h1 h2 h3 h4 h5 h6 h7 h8 h9 h10 =>
    cases sc with
    | some n => simpa [isIn] using fun _ _ => h6 n
    | none => simp [isIn] at *; omega
  all_goals simp [isIn]

/-- R171: a ROUTE_DEF's route kind is its second byte. -/
theorem routeDef_codesOk (q : Req) (p : List Byte) :
    (Instr.routeDef q p).codesOk = (decide (2 ≤ p.length) && (p[1]?).any (fun k => isIn k.toNat 1 5)) := by
  match p with
  | [] => rfl
  | [_] => rfl
  | _ :: k :: l => simpa [Instr.codesOk] using routeKind_isSome k.toNat

theorem codesOk_eq (c : Instr) : c.codesOk = givenCodes c := by
  cases c with
  | subscribe r g => exact decide_eq_decide.mpr Nat.lt_succ_iff
  | tableSelect r t q i => simp [Instr.codesOk, givenCodes, isIn]
  | sectionDef r n k g sd sel => simp [Instr.codesOk, givenCodes, sectionKind_isSome, selection_isSome]
  | sidingDef r n m b l ab => exact needs_isSome ab
  | sidingAbilities r n ab => exact needs_isSome ab
  | routeDef r p => exact routeDef_codesOk r p
  | yardParams r f =>
    simp only [Instr.codesOk, givenCodes, isInOpt]
    cases f.inversion with
    | none => rfl
    | some c =>
      change decide (c = 1 ∨ c = 2) = (decide (1 ≤ c) && decide (c ≤ 2))
      rw [← Bool.decide_and]
      exact decide_eq_decide.mpr (by omega)
  | pointThrow r n pos => exact position_isSome pos
  | arrivalIdentify r g p f l ma wa => simp [Instr.codesOk, givenCodes, needs_isSome]
  | arrivalAdd r g f l ma wa => simp [Instr.codesOk, givenCodes, needs_isSome]
  | censusSet r n es => simp [Instr.codesOk, givenCodes, needs_isSome]
  | rosterAuto r g st => exact setting_isSome st
  | alarmAck r pos k o sc => exact alarm_isSome k o sc
  | _ => rfl

theorem gateNamed_eq (c : Instr) : c.gateNamed = gateOfRequest c := by cases c <;> rfl

end

/-- Settles O46: the port's checks and the state check as one list of refusals (`refusal_eq`), the owners' refusals of an undefined
object, and the codes field by field. -/
theorem requestsAreCheckedFirst : Obligations.RequestsAreCheckedFirst :=
  ⟨request_refusedInOrder, undefinedObject_refused, fun c => ⟨codesOk_eq c, gateNamed_eq c⟩⟩

end Sys2Proof.Machine

/-! # CONFIG_COMMIT (01 sections 1.2.7, 1.3, 1.4) -/

namespace Sys2Proof.Machine

section

/-! ## Faults in order (R12, R13) -/

/-- A list of checks with the codes of their faults. -/
def coded (checks : List (Bool × CommitFault)) : List (Bool × Nat) := checks.map (fun c => (c.1, c.2.code))

theorem firstFault_code (checks : List (Bool × CommitFault)) :
    (firstFault checks).map CommitFault.code = firstFailing (coded checks) := by
  unfold firstFault firstFailing coded
  rw [List.find?_map]
  simp [Function.comp_def]

theorem coded_cons {a b : Bool} {f : CommitFault} {m : Nat} {l : List (Bool × CommitFault)} {l' : List (Bool × Nat)}
    (h : a = b) (hf : f.code = m) (hl : coded l = l') : coded ((a, f) :: l) = (b, m) :: l' := by
  rw [h, ← hf, ← hl]; rfl

/-- A fault with the code of its record kind and its own. -/
def faultCodes (x : Kind × Nat × CommitFault) : Nat × Nat × Nat := (x.1.code, x.2.1, x.2.2.code)

/-- The first record of a kind that fails a check, by the codes. -/
theorem faultIn_codes {α : Type} (k : Kind) {checks : Nat → α → List (Bool × CommitFault)} {tests : Nat → α → List (Bool × Nat)}
    (h : ∀ n r, (firstFault (checks n r)).map CommitFault.code = firstFailing (tests n r)) (t : Tbl α) :
    (faultIn k checks t).map faultCodes =
      t.findSome? (fun p => (firstFailing (tests p.1 p.2)).map (fun f => (k.code, p.1, f))) := by
  induction t with
  | nil => rfl
  | cons p t ih =>
    obtain ⟨n, r⟩ := p
    unfold faultIn
    rw [List.findSome?_cons, ← h n r, ← ih]
    cases firstFault (checks n r) <;> rfl

variable (d : Description)

theorem hasSection_eq : d.hasSection = fun n => (Tbl.find n d.sections).isSome := rfl

theorem isKind_eq : d.isKind = sectionIs d := by
  funext k n
  unfold Description.isKind Description.kindOf sectionIs
  cases Tbl.find n d.sections <;> simp

theorem not_lt_eq_le (m n : Nat) : (!decide (m < n)) = decide (n ≤ m) := by
  rw [← decide_not]
  exact decide_eq_decide.mpr Nat.not_lt

/-- A record found has a number in a field. -/
theorem bind_eq_some {α : Type} (o : Option α) (f : α → Option Nat) (n : Nat) :
    decide (o.bind f = some n) = o.any (fun x => f x = some n) := by
  cases o <;> simp

/-- An object that a field names is defined, or the field is absent. -/
theorem all_isSome {α : Type} (o : Option Nat) (t : Tbl α) :
    o.all (fun g => (Tbl.find g t).isSome) = (o.isNone || (o.bind (fun g => Tbl.find g t)).isSome) := by
  cases o <;> simp

/-- R13: the checks of a SECTION_DEF are the tests of one, in their order; so for each kind below. -/
theorem sectionChecks_coded (n : Nat) (r : SectionDef) : coded (d.sectionChecks n r) = sectionTests d n r := by
  obtain ⟨k, g, sd, sel⟩ := r
  refine coded_cons ?_ rfl (coded_cons ?_ rfl (coded_cons ?_ rfl rfl))
  · cases k <;> cases g <;> cases sd <;> rfl
  · cases g <;> cases sd <;> simp
  · cases k <;> simp

theorem sidingChecks_coded (n : Nat) (r : SidingDef) : coded (d.sidingChecks n r) = sidingTests d n r := by
  refine coded_cons rfl rfl (coded_cons ?_ rfl (coded_cons ?_ rfl (coded_cons rfl rfl rfl)))
  · simp [isKind_eq]
  · simp [bind_eq_some]

theorem gateChecks_coded (n : Nat) (r : GateDef) : coded (d.gateChecks n r) = gateTests d n r := by
  refine coded_cons ?_ rfl (coded_cons ?_ rfl (coded_cons rfl rfl (coded_cons ?_ rfl rfl)))
  · simp [hasSection_eq, Bool.and_comm]
  · simp [isKind_eq]
  · simp [bind_eq_some, Bool.and_comm]

theorem headShuntChecks_coded (n m : Nat) : coded (d.headShuntChecks n m) = headShuntTests d n m := by
  refine coded_cons rfl rfl (coded_cons (by rw [isKind_eq]) rfl (coded_cons ?_ rfl rfl))
  congr 1
  funext p
  simp [not_lt_eq_le]

/-- A POINT_DEF with no section fails its first check; where it has one, the checks are the tests. -/
theorem pointFault (n : Nat) (r : PointDef) :
    (firstFault (d.pointChecks n r)).map CommitFault.code = firstFailing (pointTests d r) := by
  obtain ⟨sc, l⟩ := r
  cases sc with
  | none => rfl
  | some m =>
    rw [firstFault_code]
    congr 1
    exact coded_cons rfl rfl (coded_cons rfl rfl (coded_cons (by simp [isKind_eq]) rfl rfl))

theorem points_fst (r : RouteDef) :
    r.points.map Prod.fst = r.path.flatMap (fun e => e.settings.map Setting.point) ++ r.flank.map Flank.point := by
  simp [RouteDef.points, List.map_flatMap, Function.comp_def]

/-- R13: the gate, siding or head shunt that from and to name, by kind. -/
theorem endsDefined_eq (r : RouteDef) : d.endsDefined r = match r.kind with
    | .arrival => (r.fromObj.isNone || (r.fromObj.bind (fun g => Tbl.find g d.gates)).isSome) &&
        (r.toObj.isNone || (r.toObj.bind (fun x => Tbl.find x d.sidings)).isSome)
    | .departure => (r.fromObj.isNone || (r.fromObj.bind (fun x => Tbl.find x d.sidings)).isSome) &&
        (r.toObj.isNone || (r.toObj.bind (fun g => Tbl.find g d.gates)).isSome)
    | .shuntOut => (r.fromObj.isNone || (r.fromObj.bind (fun x => Tbl.find x d.sidings)).isSome) &&
        (r.toObj.isNone || (r.toObj.bind (fun h => Tbl.find h d.headShunts)).isSome)
    | .shuntIn => (r.fromObj.isNone || (r.fromObj.bind (fun h => Tbl.find h d.headShunts)).isSome) &&
        (r.toObj.isNone || (r.toObj.bind (fun x => Tbl.find x d.sidings)).isSome)
    | .yard => true := by
  obtain ⟨k, o, fromObj, toObj, approach, destination, path, flank⟩ := r
  cases k <;> simp only [Description.endsDefined, all_isSome]

/-- An end that a path does not hold. -/
theorem all_not_contains (o : Option Nat) (l : List Nat) : o.all (fun x => !l.contains x) = l.all (fun m => o ≠ some m) := by
  cases o with
  | none => simp
  | some x =>
    rw [Bool.eq_iff_iff]
    simp
    exact ⟨fun h y hy e => h (e ▸ hy), fun h hx => h x hx rfl⟩

theorem routeChecks_coded (n : Nat) (r : RouteDef) : coded (d.routeChecks n r) = routeTests d n r := by
  have hp (f : Nat → Bool) : r.points.all (fun p => f p.1) =
      (r.path.flatMap (fun e => e.settings.map Setting.point) ++ r.flank.map Flank.point).all f := by
    rw [← points_fst, List.all_map]; rfl
  unfold Description.routeChecks routeTests
  dsimp only
  rw [points_fst, show r.path.map Element.sect = r.sections from rfl, hp (fun p => (Tbl.find p d.points).isSome),
    endsDefined_eq, hasSection_eq, isKind_eq, all_not_contains, all_not_contains]
  refine coded_cons ?_ rfl <| coded_cons rfl rfl <| coded_cons ?_ rfl <| coded_cons rfl rfl <| coded_cons rfl rfl <|
    coded_cons ?_ rfl <| coded_cons ?_ rfl <| coded_cons rfl rfl <| coded_cons ?_ rfl <| coded_cons ?_ rfl <|
    coded_cons ?_ rfl <| coded_cons ?_ rfl <| coded_cons ?_ rfl <| coded_cons ?_ rfl <| coded_cons ?_ rfl <|
    coded_cons ?_ rfl rfl
  · unfold fieldsForKind
    cases r.kind <;> rfl
  · simp [bind_eq_some]
  · simp [Bool.and_assoc]
  · rw [Bool.eq_iff_iff]
    simp [forall_and]
  · simp
  · simp
  · simp
  · simp
  · simp
  · simp
  · simp [Bool.and_assoc]
  · simp [not_lt_eq_le, Bool.or_assoc]

theorem findSome?_id_cons {α : Type} (a : Option α) (l : List (Option α)) :
    (a :: l).findSome? id = a.or (l.findSome? id) := by
  cases a <;> rfl

/-- R12, R13: the fault that a commit finds first. -/
theorem commitFault_inOrder : faultsAreFoundInOrder := by
  intro d
  have coded_fault {α : Type} {checks : Nat → α → List (Bool × CommitFault)} {tests : Nat → α → List (Bool × Nat)}
      (h : ∀ n r, coded (checks n r) = tests n r) (n : Nat) (r : α) :
      (firstFault (checks n r)).map CommitFault.code = firstFailing (tests n r) := by
    rw [firstFault_code, h]
  change d.commitFault.map faultCodes = firstFaultOf d
  unfold Description.commitFault firstFaultOf
  simp only [Option.map_or, faultIn_codes .sectionDef (coded_fault (sectionChecks_coded d)),
    faultIn_codes .pointDef (pointFault d), faultIn_codes .sidingDef (coded_fault (sidingChecks_coded d)),
    faultIn_codes .gateDef (coded_fault (gateChecks_coded d)),
    faultIn_codes .headshuntDef (coded_fault (headShuntChecks_coded d)),
    faultIn_codes .routeDef (coded_fault (routeChecks_coded d))]
  simp only [findSome?_id_cons, List.findSome?_nil, Option.or_none]
  congr 6
  cases d.gates <;> rfl

end

/-! ## The commit (R11, R12, R14) -/

section

theorem levelOf_eq (v : LineSignal) : levelOf v = if v = .free then .clear else .occupied := by cases v <;> rfl

theorem readingOf_eq (a b : DetectSignal) : readingOf a b = readingShown a b := by cases a <;> cases b <;> rfl

theorem settledState_eq (r : Reading) : settledState r = settledAt r := by cases r <;> rfl

/-- R14: the passage to RUN touches every block, but neither the lines nor the ports. -/
theorem effect_enterRun (s : State) (c : Instr) :
    Effect [.store, .sections, .points, .routes, .gates, .stabling, .roster, .supervision] (s.claims.erase c) id none s
      (s.take c).enterRun := by
  have hp (p : Port) : (s.take c).enterRun.port p = s.port p := by cases p <;> rfl
  refine ⟨⟨rfl, rfl, fun x hx => ?_⟩, rfl, fun p => by rw [hp]; exact ⟨rfl, rfl⟩, fun p => by simp [NoAnswerAt, hp]⟩
  cases x with
  | lines => rfl
  | ports => exact fun p => by rw [hp]
  | _ => simp at hx

/-- R11: the parameters a commit puts in force: those held, or their defaults. -/
theorem enterRun_inForce (s : State) : s.enterRun.inForce =
    let p : ParamRec := s.desc.params.getD
      ⟨none, none, none, none, none, none, none, none, none, none, none, none, none, none⟩
    some ⟨p.occupyConfirm.getD 300, p.clearConfirm.getD 3, p.coolDown.getD 20, p.failureWindow.getD 600,
      p.timeRelease.getD 45, p.storeLimit.getD 180, p.readerWait.getD 2, p.spacing.getD 2, p.capacityReserve.getD 60,
      p.capacityBand.getD 40, p.queueHighMark.getD 3, p.callLead.getD 4, p.dueNoticeLead.getD 8, p.inversion.getD .hold⟩ := by
  unfold State.enterRun
  cases s.desc.params <;> rfl

/-- R14: the section records at entry to RUN: each at its input level. -/
theorem find_enterRun_sections (s : State) (m : Nat) :
    Tbl.find m s.enterRun.sections = (Tbl.find m s.desc.sections).map (SectionRec.atEntry s.pins m) :=
  Tbl.find_map s.desc.sections (SectionRec.atEntry s.pins) m

/-- R14: the point records at entry to RUN. -/
theorem find_enterRun_points (s : State) (m : Nat) :
    Tbl.find m s.enterRun.points = (Tbl.find m s.desc.points).map (PointRec.atEntry s.pins m) :=
  Tbl.find_map s.desc.points (PointRec.atEntry s.pins) m

/-- R14: the gates at entry to RUN. -/
theorem find_enterRun_gates (s : State) (m : Nat) :
    Tbl.find m s.enterRun.gates = (Tbl.find m s.desc.gates).map (Gate.atEntry s.pins) :=
  Tbl.find_map s.desc.gates (fun _ => Gate.atEntry s.pins) m

/-- R14: the sidings at entry to RUN. -/
theorem find_enterRun_sidings (s : State) (m : Nat) :
    Tbl.find m s.enterRun.stab.sidings = (Tbl.find m s.desc.sidings).map SidingRec.atEntry :=
  Tbl.find_map s.desc.sidings (fun _ => SidingRec.atEntry) m

/-- R12, R14: a commit is refused with the first fault, or every block takes up its starting state. -/
theorem commit_decided : commitIsDecided := by
  intro q s hq hop
  have hk : decide (q.port = .planner) = true := decide_eq_true hq
  have he : exec (.configCommit q) s = _ :=
    takeRequest_config (k := .configCommit) (i := .configCommit q) hk rfl rfl hop rfl takeCommit
  dsimp only
  rw [he]
  cases hf : s.desc.commitFault with
  | some x =>
    obtain ⟨k, n, f⟩ := x
    have hc : takeCommit (s.take (.configCommit q)) =
        (s.take (.configCommit q), .refused .badArgument [.u8 k.code, .u8 n, .u8 f.code]) := by
      unfold takeCommit
      rw [State.take_desc, hf]
    exact ⟨_, by rw [hc]; rfl, effect_answer s (.configCommit q) .configCommit q _ []⟩
  | none =>
    refine ⟨(s.take (.configCommit q)).enterRun.reply .configCommit q .done, ?_,
      effect_reply .configCommit q _ (effect_enterRun s _), ?_⟩
    · simp [takeCommit, hf, done]
    · simp only [State.reply_op, State.reply_desc, State.reply_inForce, State.reply_sections, State.reply_points,
        State.reply_route, State.reply_gates, State.reply_stab, State.reply_roster, State.reply_sup,
        find_enterRun_sections, find_enterRun_points, find_enterRun_gates, find_enterRun_sidings, enterRun_inForce,
        ← levelOf_eq, ← readingOf_eq, ← settledState_eq]
      exact ⟨rfl, rfl, rfl, fun _ => rfl, fun _ => rfl, rfl, fun _ => rfl, fun _ => rfl, rfl, rfl, rfl, rfl⟩

end

/-- Settles O45: the commit's two outcomes, and its checks as the ordered tests of R13 (`commitFault_inOrder`). -/
theorem commitEntersRun : Obligations.CommitEntersRun := ⟨commit_decided, commitFault_inOrder⟩

end Sys2Proof.Machine

/-! # The ROUTE_DEF payload (R180; 09 section 9.7) -/

namespace Sys2Proof.Machine

section

/-! ## Setting bytes (09 section 9.7) -/

/-- The number of a setting byte: 128, 32 more for REVERSE, and the point number less 1. -/
def settingNumber (point : Nat) (p : Position) : Nat :=
  128 + (match p with | .normal => 0 | .reverse => 32) + (point - 1)

/-- A setting byte by its number: bit 7 set, bit 6 clear. -/
theorem setting_ofByte?_eq (b : Byte) : Setting.ofByte? b =
    if b.toNat / 128 % 2 = 1 ∧ b.toNat / 64 % 2 = 0 then
      some ⟨b.toNat % 32 + 1, if b.toNat / 32 % 2 = 1 then .reverse else .normal⟩
    else none := by
  simp [Setting.ofByte?, BitVec.getLsbD, Nat.testBit_eq_decide_div_mod_eq]

/-- A byte stands for the setting whose number it is. -/
theorem setting_ofByte?_eq_some {b : Byte} {st : Setting} :
    Setting.ofByte? b = some st ↔ isIn st.point 1 32 = true ∧ b.toNat = settingNumber st.point st.position := by
  obtain ⟨n, pos⟩ := st
  have hb := b.isLt
  rw [setting_ofByte?_eq]
  cases pos <;> simp [isIn, settingNumber] <;> omega

theorem getLsbD_seven (b : Byte) : b.getLsbD 7 = decide (128 ≤ b.toNat) := by
  have hb := b.isLt
  rw [BitVec.getLsbD, Nat.testBit_eq_decide_div_mod_eq]
  exact decide_eq_decide.mpr (by omega)

/-! ## The path (R180) -/

/-- An element's fields lie in their ranges (R10). -/
def ElementFits (e : Element) : Prop :=
  isIn e.sect 1 64 = true ∧ e.settings.length ≤ 3 ∧ ∀ x ∈ e.settings, isIn x.point 1 32 = true

/-- The numbers of an element's bytes: its section, then its settings. -/
def elementNumbers (e : Element) : List Nat := e.sect :: e.settings.map (fun x => settingNumber x.point x.position)

/-- A section byte begins an element. -/
theorem decodePath_section {b : Byte} (h : isIn b.toNat 1 64 = true) (bs : List Byte) (acc : List Element) :
    decodePath (b :: bs) acc = decodePath bs (⟨b.toNat, []⟩ :: acc) := by
  simp only [isIn, Bool.and_eq_true, decide_eq_true_eq] at h
  rw [decodePath.eq_def]
  dsimp only
  rw [getLsbD_seven]
  simp [h, show ¬128 ≤ b.toNat by omega]

/-- A setting byte joins the element begun last. -/
theorem decodePath_setting {b : Byte} {st : Setting} {e : Element} (h : Setting.ofByte? b = some st)
    (hl : e.settings.length < 3) (bs : List Byte) (acc : List Element) :
    decodePath (b :: bs) (e :: acc) = decodePath bs ({ e with settings := e.settings ++ [st] } :: acc) := by
  have h7 : b.getLsbD 7 = true := by
    rw [setting_ofByte?_eq] at h
    rw [getLsbD_seven]
    split at h
    · simp; omega
    · cases h
  rw [decodePath.eq_def]
  dsimp only
  rw [h7, h]
  simp [hl]

/-- The bytes of a path decoded are of these two kinds alone. -/
theorem decodePath_cons {b : Byte} {bs : List Byte} {acc es : List Element} (h : decodePath (b :: bs) acc = some es) :
    (isIn b.toNat 1 64 = true ∧ decodePath bs (⟨b.toNat, []⟩ :: acc) = some es) ∨
    ∃ st e l, acc = e :: l ∧ Setting.ofByte? b = some st ∧ e.settings.length < 3 ∧
      decodePath bs ({ e with settings := e.settings ++ [st] } :: l) = some es := by
  rw [decodePath.eq_def] at h
  dsimp only at h
  split at h
  · split at h
    · rename_i st e l hs
      split at h
      · exact .inr ⟨st, e, l, rfl, hs, ‹_›, h⟩
      · cases h
    · cases h
  · split at h
    · exact .inl ⟨by simpa [isIn] using ‹_›, h⟩
    · cases h

/-- What a path decodes to fits R10, and its numbers are those of the bytes. -/
theorem decodePath_sound {bs : List Byte} {acc es : List Element} (h : decodePath bs acc = some es)
    (ha : ∀ e ∈ acc, ElementFits e) :
    (∀ e ∈ es, ElementFits e) ∧ es.flatMap elementNumbers = acc.reverse.flatMap elementNumbers ++ bs.map BitVec.toNat := by
  induction bs generalizing acc with
  | nil =>
    cases h
    simpa using ha
  | cons b bs ih =>
    obtain ⟨hb, h⟩ | ⟨st, e, l, rfl, hs, hl, h⟩ := decodePath_cons h
    · obtain ⟨hf, hn⟩ := ih h (by simp only [List.forall_mem_cons]; exact ⟨⟨hb, by simp, by simp⟩, ha⟩)
      exact ⟨hf, by simp [hn, elementNumbers]⟩
    · obtain ⟨hst, hb⟩ := setting_ofByte?_eq_some.mp hs
      obtain ⟨⟨h1, h2, h3⟩, hr⟩ := List.forall_mem_cons.mp ha
      obtain ⟨hf, hn⟩ := ih h (List.forall_mem_cons.mpr ⟨⟨h1, by simpa using hl, by
        intro x hx
        rcases List.mem_append.mp hx with hx | hx
        · exact h3 x hx
        · rw [List.mem_singleton.mp hx]; exact hst⟩, hr⟩)
      exact ⟨hf, by simp [hn, elementNumbers, hb]⟩

/-- The settings of an element, read one by one. -/
theorem decodePath_settings {bs : List Byte} {sts : List Setting}
    (hb : bs.map BitVec.toNat = sts.map (fun x => settingNumber x.point x.position))
    (hp : ∀ x ∈ sts, isIn x.point 1 32 = true) (n : Nat) (pre : List Setting) (hl : pre.length + sts.length ≤ 3)
    (rest : List Byte) (acc : List Element) :
    decodePath (bs ++ rest) (⟨n, pre⟩ :: acc) = decodePath rest (⟨n, pre ++ sts⟩ :: acc) := by
  induction sts generalizing bs pre with
  | nil =>
    rw [List.map_eq_nil_iff.mp hb]
    simp
  | cons st sts ih =>
    obtain ⟨b, bs, rfl, hbn, hbs⟩ := List.map_eq_cons_iff.mp hb
    obtain ⟨hst, hp⟩ := List.forall_mem_cons.mp hp
    rw [List.length_cons] at hl
    rw [List.cons_append, decodePath_setting (setting_ofByte?_eq_some.mpr ⟨hst, hbn⟩) (by simp; omega),
      ih hbs hp (pre ++ [st]) (by simp; omega)]
    simp

/-- The bytes of a path that fits R10 are read as it. -/
theorem decodePath_complete {es : List Element} {bs : List Byte} (hb : bs.map BitVec.toNat = es.flatMap elementNumbers)
    (hf : ∀ e ∈ es, ElementFits e) (acc : List Element) : decodePath bs acc = some (acc.reverse ++ es) := by
  induction es generalizing bs acc with
  | nil =>
    rw [List.map_eq_nil_iff.mp hb]
    simp [decodePath]
  | cons e es ih =>
    obtain ⟨⟨h1, h2, h3⟩, hf⟩ := List.forall_mem_cons.mp hf
    obtain ⟨b, bs, rfl, hbn, hb⟩ := List.map_eq_cons_iff.mp hb
    obtain ⟨b1, b2, rfl, hb1, hb2⟩ := List.map_eq_append_iff.mp hb
    rw [decodePath_section (by rw [hbn]; exact h1), decodePath_settings hb1 h3 _ [] (by simpa using h2), ih hb2 hf, hbn]
    simp

/-! ## The flank settings (R180) -/

/-- A flank setting's fields lie in their ranges (R10). -/
def FlankFits (f : Flank) : Prop := isIn f.point 1 32 = true ∧ isIn f.protects 1 12 = true

/-- The numbers of a flank setting's two bytes. -/
def flankNumbers (f : Flank) : List Nat := [settingNumber f.point f.position, f.protects]

/-- Two bytes and what follows stand for a flank setting and what follows it. -/
theorem decodeFlank_cons {b i : Byte} {bs : List Byte} {l : List Flank} :
    decodeFlank (b :: i :: bs) = some l ↔
      ∃ f fs, l = f :: fs ∧ FlankFits f ∧ [b.toNat, i.toNat] = flankNumbers f ∧ decodeFlank bs = some fs := by
  rw [decodeFlank.eq_def]
  dsimp only
  constructor
  · intro h
    split at h
    · rename_i st fs hs hl
      split at h
      · cases h
        obtain ⟨h1, h2⟩ := setting_ofByte?_eq_some.mp hs
        exact ⟨_, _, rfl, ⟨h1, by simpa [isIn] using ‹_›⟩, by simp [flankNumbers, h2], hl⟩
      · cases h
    · cases h
  · rintro ⟨⟨n, pos, k⟩, fs, rfl, ⟨h1, h2⟩, hn, hl⟩
    simp only [flankNumbers, List.cons.injEq, and_true] at hn
    obtain ⟨hb, rfl⟩ := hn
    rw [(setting_ofByte?_eq_some (st := ⟨n, pos⟩)).mpr ⟨h1, hb⟩, hl]
    simp only [isIn, Bool.and_eq_true, decide_eq_true_eq] at h2
    simp [h2]

/-- Bytes stand for the flank settings whose numbers they are. -/
theorem decodeFlank_eq_some : ∀ {bs : List Byte} {l : List Flank},
    decodeFlank bs = some l ↔ (∀ f ∈ l, FlankFits f) ∧ bs.map BitVec.toNat = l.flatMap flankNumbers
  | [], l => by cases l <;> simp [decodeFlank, flankNumbers]
  | [_], l => by cases l <;> simp [decodeFlank, flankNumbers]
  | b :: i :: bs, l => by
    rw [decodeFlank_cons]
    cases l with
    | nil => simp
    | cons f fs =>
      have hs : (b :: i :: bs).map BitVec.toNat = (f :: fs).flatMap flankNumbers ↔
          [b.toNat, i.toNat] = flankNumbers f ∧ bs.map BitVec.toNat = fs.flatMap flankNumbers := by
        simp [flankNumbers, and_assoc]
      rw [hs, List.forall_mem_cons]
      constructor
      · rintro ⟨f', fs', he, hf, hn, hl⟩
        cases he
        obtain ⟨h1, h2⟩ := decodeFlank_eq_some.mp hl
        exact ⟨⟨hf, h1⟩, hn, h2⟩
      · rintro ⟨⟨hf, h1⟩, hn, h2⟩
        exact ⟨f, fs, rfl, hf, hn, decodeFlank_eq_some.mpr ⟨h1, h2⟩⟩

/-! ## The whole payload -/

/-- An optional one-byte number is the byte's, absent where it is 0. -/
theorem opt8_getD (b : Byte) : (opt8 b).getD 0 = b.toNat := by
  unfold opt8
  split <;> simp [*]

/-- A byte with the number of an optional field in its range is read as that field. -/
theorem opt8_eq {b : Byte} {o : Option Nat} {top : Nat} (ho : isInOpt o 1 top = true) (hb : b.toNat = o.getD 0) : opt8 b = o := by
  unfold opt8
  cases o with
  | none => simp at hb; simp [hb]
  | some n =>
    simp [isInOpt, isIn] at ho
    simp at hb
    simp [hb]
    omega

theorem inRange?_eq (o : Option Nat) (top : Nat) : inRange? o top = isInOpt o 1 top := by
  cases o <;> simp [inRange?, isInOpt, isIn]

/-- The ranges of from and to, by the route's kind. -/
theorem fromTop_eq (k : RouteKind) : k.fromTop = match k with
    | .arrival | .shuntIn => 2 | .departure | .shuntOut | .yard => 24 := by cases k <;> rfl

theorem toTop_eq (k : RouteKind) : k.toTop = match k with
    | .departure | .shuntOut => 2 | .arrival | .shuntIn | .yard => 24 := by cases k <;> rfl

theorem routeKind_ofCode?_eq_some {n : Nat} {k : RouteKind} : RouteKind.ofCode? n = some k ↔ n = k.code := by
  constructor
  · intro h
    exact (of_decide_eq_true (List.find?_some (p := fun x : RouteKind => decide (x.code = n)) h)).symm
  · rintro rfl
    cases k <;> rfl

/-- R10's ranges: those of the numbers and bounds that the load checks, and those of the path's and the flank's fields. -/
theorem fitsLayout_iff (n : Nat) (d : RouteDef) :
    fitsLayout n d = true ↔ d.loadOk n = true ∧ (∀ e ∈ d.path, ElementFits e) ∧ ∀ f ∈ d.flank, FlankFits f := by
  have hp : d.path.all (fun e => isIn e.sect 1 64 && decide (e.settings.length ≤ 3) &&
      e.settings.all (fun x => isIn x.point 1 32)) = true ↔ ∀ e ∈ d.path, ElementFits e := by
    simp [ElementFits, and_assoc]
  have hf : d.flank.all (fun f => isIn f.point 1 32 && isIn f.protects 1 12) = true ↔ ∀ f ∈ d.flank, FlankFits f := by
    simp [FlankFits]
  unfold fitsLayout RouteDef.loadOk
  dsimp only
  rw [Bool.and_eq_true, Bool.and_eq_true, hp, hf, and_assoc]
  refine and_congr_left' ?_
  rw [fromTop_eq, toTop_eq]
  simp only [inRange?_eq, isIn, Bool.and_eq_true, decide_eq_true_eq]
  tauto

theorem routeLayout_eq (n : Nat) (d : RouteDef) : routeLayout n d =
    [n, d.kind.code, d.origin, d.fromObj.getD 0, d.toObj.getD 0, d.approach.getD 0, d.destination.getD 0,
      d.flank.length * 16 + d.path.length] ++ d.path.flatMap elementNumbers ++ d.flank.flatMap flankNumbers := by
  obtain ⟨k, _⟩ := d
  cases k <;> rfl

theorem length_flatMap_flankNumbers (l : List Flank) : (l.flatMap flankNumbers).length = 2 * l.length := by
  induction l with
  | nil => rfl
  | cons f l ih => simp [flankNumbers, ih]; omega

/-- A payload decoded has eight bytes of fields, a path and flank settings, of the counted lengths, that pass the load's checks. -/
theorem decodeRouteDef_eq_some {number kind origin fromB toB appr dest counts : Byte} {rest : List Byte} {n : Nat}
    {d : RouteDef} :
    decodeRouteDef (number :: kind :: origin :: fromB :: toB :: appr :: dest :: counts :: rest) = some (n, d) ↔
      ∃ k path flank,
        RouteKind.ofCode? kind.toNat = some k ∧
        decodePath (rest.take (rest.length - 2 * flank.length)) [] = some path ∧
        decodeFlank (rest.drop (rest.length - 2 * flank.length)) = some flank ∧
        counts.toNat = flank.length * 16 + path.length ∧ 2 * flank.length ≤ rest.length ∧
        n = number.toNat ∧ d = ⟨k, origin.toNat, opt8 fromB, opt8 toB, opt8 appr, opt8 dest, path, flank⟩ ∧
        d.loadOk n = true := by
  unfold decodeRouteDef
  dsimp only
  constructor
  · intro h
    split at h
    · rename_i k path flank hk hp hf
      split at h
      · rename_i hc
        obtain ⟨h1, h2, h3, h4, h5⟩ := hc
        cases h
        rw [← h3] at hp hf h4
        exact ⟨k, path, flank, hk, hp, hf, by omega, h4, rfl, rfl, h5⟩
      · cases h
    · cases h
  · rintro ⟨k, path, flank, hk, hp, hf, hc, hr, rfl, rfl, hl⟩
    have hb := hl
    simp only [RouteDef.loadOk, decide_eq_true_eq] at hb
    obtain ⟨_, _, _, _, _, _, _, _, _, hb1, hb2⟩ := hb
    rw [show counts.toNat / 16 % 8 = flank.length by omega, show counts.toNat % 16 = path.length by omega, hk, hp, hf]
    simp [hl, hr]
    omega

/-- R10, R180: the parts of the payload are cut apart by the counts, and each is read and written alike. -/
theorem routePayload_read : routePayloadsAreRead := by
  intro p n d
  rw [fitsLayout_iff, routeLayout_eq]
  constructor
  · intro h
    obtain ⟨number, kind, origin, fromB, toB, appr, dest, counts, rest, rfl⟩ :
        ∃ b1 b2 b3 b4 b5 b6 b7 b8 rest, p = b1 :: b2 :: b3 :: b4 :: b5 :: b6 :: b7 :: b8 :: rest := by
      unfold decodeRouteDef at h
      split at h
      · exact ⟨_, _, _, _, _, _, _, _, _, rfl⟩
      · cases h
    obtain ⟨k, path, flank, hk, hp, hf, hc, -, rfl, rfl, hl⟩ := decodeRouteDef_eq_some.mp h
    obtain ⟨hpf, hpn⟩ := decodePath_sound hp (by simp)
    obtain ⟨hff, hfn⟩ := decodeFlank_eq_some.mp hf
    refine ⟨⟨hl, hpf, hff⟩, ?_⟩
    simp only [List.reverse_nil, List.flatMap_nil, List.nil_append] at hpn
    simp only [hpn, ← hfn, opt8_getD, ← hc, routeKind_ofCode?_eq_some.mp hk, List.map_cons, ← List.map_append,
      List.take_append_drop, List.cons_append, List.nil_append]
  · rintro ⟨⟨hl, hpf, hff⟩, hn⟩
    obtain ⟨k, o, fromObj, toObj, approach, destination, path, flank⟩ := d
    simp only [List.cons_append, List.nil_append, List.map_eq_cons_iff, List.map_eq_append_iff] at hn
    obtain ⟨number, _, rfl, rfl, kind, _, rfl, hk, origin, _, rfl, rfl, fromB, _, rfl, hfrom, toB, _, rfl, hto,
      appr, _, rfl, happ, dest, _, rfl, hdest, counts, _, rfl, hc, p1, p2, rfl, hp1, hp2⟩ := hn
    have hlen : p2.length = 2 * flank.length := by
      rw [← length_flatMap_flankNumbers, ← hp2, List.length_map]
    have hcut : (p1 ++ p2).length - 2 * flank.length = p1.length := by rw [List.length_append, hlen]; omega
    have hb := hl
    simp only [RouteDef.loadOk, decide_eq_true_eq, inRange?_eq] at hb
    obtain ⟨_, _, _, _, hf', ht', ha', hd', _⟩ := hb
    refine decodeRouteDef_eq_some.mpr ⟨k, path, flank, routeKind_ofCode?_eq_some.mpr hk, ?_, ?_, hc, ?_, rfl, ?_, hl⟩
    · rw [hcut, List.take_left]
      exact decodePath_complete hp1 hpf []
    · rw [hcut, List.drop_left]
      exact decodeFlank_eq_some.mpr ⟨hff, hp2⟩
    · rw [List.length_append]; omega
    · rw [opt8_eq hf' hfrom, opt8_eq ht' hto, opt8_eq ha' happ, opt8_eq hd' hdest]

end

end Sys2Proof.Machine

/-! # The definition records (01 section 1.2) -/

namespace Sys2Proof.Machine

section

/-! ## Codes and ranges -/

theorem within_eq (n top : Nat) : within n top = isIn n 1 top := rfl

theorem fieldIn_eq (o : Option Nat) (lo hi : Nat) : fieldIn o lo hi = isInOpt o lo hi := by cases o <;> rfl

/-- R5: the section kinds in the order of their codes. -/
theorem sectionKind_ofCode? {k : Nat} (h : isIn k 1 7 = true) : SectionKind.ofCode? k =
    some ([.ladder, .approach, .reader, .gateOut, .mouth, .body, .headShunt].getD (k - 1) .ladder) := by
  simp only [isIn, Bool.and_eq_true, decide_eq_true_eq] at h
  obtain ⟨h1, h7⟩ := h
  interval_cases k <;> rfl

/-- R5: the selections in the order of their codes; 0 and 1 both stand for NONE. -/
theorem selection_ofCode? {k : Nat} (h : k ≤ 4) : Selection.ofCode? k =
    some ([.none, .none, .occupy, .clear, .both].getD k .none) := by
  interval_cases k <;> rfl

theorem needs_ofByte? {b : Byte} (h : b.toNat < 16) : Needs.ofByte? b =
    some ⟨b.getLsbD 0, b.getLsbD 1, b.getLsbD 2, b.getLsbD 3⟩ := if_pos h

/-- A payload that stands for a route gives a route kind's code. -/
theorem codesOk_of_decodeRouteDef {q : Req} {p : List Byte} (h : (decodeRouteDef p).isSome = true) :
    (Instr.routeDef q p).codesOk = true := by
  obtain ⟨⟨n, d⟩, h⟩ := Option.isSome_iff_exists.mp h
  obtain ⟨-, hp⟩ := (routePayload_read p n d).mp h
  rw [routeLayout_eq] at hp
  simp only [List.cons_append, List.nil_append, List.map_eq_cons_iff] at hp
  obtain ⟨_, _, rfl, -, kind, _, rfl, hk, -⟩ := hp
  exact Option.isSome_iff_exists.mpr ⟨d.kind, routeKind_ofCode?_eq_some.mpr hk⟩

/-! ## Loading -/

/-- A definition record changes the description, and nothing else. -/
theorem effect_onDesc (s : State) (c : Instr) (f : Description → Description) :
    Effect [.store] (s.claims.erase c) id none s ((s.take c).onDesc f) := by
  refine ⟨⟨rfl, rfl, fun x hx => ?_⟩, rfl, fun p => by simp, fun p => by simp [NoAnswerAt]⟩
  cases x with
  | store => simp at hx
  | ports => intro p; simp
  | _ => rfl

/-- What a definition record from the planner does in CONFIG: stored and DONE where it is good, else refused. -/
def LoadsAs (q : Req) (s : State) (c : Instr) (k : Kind) (ok : Bool) (d : Description) : Prop :=
  ∃ u, exec c s = .next u.settle ∧
    Effect [.store] (s.claims.erase c) id
      (some (k, q, if ok then ⟨.done, none, []⟩ else ⟨.refused, some .badArgument, []⟩)) s u ∧
    u.op = s.op ∧ u.inForce = s.inForce ∧ u.desc = if ok then d else s.desc

variable {q : Req} {s : State} {c : Instr} {k : Kind} {ok : Bool} {d : Description}

/-- R4: a record that its owner loads where its codes are given, and that is not good where one of them is not. -/
theorem loadsAs_of_load {owner : State → State × Ans} {store : Description → Description}
    (hx : exec c s = takeRequest c k q s owner) (hk : k.permits q.port = true) (hl : k.loads = true) (hg : c.gateNamed = none)
    (ho : s.op = .config) (hload : c.codesOk = true → owner (s.take c) = load ok store (s.take c))
    (hok : ok = true → c.codesOk = true) (hd : store s.desc = d) : LoadsAs q s c k ok d := by
  subst hd
  cases hc : c.codesOk with
  | false =>
    have hn : ok = false := by
      cases ok with
      | false => rfl
      | true => rw [hok rfl] at hc; cases hc
    subst hn
    refine ⟨(s.take c).reply k q (.refused .badArgument), ?_, effect_answer s c k q _ _, by simp⟩
    rw [hx]
    exact takeRequest_refused s owner (.inl (by simp [State.portCheck, hk, hc]))
  | true =>
    have he : exec c s = done ((load ok store (s.take c)).1.reply k q (load ok store (s.take c)).2) := by
      rw [hx, takeRequest_config hk hc hg ho hl, hload hc]
    cases ok with
    | false => exact ⟨_, he, effect_answer s c k q _ _, by simp [load]⟩
    | true => exact ⟨_, he, effect_reply k q _ (effect_onDesc s c store), by simp [load]⟩

/-! ## The records, kind by kind -/

variable (hq : q.port = .planner) (ho : s.op = .config)
include hq ho

/-- R4: a record with no codes of its own. -/
theorem loadsAs_of_load_noCodes {owner : State → State × Ans} {store : Description → Description}
    (hx : exec c s = takeRequest c k q s owner) (hk : k.permits .planner = true) (hl : k.loads = true) (hg : c.gateNamed = none)
    (hc : c.codesOk = true) (hload : owner (s.take c) = load ok store (s.take c)) (hd : store s.desc = d) : LoadsAs q s c k ok d :=
  loadsAs_of_load hx (hq ▸ hk) hl hg ho (fun _ => hload) (fun _ => hc) hd

/-- R5: the kind and the selection are stored by their codes; a code that is not given refuses the record at the port. -/
theorem sectionDef_loadsAs (n k : Nat) (g sd : Option Nat) (sel : Nat) :
    LoadsAs q s (.sectionDef q n k g sd sel) .sectionDef
      (isIn n 1 64 && isIn k 1 7 && isInOpt g 1 2 && isInOpt sd 1 24 && decide (sel ≤ 4))
      { s.desc with sections := (Tbl.put n
          ⟨[SectionKind.ladder, .approach, .reader, .gateOut, .mouth, .body, .headShunt].getD (k - 1) .ladder, g, sd,
            [Selection.none, .none, .occupy, .clear, .both].getD sel .none⟩ s.desc.sections) } := by
  have hcodes : (Instr.sectionDef q n k g sd sel).codesOk = (isIn k 1 7 && decide (sel ≤ 4)) := by
    rw [codesOk_eq]; simp [givenCodes, isIn]
  refine loadsAs_of_load (store := fun d => { d with sections := Tbl.put n ⟨_, g, sd, _⟩ d.sections }) rfl (hq ▸ rfl) rfl rfl ho
    (fun hc => ?_) (fun h => ?_) rfl
  · rw [hcodes, Bool.and_eq_true, decide_eq_true_eq] at hc
    obtain ⟨hkind, hsel⟩ := hc
    unfold takeSectionDef
    rw [sectionKind_ofCode? hkind, selection_ofCode? hsel]
    simp only [within_eq, inRange?_eq, hkind, hsel, Bool.and_true, decide_true]
  · rw [hcodes]
    simp only [Bool.and_eq_true] at h ⊢
    tauto

/-- R7: the abilities byte gives no bits but the lower four. -/
theorem sidingDef_loadsAs (n m b l : Nat) (ab : Byte) :
    LoadsAs q s (.sidingDef q n m b l ab) .sidingDef
      (isIn n 1 24 && isIn m 1 64 && isIn b 1 64 && decide (l ≤ 65535) && decide (ab.toNat < 16))
      { s.desc with sidings := (
          Tbl.put n ⟨m, b, l, ⟨ab.getLsbD 0, ab.getLsbD 1, ab.getLsbD 2, ab.getLsbD 3⟩⟩ s.desc.sidings) } := by
  have hcodes : (Instr.sidingDef q n m b l ab).codesOk = decide (ab.toNat < 16) := by
    rw [codesOk_eq]; exact decide_eq_decide.mpr Nat.lt_succ_iff.symm
  refine loadsAs_of_load (store := fun d => { d with sidings := Tbl.put n ⟨m, b, l, _⟩ d.sidings }) rfl (hq ▸ rfl) rfl rfl ho
    (fun hc => ?_) (fun h => ?_) rfl
  · rw [hcodes, decide_eq_true_eq] at hc
    unfold takeSidingDef
    rw [needs_ofByte? hc]
    simp only [within_eq, hc, Bool.and_true, decide_true]
  · rw [hcodes]
    simp only [Bool.and_eq_true] at h
    exact h.2

/-- R10, R180: a payload that stands for a route stores it under its number. -/
theorem routeDef_loadsAs (p : List Byte) :
    LoadsAs q s (.routeDef q p) .routeDef (decodeRouteDef p).isSome
      { s.desc with routes := (match decodeRouteDef p with
          | some (n, d) => Tbl.put n d s.desc.routes
          | none => s.desc.routes) } := by
  refine loadsAs_of_load (owner := takeRouteDef p)
    (store := fun d => { d with routes := (match decodeRouteDef p with | some (n, r) => Tbl.put n r d.routes | none => d.routes) })
    rfl (hq ▸ rfl) rfl rfl ho (fun _ => ?_) codesOk_of_decodeRouteDef rfl
  unfold takeRouteDef
  cases decodeRouteDef p <;> rfl

/-- R11: a timer field's zero is absent; the inversion's code is one of R181's. -/
theorem yardParams_loadsAs (f : ParamFields) : LoadsAs q s (.yardParams q f) .yardParams
    (isInOpt (noZero f.occupyConfirm) 100 2000 && isInOpt (noZero f.clearConfirm) 1 10 && isInOpt (noZero f.coolDown) 10 60 &&
      isInOpt (noZero f.failureWindow) 60 3600 && isInOpt (noZero f.timeRelease) 10 120 &&
      isInOpt (noZero f.storeLimit) 30 600 && isInOpt (noZero f.readerWait) 1 5 && isInOpt f.spacing 1 5 &&
      isInOpt f.capacityReserve 0 400 && isInOpt f.capacityBand 0 200 && isInOpt f.queueHighMark 1 4 &&
      isInOpt f.callLead 0 30 && isInOpt f.dueNoticeLead 0 30 && isInOpt f.inversion 1 2 &&
      decide ((noZero f.occupyConfirm).getD 300 < (noZero f.clearConfirm).getD 3 * 1000))
    { s.desc with params := some (ParamRec.ofFields f) } := by
  have hcodes : (Instr.yardParams q f).codesOk = isInOpt f.inversion 1 2 := codesOk_eq _
  refine loadsAs_of_load (owner := takeYardParams f) (store := fun d => { d with params := some (ParamRec.ofFields f) })
    rfl (hq ▸ rfl) rfl rfl ho (fun hc => ?_) (fun h => ?_) rfl
  · rw [hcodes] at hc
    unfold takeYardParams ParamRec.ok
    simp only [fieldIn_eq, hc, Bool.and_true]
    rfl
  · rw [hcodes]
    simp only [Bool.and_eq_true] at h
    obtain ⟨⟨-, hinv⟩, -⟩ := h
    exact hinv

end

/-- R4–R11: a record is good where its fields are in their ranges and its codes are given. -/
theorem definition_stored : definitionsAreStored := fun _ _ hq ho =>
  ⟨sectionDef_loadsAs hq ho,
    fun _ _ _ => loadsAs_of_load_noCodes (owner := takePointDef _ _ _) hq ho rfl rfl rfl rfl rfl
      (by unfold takePointDef; rw [inRange?_eq]; rfl) rfl,
    sidingDef_loadsAs hq ho,
    fun _ _ _ _ _ => loadsAs_of_load_noCodes hq ho rfl rfl rfl rfl rfl rfl rfl,
    fun _ _ => loadsAs_of_load_noCodes hq ho rfl rfl rfl rfl rfl rfl rfl,
    routeDef_loadsAs hq ho, yardParams_loadsAs hq ho, fun _ _ _ _ => put_put⟩

/-- Settles O44: a ROUTE_DEF payload read byte by byte (`decodeRouteDef_eq_some`), and each record's load. -/
theorem definitionsAreStored : Obligations.DefinitionsAreStored := ⟨definition_stored, routePayload_read⟩

end Sys2Proof.Machine

/-! # The occupancy monitor's takings (02) -/

namespace Sys2Proof.Machine

section

/-! ## Effects, one operation after another -/

variable {s t : State} {changed : List Part} {claims : List Instr} {posts : State → State}

/-- The parts outside `changed` are the same again after a taking's next operation. -/
theorem KeepsAllBut.trans {u : State} (h : KeepsAllBut changed s t) (h' : KeepsAllBut changed t u) :
    KeepsAllBut changed s u := by
  obtain ⟨hq, ht, hk⟩ := h
  obtain ⟨hq', ht', hk'⟩ := h'
  refine ⟨hq'.trans hq, ht'.trans ht, fun x hx => ?_⟩
  have hs := hk x hx
  have hu := hk' x hx
  cases x with
  | store => exact ⟨hu.1.trans hs.1, hu.2.1.trans hs.2.1, hu.2.2.trans hs.2.2⟩
  | ports => exact fun p => (hu p).trans (hs p)
  | _ => exact Eq.trans hu hs

/-- A further operation of a taking, one that leaves the ports. -/
theorem effect_next {u : State} {claims' : List Instr} (h : Effect changed claims posts none s t)
    (hk : KeepsAllBut changed t u) (hp : ∀ p, u.port p = t.port p) (hc : u.claims = claims') :
    Effect changed claims' posts none s u := by
  obtain ⟨hf, -, hn, ha⟩ := h
  refine ⟨hf.trans hk, hc, fun p => ?_, fun p => ?_⟩
  · rw [hp]; exact hn p
  · unfold NoAnswerAt
    rw [hp]
    exact ha p

/-- A claim sent stands last of those in flight. -/
theorem effect_send (h : Effect changed claims posts none s t) (c : Instr) :
    Effect changed (claims ++ [c]) posts none s (t.send c) := by
  refine effect_next h ⟨rfl, rfl, fun x _ => ?_⟩ (port_send t · c) (congrArg (· ++ [c]) h.2.1)
  cases x <;> simp [Part.same]

theorem effect_raise (h : Effect changed claims posts none s t) (a : Alarm) :
    Effect changed (claims ++ [.alarmRaise a]) posts none s (t.raise a) := effect_send h _

theorem effect_endAlarm (h : Effect changed claims posts none s t) (a : Alarm) :
    Effect changed (claims ++ [.alarmConditionEnd a]) posts none s (t.endAlarm a) := effect_send h _

/-- A section record changed. -/
theorem effect_onSection (h : Effect changed claims posts none s t) (n : Nat) (f : SectionRec → SectionRec)
    (hs : .sections ∈ changed) : Effect changed claims posts none s (t.onSection n f) := by
  refine effect_next h ⟨rfl, rfl, fun x hx => ?_⟩ (port_onSection t · n f) h.2.1
  cases x with
  | sections => exact absurd hs hx
  | _ => simp [Part.same]

/-- The signals on the lines changed. -/
theorem effect_onPins (h : Effect changed claims posts none s t) (f : Pins → Pins) (hl : .lines ∈ changed) :
    Effect changed claims posts none s (t.onPins f) := by
  refine effect_next h ⟨rfl, rfl, fun x hx => ?_⟩ (port_onPins t · f) h.2.1
  cases x with
  | lines => exact absurd hl hx
  | _ => simp [Part.same]

/-- What a copied notice adds depends on the port's notices, its flag of lost ones and its subscription alone. -/
theorem copyNotice_congr {q r : PortState} (hn : q.notices = r.notices) (hl : q.noticesLost = r.noticesLost)
    (hs : q.subscription = r.subscription) (b : Bool) (n : Notice) :
    (q.copyNotice b n).notices = (r.copyNotice b n).notices ∧
      (q.copyNotice b n).noticesLost = (r.copyNotice b n).noticesLost := by
  unfold PortState.copyNotice
  rw [hn, hl, hs]
  repeat' split
  all_goals simp [hn, hl]

/-- The first notice of a taking (R175), of a block that leaves the clock and the ports. -/
theorem effect_post (h : Effect changed claims id none s t) (g : Group) (k : Nat) (fs : List Field)
    (hr : .roster ∉ changed) (hp : .ports ∉ changed) :
    Effect changed claims (fun s => s.post g k fs) none s (t.post g k fs) := by
  obtain ⟨⟨hq, ht, hk⟩, hc, hn, ha⟩ := h
  have hm : t.minute = s.minute := congrArg Roster.clock (hk .roster hr)
  have hsub (p : Port) : (t.port p).subscription = (s.port p).subscription :=
    show (t.port p).aside.subscription = (s.port p).aside.subscription by rw [hk .ports hp p]
  refine ⟨⟨hq, ht, fun x hx => ?_⟩, hc, fun p => ?_, fun p => by simpa [NoAnswerAt] using ha p⟩
  · have hx := hk x hx
    cases x <;> simpa [Part.same] using hx
  · obtain ⟨hn, hl⟩ := hn p
    rw [port_post, port_post, hm]
    exact copyNotice_congr hn hl (hsub p) _ _

/-! ## Edges (R22, R24 to R27) -/

theorem gateOf_congr (h : t.desc = s.desc) (n : Nat) : t.gateOf n = s.gateOf n := by
  unfold State.gateOf
  rw [h]

/-- R24: an edge is delivered to the route setter, and to a READER section's gate or, of a BODY section, the stabling block. -/
theorem effect_deliverEdge (h : Effect changed claims posts none s t) (hd : .store ∉ changed) (n : Nat) (k : SectionKind)
    (o : Occ) (c : EdgeCause) :
    Effect changed (claims ++ ([if o = .occupied then .routeOccupyEdge n c else .routeClearEdge n c] ++
        if k = .reader then
          (s.gateOf n).toList.map (fun g => if o = .occupied then .readerOccupyEdge g c else .readerClearEdge g c)
        else if k = .body then [.bodyEdge n o c] else [])) posts none s (t.deliverEdge n k o c) := by
  have hg : t.gateOf n = s.gateOf n := gateOf_congr (h.1.2.2 .store hd).2.1 n
  have hr := effect_send h (edgeClaim n o c)
  have he : edgeClaim n o c = if o = .occupied then .routeOccupyEdge n c else .routeClearEdge n c := by cases o <;> rfl
  unfold State.deliverEdge
  rw [← he]
  cases k with
  | reader =>
    simp only [State.send_gateOf, hg]
    cases s.gateOf n with
    | none => simpa using hr
    | some g =>
      have hgate := effect_send hr (match o with | .occupied => .readerOccupyEdge g c | .clear => .readerClearEdge g c)
      cases o <;> simpa using hgate
  | body => simpa using effect_send hr (.bodyEdge n o c)
  | _ => simpa using hr

/-- R26: the kinds watched for unrouted occupancy. -/
theorem watched_iff (k : SectionKind) : watched k = true ↔ k = .ladder ∨ k = .gateOut ∨ k = .mouth := by
  cases k <;> simp [watched]

/-- R25: the SECTION_EDGE notice, posted once the edge is delivered. -/
theorem effect_edgeNotice (h : Effect [.sections] claims id none s t) (n : Nat) (r : SectionRec) (o : Occ) (c : EdgeCause) :
    Effect [.sections] claims (edgeNotice n r o c) none s
      (if selects r.selection o then t.post .sect 1 [.u8 n, .u8 o.code, .u8 c.code, f8 r.reservedBy] else t) := by
  have hcode : o.code = if o = .clear then 1 else 2 := by cases o <;> rfl
  have hcause : c.code = match c with | .input => 1 | .force => 2 | .unforce => 3 := rfl
  unfold edgeNotice
  rw [hcode, hcause]
  by_cases hs : selects r.selection o = true
  · simp only [hs, if_true]
    exact effect_post h _ _ _ (by simp) (by simp)
  · simp only [hs]
    exact h

/-- R22, R24 to R27: the claims and the notice of an edge. -/
theorem effect_confirm (h : Effect [.sections] claims id none s t) (n : Nat) (r : SectionRec) (o : Occ) (c : EdgeCause) :
    Effect [.sections] (claims ++ edgeClaims s n r o c) (edgeNotice n r o c) none s (t.confirm n r o c) := by
  have hrec := effect_onSection h n (fun x => { x with confirmed := o, pending := none }) (by simp)
  have hnote := effect_edgeNotice (effect_deliverEdge hrec (by simp) n r.kind o c) n r o c
  unfold State.confirm edgeClaims
  rw [← List.append_assoc]
  simp only [← watched_iff]
  by_cases hw : watched r.kind = true
  · simp only [hw, if_true]
    cases o with
    | clear => exact effect_endAlarm hnote _
    | occupied =>
      cases hres : r.reservedBy with
      | none => simpa [hres] using effect_raise hnote (.unroutedOccupancy n)
      | some slot => simpa [hres] using hnote
  · rw [if_neg hw, if_neg hw, List.append_nil]
    exact hnote

@[simp] theorem deliverEdge_sections (s : State) (n : Nat) (k : SectionKind) (o : Occ) (c : EdgeCause) :
    (s.deliverEdge n k o c).sections = s.sections := by
  unfold State.deliverEdge
  repeat' (first | split | simp)

/-- R22: an edge makes its state the confirmed one, with no change pending. -/
theorem confirm_sections (s : State) (n : Nat) (r : SectionRec) (o : Occ) (c : EdgeCause) :
    (s.confirm n r o c).sections = Tbl.adjust n (fun x => { x with confirmed := o, pending := none }) s.sections := by
  unfold State.confirm
  repeat' (first | split | simp)

/-- Settles O2: the expiry is the pending state's edge (`effect_confirm`). -/
theorem confirmationMakesAnEdge : Obligations.ConfirmationMakesAnEdge := by
  intro n s r p hr hp
  refine ⟨s.confirm n r p.toward .input, ?_, effect_confirm (effect_none s _) n r p.toward .input, ?_⟩
  · simp [exec, execConfirmationTimerExpiry, hr, hp, done]
  · rw [confirm_sections]
    exact put_adjust hr rfl

end

/-! ## Input levels (R20, R21, R23, R28) -/

section

variable {s t : State} {n : Nat} {r : SectionRec}

/-- The pending change that a level drops: that of a section not forced, at the return to the confirmed state (R23). -/
def SectionRec.dropped (r : SectionRec) (level : Occ) : Option Pending :=
  if r.forced ∨ level ≠ r.confirmed then none else r.pending

/-- The record that a level leaves, with the confirm time toward it. -/
def SectionRec.atLevel (r : SectionRec) (level : Occ) (time : Nat) : SectionRec :=
  if (r.dropped level).isSome then { r with level := level, pending := none, noise := true }
  else if r.forced ∨ r.pending.isSome ∨ level = r.confirmed then { r with level := level }
  else { r with level := level, pending := some ⟨level, time⟩ }

/-- What the monitor does with a level: the change dropped, with its SECTION_NOISE notice; the level alone; or a change
started. -/
theorem takeLevel_eq (n : Nat) (r : SectionRec) (level : Occ) (s : State) :
    let s' := s.onSection n (fun x => { x with level := level })
    s.takeLevel n r level = match r.dropped level with
      | some p =>
        let s'' := s'.onSection n (fun x => { x with pending := none, noise := true })
        if r.noise = false ∧ selects r.selection p.toward then s''.post .sect 2 [.u8 n, .u8 p.toward.edgeCode] else s''
      | none =>
        if r.forced ∨ r.pending.isSome ∨ level = r.confirmed then s'
        else s'.onSection n (fun x => { x with pending := some ⟨level, s.confirmTime level⟩ }) := by
  unfold State.takeLevel SectionRec.dropped
  by_cases hf : r.forced = true
  · simp [hf]
  · by_cases hl : level = r.confirmed
    · cases hp : r.pending <;> simp [hf, hl]
    · cases hp : r.pending <;> simp [hf, hl]

/-- R21, R23: the section's record after a level. -/
theorem put_takeLevel (hr : Tbl.find n s.sections = some r) (level : Occ) :
    Put n (r.atLevel level (s.confirmTime level)) s.sections (s.takeLevel n r level).sections := by
  rw [takeLevel_eq]
  unfold SectionRec.atLevel
  cases r.dropped level with
  | some p =>
    rw [if_pos (by simp)]
    dsimp only
    rw [apply_ite State.sections, State.post_sections, ite_self, State.onSection_sections, State.onSection_sections]
    exact put_adjust_adjust hr rfl
  | none =>
    rw [if_neg (by simp)]
    dsimp only
    split
    · rw [State.onSection_sections]
      exact put_adjust hr rfl
    · rw [State.onSection_sections, State.onSection_sections]
      exact put_adjust_adjust hr rfl

/-- R23: a level's one notice is that of the change it drops, where the latch was clear and the edge is selected. -/
theorem effect_takeLevel {changed : List Part} {claims : List Instr} (h : Effect changed claims id none s t)
    (hs : .sections ∈ changed) (hro : .roster ∉ changed) (hp : .ports ∉ changed) (n : Nat) (r : SectionRec) (level : Occ) :
    Effect changed claims
      (fun s => match r.dropped level with
        | some p => if r.noise = false ∧ selects r.selection p.toward then s.post .sect 2 [.u8 n, .u8 p.toward.edgeCode] else s
        | none => s) none s (t.takeLevel n r level) := by
  rw [takeLevel_eq]
  have hl := effect_onSection h n (fun x => { x with level := level }) hs
  cases r.dropped level with
  | some p =>
    have hd := effect_onSection hl n (fun x => { x with pending := none, noise := true }) hs
    dsimp only
    split
    · exact effect_post hd _ _ _ hro hp
    · exact hd
  | none =>
    dsimp only
    split
    · exact hl
    · exact effect_onSection hl n _ hs

/-- R20, R21, R23: a change of a defined section's input is its new level taken. -/
theorem sectionInput_qualified : sectionInputIsQualified := by
  intro n signal s r hr
  dsimp only
  rw [← levelOf_eq]
  refine ⟨(s.onPins (fun x => { x with occupancy := x.occupancy.set (n - 1) signal })).takeLevel n r (levelOf signal),
    ?_, ?_, ?_, ?_⟩
  · simp [exec, execOccupancyInputChange, hr, done]
  · have hpins := effect_onPins (effect_none s [.lines, .sections])
      (fun x => { x with occupancy := x.occupancy.set (n - 1) signal }) (by simp)
    have he := effect_takeLevel hpins (by simp) (by simp) (by simp) n r (levelOf signal)
    have hcode (o : Occ) : o.edgeCode = if o = .occupied then 1 else 2 := by cases o <;> rfl
    simp only [hcode] at he
    exact he
  · exact congrArg Base.pins (base_takeLevel _ n r (levelOf signal))
  · have htime (o : Occ) : s.confirmTime o = if o = .occupied then s.param.occupyConfirm else s.param.clearConfirm * 1000 := by
      cases o <;> rfl
    have hput := put_takeLevel (s := s.onPins (fun x => { x with occupancy := x.occupancy.set (n - 1) signal })) hr
      (levelOf signal)
    rw [show (s.onPins _).confirmTime (levelOf signal) = s.confirmTime (levelOf signal) from rfl, htime] at hput
    exact hput

/-- R1, R5: an input of an object with no record. -/
theorem undefinedInput_notTaken : undefinedInputIsNotTaken := by
  refine fun n s => ⟨fun h signal => ?_, fun h a b => ?_, fun h bytes => ⟨?_, ?_⟩⟩
  · simp [exec, execOccupancyInputChange, h, done, State.onPins]
  · simp [exec, execDetectionChange, h, done, State.onPins]
  · have hb (b : Byte) : State.inboundByte n s b = s := by
      unfold State.inboundByte
      rw [h]
    have hf : bytes.foldl (State.inboundByte n) s = s := List.foldl_fixed' hb bytes
    exact congrArg done hf
  · have hb (b : Byte) : State.outboundByte n s b = s := by
      unfold State.outboundByte
      rw [h]
    have hf : bytes.foldl (State.outboundByte n) s = s := List.foldl_fixed' hb bytes
    exact congrArg done hf

/-- Settles O1: a level is taken in one of three ways (`takeLevel_eq`); an input of no record is only shown. -/
theorem occupancyInputs : Obligations.OccupancyInputs := ⟨sectionInput_qualified, undefinedInput_notTaken⟩

/-! ## The desk's requests (R28, R29, R31) -/

/-- R28: what SECTION_FORCE on leaves of a section. -/
theorem put_takeForceOn (hr : Tbl.find n s.sections = some r) :
    Put n (if r.reservedBy.isSome || r.forced then r else { r with forced := true, pending := none, confirmed := .occupied })
      s.sections (takeForceOn n s).1.sections := by
  unfold takeForceOn
  rw [hr]
  dsimp only
  by_cases hres : r.reservedBy.isSome = true
  · simpa [hres] using put_same hr
  · by_cases hf : r.forced = true
    · simpa [hres, hf] using put_same hr
    · cases hc : r.confirmed with
      | clear =>
        simp only [hres, hf, Bool.or_self, Bool.false_eq_true, if_false, if_true, State.send_sections, confirm_sections,
          State.onSection_sections]
        exact put_adjust_adjust hr rfl
      | occupied =>
        simp only [hres, hf, Bool.or_self, Bool.false_eq_true, if_false, reduceCtorEq, State.send_sections,
          State.onSection_sections]
        exact put_adjust hr (by simp [hc])

/-- R29: what SECTION_FORCE off leaves of a section. -/
theorem put_takeForceOff (hr : Tbl.find n s.sections = some r) :
    Put n (if r.forced && decide (r.level = .clear) then { r with forced := false, confirmed := .clear, pending := none }
      else { r with forced := false }) s.sections (takeForceOff n s).1.sections := by
  unfold takeForceOff
  rw [hr]
  dsimp only
  by_cases hf : r.forced = true
  · by_cases hl : r.level = .clear
    · simp only [hf, hl, Bool.not_true, Bool.false_eq_true, if_false, decide_true, Bool.and_self, if_true, State.send_sections,
        confirm_sections, State.onSection_sections]
      exact put_adjust_adjust hr (by simp [hl])
    · simp only [hf, hl, Bool.not_true, Bool.false_eq_true, if_false, decide_false, Bool.and_false, State.send_sections,
        State.onSection_sections]
      exact put_adjust hr rfl
  · have hsame : { r with forced := false } = r := by
      cases r
      simpa using hf
    simpa [hf, hsame] using put_same hr

/-- R31: what SECTION_QUERY leaves of a section. -/
theorem put_takeSectionQuery (hr : Tbl.find n s.sections = some r) :
    Put n { r with noise := false } s.sections (takeSectionQuery n s).1.sections := by
  have hs : (takeSectionQuery n s).1.sections = Tbl.adjust n (fun x => { x with noise := false }) s.sections := by
    unfold takeSectionQuery
    rw [hr]
    rfl
  rw [hs]
  exact put_adjust hr rfl

/-- In RUN a section request of the desk is its owner's to decide; the claims are those before it, less the request. -/
theorem exec_sectionRequest {q : Req} {k : Kind} {i : Instr} {owner : State → State × Ans} {a : Ans} {claims : List Instr}
    {posts : State → State} {r' : SectionRec} (hx : exec i s = takeRequest i k q s owner) (hk : k.permits q.port = true)
    (hl : k.loads = false) (hc : i.codesOk = true) (hg : i.gateNamed = none) (ho : InRun q s)
    (he : Effect [.sections] claims posts none s (owner (s.take i)).1) (ha : (owner (s.take i)).2 = a)
    (hp : Put n r' s.sections (owner (s.take i)).1.sections) :
    ∃ u, exec i s = .next u.settle ∧ Effect [.sections] claims posts (some (k, q, a)) s u ∧
      Put n r' s.sections u.sections := by
  refine ⟨(owner (s.take i)).1.reply k q a, ?_, effect_reply k q a he, by simpa using hp⟩
  rw [hx, takeRequest_run hk hc hg ho hl, ha]
  rfl

/-- R28: the claims, the notice and the answer of SECTION_FORCE on. -/
theorem effect_takeForceOn {claims : List Instr} (h : Effect [.sections] claims id none s t)
    (hr : Tbl.find n t.sections = some r) :
    let idle : Bool := r.reservedBy.isSome || r.forced
    let edge : Bool := !idle && decide (r.confirmed = .clear)
    Effect [.sections]
      (claims ++ (if edge then edgeClaims s n r .occupied .force else []) ++ (if idle then [] else [.forceFlagReport n true]))
      (fun s => if edge then edgeNotice n r .occupied .force s else s) none s (takeForceOn n t).1 ∧
    (takeForceOn n t).2 = if r.reservedBy.isSome then ⟨.refused, some .locked, []⟩ else ⟨.done, none, []⟩ := by
  have hf := effect_onSection h n (fun x => { x with forced := true, pending := none }) (by simp)
  unfold takeForceOn
  rw [hr]
  dsimp only
  by_cases hres : r.reservedBy.isSome = true
  · simpa [hres, Ans.refused, Function.id_def] using h
  · by_cases hfo : r.forced = true
    · simpa [hres, hfo, Ans.done, Function.id_def] using h
    · by_cases hc : r.confirmed = .clear
      · simpa [hres, hfo, hc, Ans.done] using effect_send (effect_confirm hf n r .occupied .force) (.forceFlagReport n true)
      · simpa [hres, hfo, hc, Ans.done, Function.id_def] using effect_send hf (.forceFlagReport n true)

/-- R29: the claims, the notice and the answer of SECTION_FORCE off. -/
theorem effect_takeForceOff {claims : List Instr} (h : Effect [.sections] claims id none s t)
    (hr : Tbl.find n t.sections = some r) :
    let edge : Bool := r.forced && decide (r.level = .clear)
    Effect [.sections]
      (claims ++ (if edge then edgeClaims s n r .clear .unforce else []) ++ (if r.forced then [.forceFlagReport n false] else []))
      (fun s => if edge then edgeNotice n r .clear .unforce s else s) none s (takeForceOff n t).1 ∧
    (takeForceOff n t).2 = ⟨.done, none, []⟩ := by
  have hf := effect_onSection h n (fun x => { x with forced := false }) (by simp)
  unfold takeForceOff
  rw [hr]
  dsimp only
  by_cases hfo : r.forced = true
  · by_cases hl : r.level = .clear
    · simpa [hfo, hl, Ans.done] using effect_send (effect_confirm hf n r .clear .unforce) (.forceFlagReport n false)
    · simpa [hfo, hl, Ans.done, Function.id_def] using effect_send hf (.forceFlagReport n false)
  · simpa [hfo, Ans.done, Function.id_def] using h

/-- Settles O3: both settings by the flag, the reservation and the state that the record shows. -/
theorem sectionForce : Obligations.SectionForce := by
  refine ⟨fun q n s r hq ho hr => ?_, fun q n s r hq ho hr => ?_⟩
  · obtain ⟨he, ha⟩ := effect_takeForceOn (effect_take s (.sectionForceOn q n) _) hr
    exact exec_sectionRequest rfl (by rw [hq]; rfl) rfl rfl rfl ho he ha (put_takeForceOn hr)
  · obtain ⟨he, ha⟩ := effect_takeForceOff (effect_take s (.sectionForceOff q n) _) hr
    exact exec_sectionRequest rfl (by rw [hq]; rfl) rfl rfl rfl ho he ha (put_takeForceOff hr)

/-- Settles O4: the answer is the record as it stood; the restart only reports itself. -/
theorem sectionQueryAndRestart : Obligations.SectionQueryAndRestart := by
  refine ⟨fun q n s r hq ho hr => ?_, fun s => ?_⟩
  · have hr' : Tbl.find n (s.take (.sectionQuery q n)).sections = some r := hr
    refine exec_sectionRequest rfl (by rw [hq]; rfl) rfl rfl rfl ho ?_ ?_ (put_takeSectionQuery hr')
    · unfold takeSectionQuery
      rw [hr']
      exact effect_onSection (effect_take s _ _) n _ (by simp)
    · unfold takeSectionQuery
      rw [hr']
      rfl
  · exact ⟨_, rfl, effect_send (effect_take s .occupancyRestart []) _⟩

end

end Sys2Proof.Machine

/-! # The occupancy monitor's records through every taking (02 sections 2.1 to 2.6)

A section record's level, confirmed state, pending change and force flag are the monitor's own (`State.monitor`); the route setter
writes its reservation (R30), and a gate sets its noise latch (R108). So every operation of another block leaves the reading, as an
equation that `simp` rewrites with: one lemma for each operation, in the order of the base lemmas (Laws/BaseYard, Laws/BaseDepot). -/

namespace Sys2Proof.Machine

/-- A section record without its reservation and its noise latch, the fields that other blocks write too (R30, R108). -/
def SectionRec.own (r : SectionRec) : SectionRec := { r with reservedBy := none, noise := false }

/-- The section records as the occupancy monitor alone writes them. -/
def State.monitor (s : State) : Tbl SectionRec := s.sections.map (fun p => (p.1, p.2.own))

section

variable (s : State)

/-- A section record in the monitor's reading. -/
theorem find_monitor (n : Nat) : Tbl.find n s.monitor = (Tbl.find n s.sections).map SectionRec.own :=
  Tbl.find_map s.sections (fun _ => SectionRec.own) n

variable {s} in
/-- The reading is of the section records alone. -/
theorem monitor_congr {u : State} (h : u.sections = s.sections) : u.monitor = s.monitor := by
  unfold State.monitor
  rw [h]

variable {s} in
/-- A change of a section record in its reservation or its noise latch alone. -/
theorem monitor_onSection {f : SectionRec → SectionRec} (h : ∀ r, (f r).own = r.own) (n : Nat) :
    (s.onSection n f).monitor = s.monitor := by
  unfold State.monitor State.onSection Tbl.adjust
  rw [List.map_map]
  refine List.map_congr_left fun p _ => ?_
  by_cases hp : p.1 = n <;> simp [hp, h]

@[simp] theorem monitor_onPoint (n : Nat) (f : PointRec → PointRec) : (s.onPoint n f).monitor = s.monitor := rfl
@[simp] theorem monitor_onRoute (f : RouteSetter → RouteSetter) : (s.onRoute f).monitor = s.monitor := rfl
@[simp] theorem monitor_onEntry (n : Nat) (f : RouteEntry → RouteEntry) : (s.onEntry n f).monitor = s.monitor := rfl
@[simp] theorem monitor_onGate (g : Nat) (f : Gate → Gate) : (s.onGate g f).monitor = s.monitor := rfl
@[simp] theorem monitor_onStab (f : Stabling → Stabling) : (s.onStab f).monitor = s.monitor := rfl
@[simp] theorem monitor_onSiding (n : Nat) (f : SidingRec → SidingRec) : (s.onSiding n f).monitor = s.monitor := rfl
@[simp] theorem monitor_onShunt (n : Nat) (f : ShuntEntry → ShuntEntry) : (s.onShunt n f).monitor = s.monitor := rfl
@[simp] theorem monitor_onRoster (f : Roster → Roster) : (s.onRoster f).monitor = s.monitor := rfl
@[simp] theorem monitor_onSup (f : Supervision → Supervision) : (s.onSup f).monitor = s.monitor := rfl
@[simp] theorem monitor_onDesc (f : Description → Description) : (s.onDesc f).monitor = s.monitor := rfl
@[simp] theorem monitor_onPins (f : Pins → Pins) : (s.onPins f).monitor = s.monitor := rfl
@[simp] theorem monitor_send (c : Instr) : (s.send c).monitor = s.monitor := rfl
@[simp] theorem monitor_take (c : Instr) : (s.take c).monitor = s.monitor := rfl
@[simp] theorem monitor_raise (a : Alarm) : (s.raise a).monitor = s.monitor := rfl
@[simp] theorem monitor_endAlarm (a : Alarm) : (s.endAlarm a).monitor = s.monitor := rfl
@[simp] theorem monitor_post (g : Group) (k : Nat) (fs : List Field) : (s.post g k fs).monitor = s.monitor := rfl
@[simp] theorem monitor_onPort (p : Port) (f : PortState → PortState) : (s.onPort p f).monitor = s.monitor :=
  monitor_congr (State.onPort_sections s p f)
@[simp] theorem monitor_reply (k : Kind) (r : Req) (a : Ans) : (s.reply k r a).monitor = s.monitor :=
  monitor_congr (State.reply_sections s k r a)
@[simp] theorem monitor_settle : s.settle.monitor = s.monitor := monitor_congr (settle_sections s)

/-- A walk each of whose steps keeps the reading keeps it. -/
theorem monitor_foldl {α : Type} {f : State → α → State} (h : ∀ s a, (f s a).monitor = s.monitor) (l : List α) :
    (l.foldl f s).monitor = s.monitor := by
  induction l generalizing s with
  | nil => rfl
  | cons a l ih => rw [List.foldl_cons, ih, h]

end

end Sys2Proof.Machine

namespace Sys2Proof.Machine

variable (s : State)

/-! ## Ports and description store -/

@[simp] theorem monitor_takePortOwned (i : Instr) : (takePortOwned i s).1.monitor = s.monitor :=
  monitor_congr (show (takePortOwned i s).1.bare.sections = s.bare.sections by rw [bare_takePortOwned])

@[simp] theorem monitor_handOver (p : Port) : (s.handOver p).monitor = s.monitor :=
  monitor_congr (show (s.handOver p).bare.sections = s.bare.sections by rw [bare_handOver])

@[simp] theorem monitor_load (ok : Bool) (f : Description → Description) : (load ok f s).1.monitor = s.monitor := by
  unfold load; split <;> simp

/-! ## Point controller -/

@[simp] theorem monitor_endLossIfDetected (n : Nat) : (s.endLossIfDetected n).monitor = s.monitor := by
  unfold State.endLossIfDetected; repeat' (first | split | simp)

@[simp] theorem monitor_postPoint (n : Nat) (c : PointCause) : (s.postPoint n c).monitor = s.monitor := by
  unfold State.postPoint; repeat' (first | split | simp)

@[simp] theorem monitor_setPointState (n : Nat) (new : PointState) (c : PointCause) (f : PointRec → PointRec) :
    (s.setPointState n new c f).monitor = s.monitor := by
  unfold State.setPointState; repeat' (first | split | simp)

@[simp] theorem monitor_startThrow (n : Nat) (p : Position) :
    (s.startThrow n p).monitor = s.monitor := by simp [State.startThrow]

@[simp] theorem monitor_reverseThrow (n : Nat) (p : Position) : (s.reverseThrow n p).monitor = s.monitor := by
  simp [State.reverseThrow]

@[simp] theorem monitor_unlockPoint (n slot : Nat) : (s.unlockPoint n slot).monitor = s.monitor := by
  unfold State.unlockPoint; repeat' (first | split | simp)

/-- A granted lock keeps the reading. -/
theorem monitor_lockPoint {n slot : Nat} {p : Position} {t : State} (h : s.lockPoint n slot p = .ok t) :
    t.monitor = s.monitor := by
  unfold State.lockPoint at h
  repeat' split at h
  all_goals first | cases h; simp | cases h

@[simp] theorem monitor_commandPoint (n slot : Nat) (p : Position) : (s.commandPoint n slot p).monitor = s.monitor := by
  unfold State.commandPoint; repeat' (first | split | simp)

@[simp] theorem monitor_takeReading (n : Nat) (r : PointRec) (rd : Reading) : (s.takeReading n r rd).monitor = s.monitor := by
  unfold State.takeReading; repeat' (first | split | simp)

@[simp] theorem monitor_takePointThrow (n p : Nat) : (takePointThrow n p s).1.monitor = s.monitor := by
  unfold takePointThrow; repeat' (first | split | simp)

@[simp] theorem monitor_takePointBlock (n : Nat) : (takePointBlock n s).1.monitor = s.monitor := by
  unfold takePointBlock; repeat' (first | split | simp)

@[simp] theorem monitor_takePointRestore (n : Nat) : (takePointRestore n s).1.monitor = s.monitor := by
  unfold takePointRestore; repeat' (first | split | simp)

@[simp] theorem monitor_takePointQuery (n : Nat) : (takePointQuery n s).1.monitor = s.monitor := by
  unfold takePointQuery; repeat' (first | split | simp)

@[simp] theorem monitor_restartPoint (n : Nat) : (s.restartPoint n).monitor = s.monitor := by
  unfold State.restartPoint; repeat' (first | split | simp)

/-! ## Route setter -/

@[simp] theorem monitor_postEntry (slot : Nat) (e : RouteEntry) (k : Nat) : (s.postEntry slot e k).monitor = s.monitor := by
  simp [State.postEntry]

@[simp] theorem monitor_postSlot (slot : Nat) : (s.postSlot slot).monitor = s.monitor := by
  unfold State.postSlot; repeat' (first | split | simp)

@[simp] theorem monitor_postFailed (sl : Option Nat) (n : Nat) (o : Owner) (p : Purpose) (w : FailCause) :
    (s.postFailed sl n o p w).monitor = s.monitor := by simp [State.postFailed]

@[simp] theorem monitor_postCancelled (sl : Option Nat) (n : Nat) (o : Owner) (p : Purpose) (m : CancelMode) :
    (s.postCancelled sl n o p m).monitor = s.monitor := by simp [State.postCancelled]

@[simp] theorem monitor_sendEvent (ev : RouteEvent) : (s.sendEvent ev).monitor = s.monitor := by
  unfold State.sendEvent; repeat' (first | split | simp)

@[simp] theorem monitor_slotEvent (slot : Nat) (p : Progress) : (s.slotEvent slot p).monitor = s.monitor := by
  unfold State.slotEvent; repeat' (first | split | simp)

@[simp] theorem monitor_reserve (slot : Nat) (l : List Nat) : (s.reserve slot l).monitor = s.monitor := by
  unfold State.reserve
  exact monitor_foldl s (fun _ n => monitor_onSection (by intro r; rfl) n) l

@[simp] theorem monitor_unreserve (slot : Nat) (l : List Nat) : (s.unreserve slot l).monitor = s.monitor := by
  unfold State.unreserve
  exact monitor_foldl s (fun _ n => monitor_onSection (by intro r; split <;> rfl) n) l

@[simp] theorem monitor_unlockAll (slot : Nat) (l : List Nat) : (s.unlockAll slot l).monitor = s.monitor :=
  monitor_foldl s (by simp) l

@[simp] theorem monitor_lockAll (slot : Nat) (l : List (Nat × Position)) : (s.lockAll slot l).1.monitor = s.monitor := by
  induction l generalizing s with
  | nil => rfl
  | cons p l ih =>
    unfold State.lockAll
    split
    · rfl
    · rename_i h; rw [ih, monitor_lockPoint s h]

@[simp] theorem monitor_commandAll (slot : Nat) (l : List (Nat × Position)) : (s.commandAll slot l).monitor = s.monitor :=
  monitor_foldl s (by intro s a; split <;> simp) l

@[simp] theorem monitor_removeEntry (slot : Nat) (e : RouteEntry) : (s.removeEntry slot e).monitor = s.monitor := by
  simp [State.removeEntry]

@[simp] theorem monitor_testProceed (slot : Nat) : (s.testProceed slot).monitor = s.monitor := by
  unfold State.testProceed; repeat' (first | split | simp)

@[simp] theorem monitor_takeInto (slot : Nat) (q : RouteRequest) (d : RouteDef) :
    (s.takeInto slot q d).1.monitor = s.monitor := by
  have h := monitor_lockAll (s.reserve slot d.sections) slot d.points
  unfold State.takeInto
  dsimp only
  split <;> rename_i e <;> rw [e] at h <;> simpa using h

@[simp] theorem monitor_storeRequest (q : RouteRequest) : (s.storeRequest q).1.monitor = s.monitor := by
  unfold State.storeRequest; repeat' (first | split | simp)

@[simp] theorem monitor_takeOrStore (q : RouteRequest) (d : RouteDef) : (s.takeOrStore q d).1.monitor = s.monitor := by
  unfold State.takeOrStore
  split
  · rename_i slot _ _
    have h := monitor_takeInto s slot q d
    split
    · rename_i e; rw [e] at h; exact h
    · rename_i e; rw [e] at h
      split
      · exact h
      · simpa using h
  · simp

@[simp] theorem monitor_requestRoute (ks : List RouteKind) (q : RouteRequest) :
    (s.requestRoute ks q).1.monitor = s.monitor := by
  unfold State.requestRoute; repeat' (first | split | simp)

@[simp] theorem monitor_failStored (e : StoreEntry) (d : RouteDef) (o : YardObject) :
    (s.failStored e d o).monitor = s.monitor := by
  simp [State.failStored]

@[simp] theorem monitor_scanOne (kept : List StoreEntry) (e : StoreEntry) : (s.scanOne kept e).1.monitor = s.monitor := by
  unfold State.scanOne
  split
  · rfl
  · rename_i d _
    split
    · simp
    · split
      · rename_i slot _ _
        have h := monitor_takeInto s slot e.request d
        split
        · rename_i x; rw [x] at h; exact h
        · rename_i x; rw [x] at h
          split
          · simpa using h
          · exact h
      · rfl

@[simp] theorem monitor_scanFrom (kept l : List StoreEntry) : (State.scanFrom kept l s).monitor = s.monitor := by
  induction l generalizing s kept with
  | nil => simp [State.scanFrom]
  | cons e l ih =>
    have h := monitor_scanOne s kept e
    unfold State.scanFrom
    split <;> rename_i x <;> rw [x] at h <;> rw [ih] <;> exact h

@[simp] theorem monitor_scan : s.scan.monitor = s.monitor := by simp [State.scan]

@[simp] theorem monitor_overtaken (slot : Nat) (e : RouteEntry) (c : OvertakeClaim) :
    (s.overtaken slot e c).monitor = s.monitor := by
  unfold State.overtaken; repeat' (first | split | simp)

@[simp] theorem monitor_goDegraded (slot : Nat) (e : RouteEntry) (c : Causes) (o : OvertakeClaim) :
    (s.goDegraded slot e c o).monitor = s.monitor := by
  unfold State.goDegraded; repeat' (first | split | simp)

@[simp] theorem monitor_releaseEntry (slot : Nat) (e : RouteEntry) (p : Progress) (m : CancelMode) :
    (s.releaseEntry slot e p m).monitor = s.monitor := by simp [State.releaseEntry]

@[simp] theorem monitor_releaseStored (e : StoreEntry) (m : CancelMode) : (s.releaseStored e m).monitor = s.monitor := by
  simp [State.releaseStored]

@[simp] theorem monitor_cancelEntry (slot : Nat) (e : RouteEntry) : (s.cancelEntry slot e).1.monitor = s.monitor := by
  unfold State.cancelEntry; repeat' (first | split | simp)

@[simp] theorem monitor_cancelRoute (n : Nat) (c : Owner → Purpose → Bool) : (s.cancelRoute n c).1.monitor = s.monitor := by
  unfold State.cancelRoute; repeat' (first | split | simp)

@[simp] theorem monitor_cancelShuntRoute (n : Nat) :
    (s.cancelShuntRoute n).1.monitor = s.monitor := by simp [State.cancelShuntRoute]

@[simp] theorem monitor_enterRoute (slot : Nat) : (s.enterRoute slot).monitor = s.monitor := by simp [State.enterRoute]

@[simp] theorem monitor_passAtStop (slot : Nat) (e : RouteEntry) (d : RouteDef) :
    (s.passAtStop slot e d).monitor = s.monitor := by
  unfold State.passAtStop; dsimp only; repeat' (first | split | simp)

@[simp] theorem monitor_unexpected (slot : Nat) (e : RouteEntry) (n : Nat) : (s.unexpected slot e n).monitor = s.monitor := by
  simp [State.unexpected]

@[simp] theorem monitor_takeOccupy (slot : Nat) (e : RouteEntry) (d : RouteDef) (i n : Nat) :
    (s.takeOccupy slot e d i n).monitor = s.monitor := by
  unfold State.takeOccupy; repeat' (first | split | simp)

@[simp] theorem monitor_releaseElement (slot : Nat) (d : RouteDef) (i n : Nat) :
    (s.releaseElement slot d i n).monitor = s.monitor := by
  simp [State.releaseElement]

@[simp] theorem monitor_irregularClearance (slot : Nat) (e : RouteEntry) (i n : Nat) :
    (s.irregularClearance slot e i n).monitor = s.monitor := by simp [State.irregularClearance]

@[simp] theorem monitor_completeRoute (slot : Nat) (e : RouteEntry) : (s.completeRoute slot e).monitor = s.monitor := by
  simp [State.completeRoute]

@[simp] theorem monitor_takeClear (slot : Nat) (e : RouteEntry) (d : RouteDef) (i n : Nat) :
    (s.takeClear slot e d i n).monitor = s.monitor := by
  unfold State.takeClear; repeat' (first | split | simp)

@[simp] theorem monitor_renewEntry (n slot : Nat) : (State.renewEntry n s slot).monitor = s.monitor := by
  unfold State.renewEntry; repeat' (first | split | simp)

@[simp] theorem monitor_renewWithheld (n : Nat) : (s.renewWithheld n).monitor = s.monitor := monitor_foldl s (by simp) _

@[simp] theorem monitor_failEntry (slot : Nat) (e : RouteEntry) (n : Nat) : (s.failEntry slot e n).monitor = s.monitor := by
  simp [State.failEntry]

@[simp] theorem monitor_takeReport (slot : Nat) (e : RouteEntry) (r : PointReport) :
    (s.takeReport slot e r).monitor = s.monitor := by
  unfold State.takeReport; repeat' (first | split | simp)

@[simp] theorem monitor_takeRouteSet (n : Nat) : (takeRouteSet n s).1.monitor = s.monitor := by simp [takeRouteSet]

@[simp] theorem monitor_takeRouteCancel (p : Port) (n : Nat) : (takeRouteCancel p n s).1.monitor = s.monitor := by
  unfold takeRouteCancel; repeat' (first | split | simp)

@[simp] theorem monitor_takeRouteResume (n : Nat) : (takeRouteResume n s).1.monitor = s.monitor := by
  unfold takeRouteResume; repeat' (first | split | simp)

@[simp] theorem monitor_takeForceRelease (n : Nat) : (takeForceRelease n s).1.monitor = s.monitor := by
  unfold takeForceRelease; repeat' (first | split | simp)

@[simp] theorem monitor_showAspect (p : Nat × RouteEntry) : (s.showAspect p).monitor = s.monitor := by
  unfold State.showAspect; repeat' (first | split | simp)

@[simp] theorem monitor_dropEntry (p : Nat × RouteEntry) : (s.dropEntry p).monitor = s.monitor := by simp [State.dropEntry]

/-- R81: a restart of the route setter unreserves every section. -/
@[simp] theorem monitor_freeSections : s.freeSections.monitor = s.monitor := by
  unfold State.monitor State.freeSections
  rw [List.map_map]
  rfl

/-! ## Stabling block: claims of other blocks -/

@[simp] theorem monitor_postStack (n f p : Nat) (st : Option StackState) (c : StackCause) :
    (s.postStack n f p st c).monitor = s.monitor := by
  simp [State.postStack]

@[simp] theorem monitor_postSiding (n : Nat) (c : StackCause) : (s.postSiding n c).monitor = s.monitor := by
  unfold State.postSiding; repeat' (first | split | simp)

@[simp] theorem monitor_postInversion (f n b : Nat) : (s.postInversion f n b).monitor = s.monitor := by
  simp [State.postInversion]

@[simp] theorem monitor_report (c : StackCause) (g : Option Nat) : (s.report c g).monitor = s.monitor :=
  monitor_foldl s (by simp) _

@[simp] theorem monitor_onRecord (n f : Nat) (g : StackRec → StackRec) : (s.onRecord n f g).monitor = s.monitor := by
  simp [State.onRecord]

@[simp] theorem monitor_pushRecord (n : Nat) (x : StackRec) : (s.pushRecord n x).monitor = s.monitor := by
  simp [State.pushRecord]

@[simp] theorem monitor_dropRecord (n f : Nat) : (s.dropRecord n f).monitor = s.monitor := by simp [State.dropRecord]

@[simp] theorem monitor_setDoubt (n : Nat) (c : StackCause) : (s.setDoubt n c).monitor = s.monitor := by
  unfold State.setDoubt; repeat' (first | split | simp)

@[simp] theorem monitor_doubtClaim (n : Nat) (c : StackCause) : (s.doubtClaim n c).monitor = s.monitor := by
  unfold State.doubtClaim; repeat' (first | split | simp)

@[simp] theorem monitor_allocate (g f l : Nat) (ma wa : Needs) : (s.allocate g f l ma wa).1.monitor = s.monitor := by
  unfold State.allocate; repeat' (first | split | simp)

@[simp] theorem monitor_releaseClaim (g f : Nat) : (s.releaseClaim g f).monitor = s.monitor := by
  unfold State.releaseClaim; repeat' (first | split | simp)

@[simp] theorem monitor_markCalled (n f : Nat) (p : StackPurpose) (b : Bool) : (s.markCalled n f p b).monitor = s.monitor := by
  simp [State.markCalled]

@[simp] theorem monitor_callClaim (f : Nat) (p : StackPurpose) : (s.callClaim f p).1.monitor = s.monitor := by
  unfold State.callClaim; repeat' (first | split | simp)

@[simp] theorem monitor_uncallClaim (f : Nat) (p : StackPurpose) : (s.uncallClaim f p).monitor = s.monitor := by
  unfold State.uncallClaim; repeat' (first | split | simp)

@[simp] theorem monitor_selectionClaim (d g : Nat) (m : Option Nat) (l : List Nat) :
    (s.selectionClaim d g m l).1.monitor = s.monitor := by
  unfold State.selectionClaim
  split
  · rfl
  · rename_i x _
    have h := monitor_callClaim s x.fleet (.dutyDeparture d)
    split <;> rename_i e <;> rw [e] at h <;> exact h

/-! ## Gate controllers -/

@[simp] theorem monitor_postArrival (g p : Nat) (a : Arrival) (c : QueueCause) :
    (s.postArrival g p a c).monitor = s.monitor := by
  simp [State.postArrival]

@[simp] theorem monitor_postQueue (g p : Nat) (c : QueueCause) : (s.postQueue g p c).monitor = s.monitor := by
  unfold State.postQueue; repeat' (first | split | simp)

@[simp] theorem monitor_onArrival (g p : Nat) (f : Arrival → Arrival) : (s.onArrival g p f).monitor = s.monitor := by
  simp [State.onArrival]

@[simp] theorem monitor_queueChanged (g : Nat) (j : Bool) : (s.queueChanged g j).monitor = s.monitor := by
  simp [State.queueChanged]

@[simp] theorem monitor_requestArrival (g f n : Nat) : (s.requestArrival g f n).monitor = s.monitor := by
  unfold State.requestArrival
  cases s.lookup .arrival g n with
  | none => simp
  | some route =>
    have h := monitor_requestRoute s [.arrival] ⟨route, .auto, .gateArrival g f, none⟩
    dsimp only
    split <;> rename_i e <;> rw [e] at h <;> simpa using h

@[simp] theorem monitor_noPlace (g f : Nat) (w : PlaceReason) : (s.noPlace g f w).monitor = s.monitor := by
  unfold State.noPlace; repeat' (first | split | simp)

@[simp] theorem monitor_processHead (g : Nat) : (s.processHead g).monitor = s.monitor := by
  unfold State.processHead
  split
  · rfl
  · split
    · rename_i f l ma wa _ _ _ _
      have h := monitor_allocate s g f l ma wa
      split
      · split <;> rename_i e <;> rw [e] at h <;> simpa using h
      · rfl
    · rfl

@[simp] theorem monitor_newHead (g : Nat) : (s.newHead g).monitor = s.monitor := by simp [State.newHead]

@[simp] theorem monitor_overrun (g : Nat) : (s.overrun g).monitor = s.monitor := by simp [State.overrun]

@[simp] theorem monitor_joinQueue (g : Nat) (a : Arrival) (c : QueueCause) : (s.joinQueue g a c).monitor = s.monitor := by
  unfold State.joinQueue; repeat' (first | split | simp)

@[simp] theorem monitor_createRecord (g : Nat) (x : Gate) (f : ReaderFrame) : (s.createRecord g x f).monitor = s.monitor := by
  unfold State.createRecord; repeat' (first | split | simp)

@[simp] theorem monitor_fillRecord (g : Nat) (x : Gate) (f : ReaderFrame) : (s.fillRecord g x f).monitor = s.monitor := by
  unfold State.fillRecord; repeat' (first | split | simp)

/-- R108: a second frame in a window sets the noise latch of the reader's section. -/
@[simp] theorem monitor_takeInWindow (g : Nat) (x : Gate) (d : GateDef) (f : ReaderFrame) :
    (s.takeInWindow g x d f).monitor = s.monitor := by
  have hnoise (t : State) : (t.onSection d.reader (fun r => { r with noise := true })).monitor = t.monitor :=
    monitor_onSection (by intro r; rfl) d.reader
  unfold State.takeInWindow; repeat' (first | split | simp [hnoise])

@[simp] theorem monitor_takeInbound (g : Nat) (f : ReaderFrame) : (s.takeInbound g f).monitor = s.monitor := by
  unfold State.takeInbound; repeat' (first | split | simp)

@[simp] theorem monitor_inboundByte (g : Nat) (b : Byte) : (State.inboundByte g s b).monitor = s.monitor := by
  unfold State.inboundByte; repeat' (first | split | simp)

@[simp] theorem monitor_openWindow (g : Nat) (x : Gate) (d : GateDef) : (s.openWindow g x d).monitor = s.monitor := by
  unfold State.openWindow; repeat' (first | split | simp)

@[simp] theorem monitor_appendUnread (g : Nat) (x : Gate) : (s.appendUnread g x).monitor = s.monitor := by
  unfold State.appendUnread; repeat' (first | split | simp)

@[simp] theorem monitor_takeArrivalEvent (g p : Nat) (a : Arrival) (ev : RouteEvent) :
    (s.takeArrivalEvent g p a ev).monitor = s.monitor := by
  unfold State.takeArrivalEvent; repeat' (first | split | simp)

@[simp] theorem monitor_takeOutbound (g : Nat) (f : ReaderFrame) : (s.takeOutbound g f).monitor = s.monitor := by
  unfold State.takeOutbound; repeat' (first | split | simp)

@[simp] theorem monitor_outboundByte (g : Nat) (b : Byte) : (State.outboundByte g s b).monitor = s.monitor := by
  unfold State.outboundByte; repeat' (first | split | simp)

@[simp] theorem monitor_wrongTram (ev : RouteEvent) (r : Nat) : (s.wrongTram ev r).monitor = s.monitor := by
  unfold State.wrongTram; repeat' (first | split | simp)

@[simp] theorem monitor_compareOutbound (g : Nat) (x : Gate) (ev : RouteEvent) :
    (s.compareOutbound g x ev).monitor = s.monitor := by
  unfold State.compareOutbound; repeat' (first | split | simp)

@[simp] theorem monitor_takeIdentify (g p f l : Nat) (a b : Byte) : (takeIdentify g p f l a b s).1.monitor = s.monitor := by
  unfold takeIdentify; repeat' (first | split | simp)

@[simp] theorem monitor_takeDiscard (g p : Nat) : (takeDiscard g p s).1.monitor = s.monitor := by
  unfold takeDiscard; repeat' (first | split | simp)

@[simp] theorem monitor_takeAdd (g f l : Nat) (a b : Byte) : (takeAdd g f l a b s).1.monitor = s.monitor := by
  unfold takeAdd; repeat' (first | split | simp)

@[simp] theorem monitor_takeArrivalResume (g : Nat) : (takeArrivalResume g s).1.monitor = s.monitor := by
  unfold takeArrivalResume; repeat' (first | split | simp)

@[simp] theorem monitor_takeClearOverrun (g : Nat) : (takeClearOverrun g s).1.monitor = s.monitor := by
  unfold takeClearOverrun; repeat' (first | split | simp)

@[simp] theorem monitor_takeGate (g : Nat) (f : Gate → Gate) : (takeGate g f s).1.monitor = s.monitor := by
  unfold takeGate; repeat' (first | split | simp)

@[simp] theorem monitor_takeLine (g : Nat) (v : Bool) : (takeLine g v s).1.monitor = s.monitor := by
  unfold takeLine; repeat' (first | split | simp)

@[simp] theorem monitor_restartArrival (g : Nat) (p : Arrival × Nat) : (State.restartArrival g s p).monitor = s.monitor := by
  unfold State.restartArrival; repeat' (first | split | simp)

/-! ## Stabling block: its own commands -/

@[simp] theorem monitor_postStabled (f n p : Nat) : (s.postStabled f n p).monitor = s.monitor := by simp [State.postStabled]

@[simp] theorem monitor_removeRecord (n f p : Nat) (c : StackCause) : (s.removeRecord n f p c).monitor = s.monitor := by
  simp [State.removeRecord]

@[simp] theorem monitor_takeArrival (n f i : Nat) (ev : Progress) : (s.takeArrival n f i ev).monitor = s.monitor := by
  unfold State.takeArrival; repeat' (first | split | simp)

@[simp] theorem monitor_takeDeparture (n f i : Nat) (x : StackRec) (ev : Progress) :
    (s.takeDeparture n f i x ev).monitor = s.monitor := by
  unfold State.takeDeparture; repeat' (first | split | simp)

@[simp] theorem monitor_takeCensus (n : Nat) (es : List CensusEntry) : (takeCensus n es s).1.monitor = s.monitor := by
  unfold takeCensus; repeat' (first | split | simp)

@[simp] theorem monitor_changeSiding (n : Nat) (f : SidingRec → SidingRec) (c : StackCause) :
    (changeSiding n f c s).1.monitor = s.monitor := by
  unfold changeSiding; repeat' (first | split | simp)

@[simp] theorem monitor_takeAbilities (n : Nat) (a : Byte) : (takeAbilities n a s).1.monitor = s.monitor := by
  unfold takeAbilities; repeat' (first | split | simp)

@[simp] theorem monitor_takeDoubt (n : Nat) : (takeDoubt n s).1.monitor = s.monitor := by
  unfold takeDoubt; repeat' (first | split | simp)

@[simp] theorem monitor_postShunt (h : Nat) (e : ShuntEntry) (p : Option ShuntPhase) (c : ShuntCause) :
    (s.postShunt h e p c).monitor = s.monitor := by
  simp [State.postShunt]

@[simp] theorem monitor_postPhase (h : Nat) (c : ShuntCause) : (s.postPhase h c).monitor = s.monitor := by
  unfold State.postPhase; repeat' (first | split | simp)

@[simp] theorem monitor_endShunt (h : Nat) (e : ShuntEntry) (c : ShuntCause) : (s.endShunt h e c).monitor = s.monitor := by
  simp [State.endShunt]

@[simp] theorem monitor_clearIncoming (n : Nat) (c : StackCause) : (s.clearIncoming n c).monitor = s.monitor := by
  unfold State.clearIncoming; repeat' (first | split | simp)

@[simp] theorem monitor_requestIn (h : Nat) (c : ShuntCause) : (s.requestIn h c).1.monitor = s.monitor := by
  unfold State.requestIn
  split
  · rfl
  · rename_i e _
    dsimp only
    split
    · simp
    · split
      · simp
      · rename_i route _
        have hb := monitor_requestRoute (s.onShunt h (fun x => { x with inRoute := none, standing := .none })) [.shuntIn]
          (e.routeRequest h route)
        split <;> rename_i x <;> rw [x] at hb <;> simpa using hb

@[simp] theorem monitor_moveRecord (h : Nat) (e : ShuntEntry) : (s.moveRecord h e).monitor = s.monitor := by
  unfold State.moveRecord; repeat' (first | split | simp)

@[simp] theorem monitor_takeOutWait (h : Nat) (e : ShuntEntry) (i : Nat) (ev : Progress) :
    (s.takeOutWait h e i ev).monitor = s.monitor := by
  unfold State.takeOutWait; repeat' (first | split | simp)

@[simp] theorem monitor_abandonShunt (h : Nat) (e : ShuntEntry) : (s.abandonShunt h e).monitor = s.monitor := by
  unfold State.abandonShunt; repeat' (first | split | simp)

@[simp] theorem monitor_takeOutMoving (h : Nat) (e : ShuntEntry) (ev : Progress) :
    (s.takeOutMoving h e ev).monitor = s.monitor := by
  unfold State.takeOutMoving; repeat' (first | split | simp)

@[simp] theorem monitor_takeIn (h : Nat) (e : ShuntEntry) (i : Nat) (ev : Progress) :
    (s.takeIn h e i ev).monitor = s.monitor := by
  unfold State.takeIn; repeat' (first | split | simp)

@[simp] theorem monitor_noteInversion (f n : Nat) (b : Option StackRec) : (s.noteInversion f n b).monitor = s.monitor := by
  unfold State.noteInversion; repeat' (first | split | simp)

@[simp] theorem monitor_startShunt (h f a i t o : Nat) (w : Owner) : (s.startShunt h f a i t o w).1.monitor = s.monitor := by
  have hb := monitor_requestRoute
    (((s.onStab (fun b => { b with shunts := Tbl.put h ⟨f, a, t, w, .outWait, o, none, .none⟩ b.shunts })).onSiding t
      (fun r => { r with incoming := some h })).markCalled a f (.shuntEntry h) s.stab.handed) [.shuntOut]
    (ShuntEntry.routeRequest h ⟨f, a, t, w, .outWait, o, none, .none⟩ o)
  simp only [monitor_markCalled, monitor_onSiding, monitor_onStab] at hb
  unfold State.startShunt
  dsimp only
  split <;> rename_i e <;> rw [e] at hb <;> simpa using hb

@[simp] theorem monitor_takeShunt (p : Port) (f t : Nat) : (takeShunt p f t s).1.monitor = s.monitor := by
  unfold takeShunt; repeat' (first | split | simp)

@[simp] theorem monitor_takeShuntCancel (p : Port) (h : Nat) : (takeShuntCancel p h s).1.monitor = s.monitor := by
  unfold takeShuntCancel; repeat' (first | split | simp)

@[simp] theorem monitor_moveTarget (h t : Nat) (e : ShuntEntry) : (s.moveTarget h t e).1.monitor = s.monitor := by
  unfold State.moveTarget; repeat' (first | split | simp)

@[simp] theorem monitor_takeRetarget (h t : Nat) : (takeRetarget h t s).1.monitor = s.monitor := by
  unfold takeRetarget
  repeat' (first | split | simp)
  all_goals (rename_i x; have hb := congrArg (fun p => p.1.monitor) x; simpa using hb.symm)

@[simp] theorem monitor_noteRecord (n : Nat) (p : StackRec × Nat) : (State.noteRecord n s p).monitor = s.monitor := by
  unfold State.noteRecord; repeat' (first | split | simp)

@[simp] theorem monitor_noteRecords (n : Nat) (l : List (StackRec × Nat)) :
    (l.foldl (State.noteRecord n) s).monitor = s.monitor :=
  monitor_foldl s (by simp) l

@[simp] theorem monitor_noteSiding (p : Nat × SidingRec) : (State.noteSiding s p).monitor = s.monitor := by
  unfold State.noteSiding; repeat' (first | split | simp)

/-! ## Roster block -/

@[simp] theorem monitor_postRoster (d : Duty) (c : RosterCause) : (s.postRoster d c).monitor = s.monitor := by
  simp [State.postRoster]

@[simp] theorem monitor_takeClockSet (m : Nat) : (takeClockSet m s).1.monitor = s.monitor := by
  unfold takeClockSet; repeat' (first | split | simp)

@[simp] theorem monitor_onDuty (n : Nat) (f : Duty → Duty) : (s.onDuty n f).monitor = s.monitor := by simp [State.onDuty]

@[simp] theorem monitor_dropDuty (n : Nat) : (s.dropDuty n).monitor = s.monitor := by simp [State.dropDuty]

@[simp] theorem monitor_takeRosterAdd (d u g : Nat) (f m : Option Nat) : (takeRosterAdd d u g f m s).1.monitor = s.monitor := by
  unfold takeRosterAdd; repeat' (first | split | simp)

@[simp] theorem monitor_takeRosterRemove (d : Nat) : (takeRosterRemove d s).1.monitor = s.monitor := by
  unfold takeRosterRemove; repeat' (first | split | simp)

@[simp] theorem monitor_takeRosterClear : (takeRosterClear s).1.monitor = s.monitor :=
  (monitor_foldl _ (by simp) _).trans (monitor_onRoster s _)

@[simp] theorem monitor_takeRosterAuto (g v : Nat) : (takeRosterAuto g v s).1.monitor = s.monitor := by
  unfold takeRosterAuto; repeat' (first | split | simp)

@[simp] theorem monitor_makeDeparture (q : DepartAsk) (d : Departure) : (s.makeDeparture q d).monitor = s.monitor := by
  unfold State.makeDeparture; repeat' (first | split | simp)

@[simp] theorem monitor_undoCall (q : DepartAsk) (f : Nat) : (s.undoCall q f).monitor = s.monitor := by
  unfold State.undoCall; repeat' (first | split | simp)

@[simp] theorem monitor_requestDeparture (q : DepartAsk) (f n : Nat) : (s.requestDeparture q f n).1.monitor = s.monitor := by
  unfold State.requestDeparture
  split
  · simp
  · rename_i route _
    have hb := monitor_requestRoute s [.departure] ⟨route, q.owner, q.purpose f, some f⟩
    dsimp only
    split <;> rename_i x <;> rw [x] at hb <;> simpa using hb

@[simp] theorem monitor_departNamed (q : DepartAsk) (f : Nat) : (s.departNamed q f).1.monitor = s.monitor := by
  have hb := monitor_callClaim s f q.stackPurpose
  unfold State.departNamed
  split <;> rename_i x <;> rw [x] at hb <;> simpa using hb

@[simp] theorem monitor_departOpen (q : DepartAsk) (d : Nat) (m : Option Nat) : (s.departOpen q d m).1.monitor = s.monitor := by
  have hb := monitor_selectionClaim s d q.gate m (s.roster.duties.filterMap Duty.fleet)
  unfold State.departOpen
  split <;> rename_i x <;> rw [x] at hb <;> simpa using hb

@[simp] theorem monitor_departDuty (d : Nat) (o : Owner) : (s.departDuty d o).1.monitor = s.monitor := by
  unfold State.departDuty; repeat' (first | split | simp)

@[simp] theorem monitor_departFleet (f g : Nat) (o : Owner) : (s.departFleet f g o).1.monitor = s.monitor := by
  unfold State.departFleet; repeat' (first | split | simp)

@[simp] theorem monitor_takeDepart (p : Port) (d f g : Option Nat) : (takeDepart p d f g s).1.monitor = s.monitor := by
  unfold takeDepart; repeat' (first | split | simp)

@[simp] theorem monitor_postExpired (d : Option Nat) (f : Nat) (ev : Progress) :
    (s.postExpired d f ev).monitor = s.monitor := by
  simp [State.postExpired]

@[simp] theorem monitor_followDuty (e : Duty) (d : Departure) (ev : RouteEvent) :
    (s.followDuty e d ev).monitor = s.monitor := by
  unfold State.followDuty; repeat' (first | split | simp)

@[simp] theorem monitor_followFleet (d : Departure) (ev : RouteEvent) : (s.followFleet d ev).monitor = s.monitor := by
  unfold State.followFleet; repeat' (first | split | simp)

@[simp] theorem monitor_postDueBlocked (e : Duty) (f : Option Nat) (b : Bool) (l : List Field) :
    (s.postDueBlocked e f b l).monitor = s.monitor := by
  simp [State.postDueBlocked]

@[simp] theorem monitor_autoCall (m : Nat) (e : Duty) : (State.autoCall m e s).monitor = s.monitor := by
  have hb := monitor_departDuty s e.duty .auto
  unfold State.autoCall
  generalize s.departDuty e.duty .auto = q at hb ⊢
  obtain ⟨q, st, why, l⟩ := q
  cases st <;> cases why <;> dsimp only <;> (repeat' (first | split | simp [hb]))

@[simp] theorem monitor_dueTest (m : Nat) (e : Duty) : (State.dueTest m e s).monitor = s.monitor := by
  unfold State.dueTest; repeat' (first | split | simp)

@[simp] theorem monitor_lateTest (m : Nat) (e : Duty) : (State.lateTest m e s).monitor = s.monitor := by
  unfold State.lateTest; repeat' (first | split | simp)

/-- A test on a planned entry keeps the reading where the test does. -/
theorem monitor_ifPlanned {f : Duty → State → State} (h : ∀ e t, (f e t).monitor = t.monitor) (d : Nat) :
    (s.ifPlanned d f).monitor = s.monitor := by
  unfold State.ifPlanned; repeat' (first | split | simp [h])

@[simp] theorem monitor_minuteTests (m d : Nat) : (State.minuteTests m s d).monitor = s.monitor := by
  unfold State.minuteTests
  rw [monitor_ifPlanned _ (by simp), monitor_ifPlanned _ (by simp), monitor_ifPlanned _ (by simp)]

@[simp] theorem monitor_minuteEvent (m : Nat) : (State.minuteEvent m s).monitor = s.monitor := monitor_foldl s (by simp) _

@[simp] theorem monitor_dropDeparture (p : StackPurpose) (d : Departure) : (s.dropDeparture p d).monitor = s.monitor := by
  unfold State.dropDeparture; repeat' (first | split | simp)

@[simp] theorem monitor_restartDuty (e : Duty) : (s.restartDuty e).monitor = s.monitor := by
  unfold State.restartDuty; repeat' (first | split | simp)

@[simp] theorem monitor_restartFleet (d : Departure) : (s.restartFleet d).monitor = s.monitor := by simp [State.restartFleet]

/-! ## Supervision -/

@[simp] theorem monitor_sendAll {α : Type} (f : α → Instr) (l : List α) :
    (l.foldl (fun s a => s.send (f a)) s).monitor = s.monitor := monitor_foldl s (by simp) l

@[simp] theorem monitor_takeHalt (v : Bool) : (takeHalt v s).1.monitor = s.monitor := by
  unfold takeHalt; repeat' (first | split | simp)

@[simp] theorem monitor_postRaised (a : Alarm) (c : Nat) (st : AlarmState) (p : Nat) :
    (s.postRaised a c st p).monitor = s.monitor := by
  simp [State.postRaised]

@[simp] theorem monitor_takeRaise (a : Alarm) : (s.takeRaise a).monitor = s.monitor := by
  unfold State.takeRaise; repeat' (first | split | simp)

@[simp] theorem monitor_takeConditionEnd (a : Alarm) : (s.takeConditionEnd a).monitor = s.monitor := by
  unfold State.takeConditionEnd; repeat' (first | split | simp)

@[simp] theorem monitor_takeAlarmAck (p : Nat) (a : Option Alarm) : (takeAlarmAck p a s).1.monitor = s.monitor := by
  unfold takeAlarmAck; repeat' (first | split | simp)

@[simp] theorem monitor_takeAckAll : (takeAckAll s).1.monitor = s.monitor := by simp [takeAckAll]

@[simp] theorem monitor_handRestart (r : Req) : (s.handRestart r).monitor = s.monitor := by simp [State.handRestart]

end Sys2Proof.Machine

/-! # The commands that write the monitor's own fields, and those that do not -/

namespace Sys2Proof.Machine

section

variable (s : State)

/-- The monitor's records after a taking. -/
def monitorAfter : Result → Option (Tbl SectionRec)
  | .next u => some u.monitor
  | _ => none

@[simp] theorem monitorAfter_done : monitorAfter (done s) = some s.monitor := congrArg some (monitor_settle s)

variable {s} in
/-- A request whose owner leaves the monitor's records, refused or admitted. -/
theorem monitorAfter_takeRequest {i : Instr} {k : Kind} {r : Req} {owner : State → State × Ans}
    (h : ∀ u, (owner u).1.monitor = u.monitor) : monitorAfter (takeRequest i k r s owner) = some s.monitor := by
  obtain ⟨t, a, he, rfl | rfl⟩ := takeRequest_done s i k r owner
  · simp [he, h]
  · simp [he]

/-- A request that its port answers. -/
theorem monitorAfter_portOwned (i : Instr) (k : Kind) (r : Req) :
    monitorAfter (takeRequest i k r s (takePortOwned i)) = some s.monitor :=
  monitorAfter_takeRequest (fun u => monitor_takePortOwned u i)

/-! ### Definition records -/

@[simp] theorem monitor_takeSectionDef (n k : Nat) (g sd : Option Nat) (sel : Nat) :
    (takeSectionDef n k g sd sel s).1.monitor = s.monitor := by
  unfold takeSectionDef; split <;> simp

@[simp] theorem monitor_takePointDef (n : Nat) (sc : Option Nat) (l : Nat) : (takePointDef n sc l s).1.monitor = s.monitor :=
  monitor_load s _ _

@[simp] theorem monitor_takeSidingDef (n m b l : Nat) (ab : Byte) : (takeSidingDef n m b l ab s).1.monitor = s.monitor := by
  unfold takeSidingDef; split <;> simp

@[simp] theorem monitor_takeGateDef (n sg rd : Nat) (ap : List Nat) (out : Nat) :
    (takeGateDef n sg rd ap out s).1.monitor = s.monitor := monitor_load s _ _

@[simp] theorem monitor_takeHeadshuntDef (n m : Nat) : (takeHeadshuntDef n m s).1.monitor = s.monitor := monitor_load s _ _

@[simp] theorem monitor_takeRouteDef (p : List Byte) : (takeRouteDef p s).1.monitor = s.monitor := by
  unfold takeRouteDef; split <;> simp

@[simp] theorem monitor_takeYardParams (f : ParamFields) : (takeYardParams f s).1.monitor = s.monitor := monitor_load s _ _

/-- R31: a query clears the noise latch alone. -/
@[simp] theorem monitor_takeSectionQuery (n : Nat) : (takeSectionQuery n s).1.monitor = s.monitor := by
  unfold takeSectionQuery
  split
  · rfl
  · exact monitor_onSection (by intro r; rfl) n

end

/-- The commands that write the monitor's own fields: the monitor's input, expiry and force, the commit and a power-on reset. -/
def writesMonitor : Instr → Bool
  | .powerOnReset _ | .configCommit _ | .occupancyInputChange _ _ | .confirmationTimerExpiry _ | .sectionForceOn _ _
  | .sectionForceOff _ _ => true
  | _ => false

/-- Every other command leaves what the monitor alone writes, in every state. -/
theorem exec_monitor (c : Instr) (s : State) (hc : writesMonitor c = false) : monitorAfter (exec c s) = some s.monitor := by
  cases c with
  | powerOnReset | configCommit | occupancyInputChange | confirmationTimerExpiry | sectionForceOn | sectionForceOff =>
    cases hc
  | controlFrame p l => exact (monitorAfter_done _).trans (congrArg some (monitor_foldl s (by simp) l))
  | inboundFrame g l => exact (monitorAfter_done _).trans (congrArg some (monitor_foldl s (by simp) l))
  | outboundFrame g l => exact (monitorAfter_done _).trans (congrArg some (monitor_foldl s (by simp) l))
  | pointRestart =>
    refine (monitorAfter_done _).trans (congrArg some ?_)
    rw [monitor_send, monitor_foldl _ (by simp), monitor_take]
  | routeRestart =>
    refine (monitorAfter_done _).trans (congrArg some ?_)
    rw [monitor_send, monitor_onRoute, monitor_freeSections, monitor_foldl _ (by simp), monitor_take]
  | stablingRestart =>
    refine (monitorAfter_done _).trans (congrArg some ?_)
    rw [monitor_send, monitor_report, monitor_foldl _ (by simp)]
    simp
  | rosterRestart =>
    refine (monitorAfter_done _).trans (congrArg some ?_)
    rw [monitor_send, monitor_onRoster, monitor_foldl _ (by simp), monitor_foldl _ (by simp), monitor_take]
  | routeHaltReport v =>
    unfold exec execRouteHaltReport
    dsimp only
    split
    · simp
    · rw [monitorAfter_done, monitor_foldl _ (by simp)]
      simp
  | gateRestart g =>
    unfold exec execGateRestart
    dsimp only
    split
    · rw [monitorAfter_done, monitor_send, monitor_foldl _ (by simp)]
      simp
    · simp
  | frameGap | lineBreak | frameSent | occupancyRestart | earlyReadExpiry | gateHaltReport | rosterHaltReport | alarmRaise
  | alarmConditionEnd =>
    exact (monitorAfter_done _).trans (congrArg some (by simp))
  | detectionChange | throwTimerExpiry | coolDownExpiry =>
    simp only [exec, execDetectionChange, execThrowTimerExpiry, execCoolDownExpiry]
    repeat' (first | split | simp)
  | forceFlagReport | routeOccupyEdge | routeClearEdge | pointStateReport | withheldReply | storeTimerExpiry
  | timeReleaseExpiry =>
    simp only [exec, execForceFlagReport, execRouteOccupyEdge, execRouteClearEdge, execPointStateReport, execWithheldReply,
      execStoreTimerExpiry, execTimeReleaseExpiry]
    repeat' (first | split | simp)
  | readerOccupyEdge | readerClearEdge | readerWaitExpiry | stackingReport | gateArrivalEvent | gateDepartureEvent =>
    simp only [exec, execReaderOccupyEdge, execReaderClearEdge, execReaderWaitExpiry, execStackingReport, execGateArrivalEvent,
      execGateDepartureEvent]
    repeat' (first | split | simp)
  | bodyEdge | stablingArrivalEvent | stablingDepartureEvent | shuntOutEvent | shuntInEvent =>
    simp only [exec, execBodyEdge, execStablingArrivalEvent, execStablingDepartureEvent, execShuntOutEvent, execShuntInEvent]
    repeat' (first | split | simp)
  | minuteTimerExpiry | rosterDepartureEvent | restart | restartTakenReport =>
    simp only [exec, execMinuteTimerExpiry, execRosterDepartureEvent, execRestart, execRestartTakenReport]
    repeat' (first | split | simp)
  | status r => exact monitorAfter_portOwned s (.status r) .status r
  | subscribe r g => exact monitorAfter_portOwned s (.subscribe r g) .subscribe r
  | portReset r => exact monitorAfter_portOwned s (.portReset r) .portReset r
  | tableSelect r t q i => exact monitorAfter_portOwned s (.tableSelect r t q i) .tableSelect r
  | tableNext r => exact monitorAfter_portOwned s (.tableNext r) .tableNext r
  | routeCancel r n =>
    show monitorAfter (execRouteCancel r n s) = _
    exact monitorAfter_takeRequest (owner := takeRouteCancel r.port n) (by simp)
  | depart r d f g =>
    show monitorAfter (execDepart r d f g s) = _
    exact monitorAfter_takeRequest (owner := takeDepart r.port d f g) (by simp)
  | _ => exact monitorAfter_takeRequest (by simp)

section

variable {s t : State}

/-- A pending change of the record goes to the input level, against the confirmed state, and the section is not forced. -/
def SectionRec.PendingIsTheInput (r : SectionRec) : Prop :=
  ∀ p, r.pending = some p → r.forced = false ∧ p.toward = r.level ∧ r.level ≠ r.confirmed

/-- The property of the state is one of each section record. -/
theorem pendingIsTheInput_iff (s : State) :
    PendingIsTheInput s ↔ ∀ n r, Tbl.find n s.sections = some r → r.PendingIsTheInput :=
  ⟨fun h n r hr p hp => h n r p hr hp, fun h n r p hr hp => h n r hr p hp⟩

/-- With no change pending there is nothing to ask. -/
theorem SectionRec.pendingIsTheInput_of_none {r : SectionRec} (h : r.pending = none) : r.PendingIsTheInput :=
  fun p hp => by simp [h] at hp

/-- The property is read off what the monitor alone writes. -/
theorem pendingIsTheInput_congr (h : t.monitor = s.monitor) (hs : PendingIsTheInput s) : PendingIsTheInput t := by
  intro n r p hr hp
  have hf : (Tbl.find n s.sections).map SectionRec.own = some r.own := by
    rw [← find_monitor, ← h, find_monitor, hr]
    rfl
  obtain ⟨r', hr', hown⟩ := Option.map_eq_some_iff.mp hf
  simp only [SectionRec.own, SectionRec.mk.injEq] at hown
  obtain ⟨-, hlevel, hconf, hpend, -, hforced, -, -⟩ := hown
  rw [← hforced, ← hlevel, ← hconf]
  exact hs n r' p hr' (hpend.trans hp)

/-- A taking that puts one section record keeps the property where the new record has it. -/
theorem pendingIsTheInput_put {n : Nat} {r : SectionRec} (hs : PendingIsTheInput s) (hp : Put n r s.sections t.sections)
    (hr : r.PendingIsTheInput) : PendingIsTheInput t := by
  rw [pendingIsTheInput_iff] at *
  intro m r' hm
  rw [hp m] at hm
  split at hm
  · cases hm
    exact hr
  · exact hs m r' hm

/-- R21, R23: a level keeps the property: with two levels, one that differs from the confirmed state is the one pending. -/
theorem SectionRec.PendingIsTheInput.atLevel {r : SectionRec} (hr : r.PendingIsTheInput) (level : Occ) (time : Nat) :
    (r.atLevel level time).PendingIsTheInput := by
  unfold SectionRec.atLevel
  split
  · exact pendingIsTheInput_of_none rfl
  · next hd =>
    split
    · next hk =>
      intro p hp
      obtain ⟨hf, htoward, hne⟩ := hr p hp
      have hl : level ≠ r.confirmed := by
        intro hl
        have hp' : r.pending = some p := hp
        exact hd (by simp [SectionRec.dropped, hf, hl, hp'])
      refine ⟨hf, ?_, hl⟩
      change p.toward = level
      rw [htoward]
      revert hl hne
      cases level <;> cases r.level <;> cases r.confirmed <;> simp
    · next hk =>
      simp only [not_or] at hk
      obtain ⟨hf, -, hl⟩ := hk
      rintro p ⟨⟩
      exact ⟨by simpa using hf, rfl, hl⟩

/-- A request keeps the property where its owner does. -/
theorem pendingIsTheInput_takeRequest {i : Instr} {k : Kind} {q : Req} {owner : State → State × Ans} (hs : PendingIsTheInput s)
    (ho : ∀ u, PendingIsTheInput u → PendingIsTheInput (owner u).1) (h : takeRequest i k q s owner = .next t) :
    PendingIsTheInput t := by
  have htake : PendingIsTheInput (s.take i) := hs
  obtain ⟨u, a, he, hu⟩ := takeRequest_done s i k q owner
  rw [he] at h
  cases h
  refine pendingIsTheInput_congr (s := u) (by simp) ?_
  rcases hu with rfl | rfl
  · exact ho _ htake
  · exact htake

/-- R28: a forced section has no change pending. -/
theorem pendingIsTheInput_takeForceOn (n : Nat) (hs : PendingIsTheInput s) : PendingIsTheInput (takeForceOn n s).1 := by
  cases hr : Tbl.find n s.sections with
  | none => simpa [takeForceOn, hr] using hs
  | some r =>
    refine pendingIsTheInput_put hs (put_takeForceOn hr) ?_
    split
    · exact (pendingIsTheInput_iff s).mp hs n r hr
    · exact SectionRec.pendingIsTheInput_of_none rfl

/-- R29: nor has one whose force ends: it had none, and its edge starts none. -/
theorem pendingIsTheInput_takeForceOff (n : Nat) (hs : PendingIsTheInput s) : PendingIsTheInput (takeForceOff n s).1 := by
  cases hr : Tbl.find n s.sections with
  | none => simpa [takeForceOff, hr] using hs
  | some r =>
    refine pendingIsTheInput_put hs (put_takeForceOff hr) ?_
    split
    · exact SectionRec.pendingIsTheInput_of_none rfl
    · exact fun p hp => ⟨rfl, (hs n r p hr hp).2⟩

/-- R14: at the entry to RUN no change is pending. -/
theorem pendingIsTheInput_enterRun (s : State) : PendingIsTheInput s.enterRun := by
  rw [pendingIsTheInput_iff]
  intro n r hr
  rw [find_enterRun_sections] at hr
  obtain ⟨d, -, rfl⟩ := Option.map_eq_some_iff.mp hr
  exact SectionRec.pendingIsTheInput_of_none rfl

/-- R12, R14: a commit that is refused leaves the records, and one that is taken enters RUN. -/
theorem pendingIsTheInput_takeCommit (hs : PendingIsTheInput s) : PendingIsTheInput (takeCommit s).1 := by
  unfold takeCommit
  split
  · exact hs
  · exact pendingIsTheInput_enterRun s

/-- R21 to R23: a change of an occupancy input. -/
theorem pendingIsTheInput_inputChange {n : Nat} {v : LineSignal} (hs : PendingIsTheInput s)
    (h : exec (.occupancyInputChange n v) s = .next t) : PendingIsTheInput t := by
  cases hr : Tbl.find n s.sections with
  | none =>
    rw [(undefinedInput_notTaken n s).1 hr v] at h
    cases h
    exact pendingIsTheInput_congr (monitor_settle _) hs
  | some r =>
    obtain ⟨u, hu, -, -, hp⟩ := sectionInput_qualified n v s r hr
    rw [hu] at h
    cases h
    exact pendingIsTheInput_congr (monitor_settle u)
      (pendingIsTheInput_put hs hp (SectionRec.PendingIsTheInput.atLevel ((pendingIsTheInput_iff s).mp hs n r hr) _ _))

/-- R22: the expiry of a confirmation timer ends the pending change. -/
theorem pendingIsTheInput_confirmation {n : Nat} (hs : PendingIsTheInput s)
    (h : exec (.confirmationTimerExpiry n) s = .next t) : PendingIsTheInput t := by
  have hnone (hx : exec (.confirmationTimerExpiry n) s = done s) : PendingIsTheInput t := by
    rw [hx] at h
    cases h
    exact pendingIsTheInput_congr (monitor_settle s) hs
  cases hr : Tbl.find n s.sections with
  | none => exact hnone (by simp [exec, execConfirmationTimerExpiry, hr])
  | some r =>
    cases hp : r.pending with
    | none => exact hnone (by simp [exec, execConfirmationTimerExpiry, hr, hp])
    | some p =>
      obtain ⟨u, hu, -, hput⟩ := confirmationMakesAnEdge n s r p hr hp
      rw [hu] at h
      cases h
      exact pendingIsTheInput_congr (monitor_settle u)
        (pendingIsTheInput_put hs hput (SectionRec.pendingIsTheInput_of_none rfl))

/-- Every command keeps the property. -/
theorem exec_pendingIsTheInput {c : Instr} (hs : PendingIsTheInput s) (h : exec c s = .next t) : PendingIsTheInput t := by
  cases hc : writesMonitor c with
  | false =>
    have hm := exec_monitor c s hc
    rw [h] at hm
    exact pendingIsTheInput_congr (Option.some.inj hm) hs
  | true =>
    cases c with
    | powerOnReset straps =>
      cases h
      intro n r p hr
      rw [settle_sections] at hr
      cases hr
    | configCommit q => exact pendingIsTheInput_takeRequest hs (fun _ => pendingIsTheInput_takeCommit) h
    | occupancyInputChange n v => exact pendingIsTheInput_inputChange hs h
    | confirmationTimerExpiry n => exact pendingIsTheInput_confirmation hs h
    | sectionForceOn q n => exact pendingIsTheInput_takeRequest hs (fun _ => pendingIsTheInput_takeForceOn n) h
    | sectionForceOff q n => exact pendingIsTheInput_takeRequest hs (fun _ => pendingIsTheInput_takeForceOff n) h
    | _ => cases hc

end

end Sys2Proof.Machine

/-! # Steps: the monitor's property, and the empty queue (log entry 2) -/

namespace Sys2Proof.Machine

section

variable {s t : State}

/-! ## Time that passes -/

/-- A section record a millisecond later. -/
def SectionRec.tick (r : SectionRec) : SectionRec := { r with pending := r.pending.map (fun x => ⟨x.toward, x.left - 1⟩) }

/-- A point record a millisecond later. -/
def PointRec.tick (r : PointRec) : PointRec :=
  { r with throwTimer := r.throwTimer.map (· - 1), coolTimer := r.coolTimer.map (· - 1) }

/-- A route table entry a millisecond later. -/
def RouteEntry.tick (e : RouteEntry) : RouteEntry := { e with timer := e.timer.map (· - 1) }

/-- A gate a millisecond later. -/
def Gate.tick (x : Gate) : Gate :=
  { x with waitTimer := x.waitTimer.map (· - 1), early := x.early.map (fun y => ⟨y.frame, y.left - 1⟩) }

theorem find_tick_sections (s : State) (n : Nat) :
    Tbl.find n s.tick.sections = (Tbl.find n s.sections).map SectionRec.tick :=
  Tbl.find_map s.sections (fun _ => SectionRec.tick) n

theorem find_tick_points (s : State) (n : Nat) : Tbl.find n s.tick.points = (Tbl.find n s.points).map PointRec.tick :=
  Tbl.find_map s.points (fun _ => PointRec.tick) n

theorem find_tick_table (s : State) (n : Nat) :
    Tbl.find n s.tick.route.table = (Tbl.find n s.route.table).map RouteEntry.tick :=
  Tbl.find_map s.route.table (fun _ => RouteEntry.tick) n

theorem find_tick_gates (s : State) (n : Nat) : Tbl.find n s.tick.gates = (Tbl.find n s.gates).map Gate.tick :=
  Tbl.find_map s.gates (fun _ => Gate.tick) n

/-- Time that passes leaves where a pending change goes. -/
theorem pendingIsTheInput_tick (hs : PendingIsTheInput s) : PendingIsTheInput s.tick := by
  intro n r p hr hp
  rw [find_tick_sections] at hr
  obtain ⟨r', hr', rfl⟩ := Option.map_eq_some_iff.mp hr
  obtain ⟨p', hp', rfl⟩ := Option.map_eq_some_iff.mp hp
  exact hs n r' p' hr' hp'

/-- Settles O57: four commands write what the property reads, each of one section's record (`put_takeLevel`,
`confirmationMakesAnEdge`, `put_takeForceOn`, `put_takeForceOff`); a commit and a power-on reset make the records anew, and every
other command leaves them (`exec_monitor`). -/
theorem pendingIsTheInputEveryStep : Obligations.PendingIsTheInputEveryStep := by
  intro s t hs h
  obtain ⟨c, rest, he⟩ | rfl := step_cases h
  · exact exec_pendingIsTheInput (s := { s with pending := rest }) hs he
  · exact pendingIsTheInput_tick hs

/-! ## The expiries that stand -/

theorem ranOut_eq (o : Option Nat) : ranOut o = decide (o = some 0) := by
  rw [Bool.eq_iff_iff, decide_eq_true_iff]
  exact beq_iff_eq

/-- The expiries in their order, kind by kind. -/
theorem expiries_inOrder : expiriesInOrder := by
  intro s
  simp only [State.expiries, State.confirmationsDue, State.pointsDue, State.routesDue, State.gatesDue, ranOut_eq,
    decide_eq_true_eq, List.append_assoc]

/-- R22, R45, R46, R75, R95, R109, R110, R150: each expiry that stands is that of a timer run out. -/
theorem expiries_areOfTimersRunOut : expiriesAreOfTimersRunOut := by
  intro s c
  rw [expiries_inOrder s]
  simp only [List.mem_append, List.mem_map, List.mem_filter]
  cases c with
  | confirmationTimerExpiry n => simp [and_assoc]
  | throwTimerExpiry n => simp
  | coolDownExpiry n => simp
  | storeTimerExpiry k => simp [and_assoc, and_comm (a := StoreEntry.timer _ = 0)]
  | timeReleaseExpiry slot => simp
  | readerWaitExpiry g => simp
  | earlyReadExpiry g => simp
  | minuteTimerExpiry => simp
  | _ => simp

/-! ## The empty queue -/

variable {c : Instr} {l : List Instr}

theorem step_claim (hq : s.pending = []) (hc : s.claims = c :: l) : step s = exec c s := by
  simp [step, State.idle, hq, hc]

theorem step_expiry (hq : s.pending = []) (hc : s.claims = []) (he : s.expiries = c :: l) : step s = exec c s := by
  simp [step, State.idle, hq, hc, he]

theorem step_tick (hq : s.pending = []) (hc : s.claims = []) (he : s.expiries = []) : step s = .next s.tick := by
  simp [step, State.idle, hq, hc, he]

/-- Settles O52: the three cases of the empty queue, and the list of expiries by kind (`expiries_inOrder`). -/
theorem stepOnAnEmptyQueue : Obligations.StepOnAnEmptyQueue := by
  refine ⟨expiries_areOfTimersRunOut, expiries_inOrder, fun s hq => ⟨fun c l => step_claim hq, fun hc c l => step_expiry hq hc,
    fun hc he => ⟨s.tick, step_tick hq hc he, rfl, rfl, rfl, rfl, rfl, rfl, rfl, hq, hc, fun p => ?_, rfl, rfl,
      find_tick_sections s, find_tick_points s, rfl, find_tick_table s, find_tick_gates s, rfl⟩⟩⟩
  cases p <;> rfl

end

end Sys2Proof.Machine

/-! # The point controller's takings (03)

Each taking is of one record after another, and of few operations: a record is changed, a claim sent, a notice posted, a state change
made. `PointTaken` carries what the taking has done so far with the record in hand; each operation has its one rule
(`PointTaken.onPoint`, `.send`, `.post`, `.setState`), and a taking is its operations' rules in their order. -/

namespace Sys2Proof

variable {α : Type}

/-- A table in canonical form finds each record that it holds. -/
theorem Tbl.find_of_mem {t : Tbl α} (h : Tbl.wf t) {p : Nat × α} (hp : p ∈ t) : Tbl.find p.1 t = some p.2 := by
  induction t with
  | nil => cases hp
  | cons q t ih =>
    obtain ⟨hq, ht⟩ := List.pairwise_cons.mp h
    rcases List.mem_cons.mp hp with rfl | hp
    · exact if_pos rfl
    · have hlt : q.1 < p.1 := hq p.1 (List.mem_map_of_mem hp)
      exact (if_neg hlt.ne).trans (ih ht hp)

/-- A number under which a record is held is one of the table's. -/
theorem Tbl.mem_keys_of_find {k : Nat} {a : α} {t : Tbl α} (h : Tbl.find k t = some a) : k ∈ Tbl.keys t :=
  List.mem_map_of_mem (f := Prod.fst) (Tbl.mem_of_find h)

end Sys2Proof

namespace Sys2Proof.Machine

section

/-! ## One record of the point controller through a taking -/

/-- Posts that leave what a further notice depends on: the minute of its stamp and the subscriptions (R150, R175). -/
def KeepsStamp (posts : State → State) : Prop :=
  ∀ s, (posts s).minute = s.minute ∧ ∀ p, ((posts s).port p).subscription = (s.port p).subscription

theorem keepsStamp_id : KeepsStamp id := fun _ => ⟨rfl, fun _ => rfl⟩

theorem KeepsStamp.post {posts : State → State} (h : KeepsStamp posts) (g : Group) (k : Nat) (fs : List Field) :
    KeepsStamp (fun s => (posts s).post g k fs) := by
  intro s
  obtain ⟨hm, hs⟩ := h s
  exact ⟨hm, fun p => by simpa using hs p⟩

/-- A taking up to a state `t`, with the record `x` of one point in hand: its effect so far, and the point table, which is `before` but
for that record. -/
structure PointTaken (parts : List Part) (claims : List Instr) (posts : State → State) (s : State) (before : Tbl PointRec) (n : Nat)
    (x : PointRec) (t : State) : Prop where
  effect : Effect parts claims posts none s t
  put : Put n x before t.points
  points : .points ∈ parts
  roster : .roster ∉ parts
  ports : .ports ∉ parts
  stamp : KeepsStamp posts

variable {parts : List Part} {claims : List Instr} {posts : State → State} {s t : State} {before : Tbl PointRec} {n : Nat}
  {x r : PointRec}

/-- The point controller's own takings change the points alone. -/
theorem pointTaken_found (h : Effect [.points] claims posts none s t) (hs : KeepsStamp posts) (hr : Tbl.find n t.points = some r) :
    PointTaken [.points] claims posts s t.points n r t :=
  ⟨h, put_same hr, by simp, by simp, by simp, hs⟩

/-- A taking that a claim or a request begins. -/
theorem pointTaken_take (c : Instr) (hr : Tbl.find n s.points = some r) :
    PointTaken [.points] (s.claims.erase c) id s s.points n r (s.take c) :=
  pointTaken_found (effect_take s c _) keepsStamp_id hr

/-- A taking that an expiry begins. -/
theorem pointTaken_none (hr : Tbl.find n s.points = some r) : PointTaken [.points] s.claims id s s.points n r s :=
  pointTaken_found (effect_none s _) keepsStamp_id hr

theorem PointTaken.find (h : PointTaken parts claims posts s before n x t) : Tbl.find n t.points = some x :=
  (h.put n).trans (if_pos rfl)

theorem PointTaken.send (h : PointTaken parts claims posts s before n x t) (c : Instr) :
    PointTaken parts (claims ++ [c]) posts s before n x (t.send c) :=
  { h with effect := effect_send h.effect c, put := h.put }

theorem PointTaken.raise (h : PointTaken parts claims posts s before n x t) (a : Alarm) :
    PointTaken parts (claims ++ [.alarmRaise a]) posts s before n x (t.raise a) := h.send _

theorem PointTaken.endAlarm (h : PointTaken parts claims posts s before n x t) (a : Alarm) :
    PointTaken parts (claims ++ [.alarmConditionEnd a]) posts s before n x (t.endAlarm a) := h.send _

/-- A change of the record in hand. -/
theorem PointTaken.onPoint (h : PointTaken parts claims posts s before n x t) (f : PointRec → PointRec) :
    PointTaken parts claims posts s before n (f x) (t.onPoint n f) := by
  refine { h with effect := effect_next h.effect ⟨rfl, rfl, fun y hy => ?_⟩ (port_onPoint t · n f) h.effect.2.1, put := fun m => ?_ }
  · cases y with
    | points => exact absurd h.points hy
    | _ => simp [Part.same]
  · rw [State.onPoint_points, Tbl.find_adjust, h.put m]
    split <;> simp

/-- A further notice of the taking. -/
theorem PointTaken.post (h : PointTaken parts claims posts s before n x t) (g : Group) (k : Nat) (fs : List Field) :
    PointTaken parts claims (fun s => (posts s).post g k fs) s before n x (t.post g k fs) := by
  obtain ⟨⟨⟨hq, ht, hk⟩, hc, hn, ha⟩, hput, hpt, hr, hp, hs⟩ := h
  obtain ⟨hms, hsubs⟩ := hs s
  have hm : t.minute = (posts s).minute := (congrArg Roster.clock (hk .roster hr)).trans hms.symm
  have hsub (p : Port) : (t.port p).subscription = ((posts s).port p).subscription :=
    show (t.port p).aside.subscription = _ by rw [hk .ports hp p]; exact (hsubs p).symm
  refine ⟨⟨⟨hq, ht, fun y hy => ?_⟩, hc, fun p => ?_, fun p => by simpa [NoAnswerAt] using ha p⟩, hput, hpt, hr, hp, hs.post g k fs⟩
  · have hy := hk y hy
    cases y <;> simpa [Part.same] using hy
  · obtain ⟨hn, hl⟩ := hn p
    rw [port_post, port_post, hm]
    exact copyNotice_congr hn hl (hsub p) _ _

/-! ## State changes (R34, R47, R52) -/

theorem positionField_eq (o : Option Position) : f8 (o.map Position.code) = positionField o := by
  rcases o with _ | _ | _ <;> rfl

/-- R47: a point stands in its commanded position. -/
theorem inCommanded_eq (r : PointRec) : (r.commanded.map posState == some r.state) = inCommanded r := by
  unfold inCommanded
  cases r.commanded with
  | none => cases r.state <;> rfl
  | some p => cases p <;> cases r.state <;> rfl

/-- R52: the notice shows the record in hand. -/
theorem PointTaken.postPoint (h : PointTaken parts claims posts s before n x t) (c : PointCause) :
    PointTaken parts claims (fun s => pointNotice n x c (posts s)) s before n x (t.postPoint n c) := by
  have hp : t.postPoint n c = pointNotice n x c t := by
    unfold State.postPoint pointNotice
    rw [h.find, ← positionField_eq]
    rfl
  rw [hp]
  exact h.post .point 1 _

/-- R47: a standing loss condition ends where the record in hand shows its commanded position. -/
theorem PointTaken.endLoss (h : PointTaken parts claims posts s before n x t) :
    PointTaken parts (claims ++ if lossEnds x then [.alarmConditionEnd (.pointLostUnderRoute n)] else []) posts s before n (changed x)
      (t.endLossIfDetected n) := by
  unfold State.endLossIfDetected changed
  rw [h.find]
  dsimp only
  rw [inCommanded_eq]
  change PointTaken _ _ _ _ _ _ _ (if lossEnds x = true then _ else _)
  cases lossEnds x with
  | true => exact (h.onPoint (fun x => { x with lossCondition := false })).endAlarm _
  | false => simpa using h

/-- R34, R47, R52: a state change, with whatever else changes in the taking. -/
theorem PointTaken.setState (h : PointTaken parts claims posts s before n r t) (new : PointState) (c : PointCause)
    (also : PointRec → PointRec) (hx : { also r with state := new } = x) :
    PointTaken parts (claims ++ changeClaims n r.state x c) (fun s => pointNotice n x c (posts s)) s before n (changed x)
      (t.setPointState n new c also) := by
  subst hx
  have hset := ((((h.onPoint (fun y => { also y with state := new })).send
    (.pointStateReport ⟨n, r.state, new, (also r).reading, c⟩)).postPoint c).endLoss)
  rw [List.append_assoc] at hset
  unfold State.setPointState
  rw [h.find]
  exact hset

/-- A state other than NORMAL and REVERSE ends no loss condition, nor does that of a point without a lock. -/
theorem lossEnds_eq_false (h : (x.state ≠ .normal ∧ x.state ≠ .reverse) ∨ x.lock.isSome = false) : lossEnds x = false := by
  unfold lossEnds inCommanded
  rcases h with ⟨hn, hr⟩ | hl
  · simp [hn, hr]
  · simp [hl]

/-- A state change that ends no loss condition is reported alone. -/
theorem PointTaken.setStateAlone (h : PointTaken parts claims posts s before n r t) (new : PointState) (c : PointCause)
    (also : PointRec → PointRec) (hx : { also r with state := new } = x)
    (hl : (x.state ≠ .normal ∧ x.state ≠ .reverse) ∨ x.lock.isSome = false) :
    PointTaken parts (claims ++ [.pointStateReport ⟨n, r.state, x.state, x.reading, c⟩])
      (fun s => pointNotice n x c (posts s)) s before n x (t.setPointState n new c also) := by
  have hset := h.setState new c also hx
  unfold changeClaims changed at hset
  simpa [lossEnds_eq_false hl] using hset

/-! ## Detection (R35 to R37, R42, R47) -/

/-- R47: whether a point that loses its position loses it under its route. -/
def PointRec.losesUnderRoute (r : PointRec) : Bool :=
  (r.state = .normal || r.state = .reverse) && r.lock.isSome && inCommanded r

/-- R36, R37, R42: the state change that a reading makes: the record with its new state, and the cause. -/
def PointRec.changeAt (r : PointRec) (reading : Reading) : Option (PointRec × PointCause) :=
  let seen : PointRec := { r with reading := reading }
  let now : PointState := settledAt reading
  if r.state = .normal || r.state = .reverse then
    if now = r.state then none
    else some ({ seen with state := now, lossLatch := true, lossCondition := r.lossCondition || r.losesUnderRoute }, .detection)
  else if r.state = .lost then if now = .lost then none else some ({ seen with state := now }, .detection)
  else if r.state = .moving ∧ inCommanded { r with state := now } then
    some ({ seen with state := now, drive := none, throwTimer := none, coolTimer := none, failures := 0, firstFailure := none },
      .throwEnd)
  else none

/-- The record that a reading leaves. -/
def PointRec.readAt (r : PointRec) (reading : Reading) : PointRec :=
  match r.changeAt reading with
  | some (x, _) => changed x
  | none => { r with reading := reading }

/-- What the controller does with a reading, by whether the point stands in a position, is LOST, or is MOVING. -/
theorem takeReading_eq (n : Nat) (r : PointRec) (reading : Reading) (t : State) :
    let seen := t.onPoint n (fun x => { x with reading := reading })
    t.takeReading n r reading =
      if r.state = .normal || r.state = .reverse then
        if settledAt reading = r.state then seen
        else
          let gone := seen.setPointState n (settledAt reading) .detection
            (fun x => { x with lossLatch := true, lossCondition := x.lossCondition || r.losesUnderRoute })
          if r.losesUnderRoute then gone.raise (.pointLostUnderRoute n) else gone
      else if r.state = .lost then
        if settledAt reading = .lost then seen else seen.setPointState n (settledAt reading) .detection id
      else if r.state = .moving ∧ inCommanded { r with state := settledAt reading } then
        seen.setPointState n (settledAt reading) .throwEnd (fun x => x.atRest.noFailures)
      else seen := by
  unfold State.takeReading PointRec.losesUnderRoute
  simp only [settledState_eq, inCommanded_eq, ← inCommanded_eq { r with state := settledAt reading }, beq_iff_eq]
  cases r.state <;> simp

/-- R35: a state change that a reading makes records the reading, and leaves the drive or switches it off. -/
theorem changeAt_reading_drive {reading : Reading} {c : PointCause} (h : r.changeAt reading = some (x, c)) :
    x.reading = reading ∧ (x.drive = r.drive ∨ x.drive = none) := by
  unfold PointRec.changeAt at h
  dsimp only at h
  split_ifs at h <;> cases h <;> simp

theorem readAt_reading_drive (r : PointRec) (reading : Reading) :
    (r.readAt reading).reading = reading ∧ ((r.readAt reading).drive = r.drive ∨ (r.readAt reading).drive = none) := by
  unfold PointRec.readAt
  cases h : r.changeAt reading with
  | none => exact ⟨rfl, .inl rfl⟩
  | some y =>
    have hy := changeAt_reading_drive h
    dsimp only
    unfold changed
    split <;> exact hy

/-- R36, R37, R42, R47: the claims, the notice and the record of a reading. -/
theorem PointTaken.takeReading (h : PointTaken parts claims id s before n r t) (reading : Reading) :
    PointTaken parts
      (claims ++ (match r.changeAt reading with | some (x, c) => changeClaims n r.state x c | none => []) ++
        (if (r.changeAt reading).isSome && r.losesUnderRoute then [.alarmRaise (.pointLostUnderRoute n)] else []))
      (fun s => match r.changeAt reading with | some (x, c) => pointNotice n x c s | none => s) s before n (r.readAt reading)
      (t.takeReading n r reading) := by
  have hseen := h.onPoint (fun x => { x with reading := reading })
  rw [takeReading_eq]
  unfold PointRec.readAt PointRec.changeAt
  by_cases hstood : (decide (r.state = .normal) || decide (r.state = .reverse)) = true
  · by_cases hsame : settledAt reading = r.state
    · simp only [if_pos hstood, if_pos hsame, Option.isSome_none, Bool.false_and, Bool.false_eq_true, if_false, List.append_nil]
      exact hseen
    · have hgone := hseen.setState (settledAt reading) .detection
        (fun x => { x with lossLatch := true, lossCondition := x.lossCondition || r.losesUnderRoute }) rfl
      simp only [if_pos hstood, if_neg hsame, Option.isSome_some, Bool.true_and]
      by_cases hl : r.losesUnderRoute = true
      · rw [if_pos hl, if_pos hl]
        exact hgone.raise _
      · rw [if_neg hl, if_neg hl, List.append_nil]
        exact hgone
  · have hkeeps : r.losesUnderRoute = false := by simp [PointRec.losesUnderRoute, hstood]
    simp only [if_neg hstood, hkeeps, Bool.false_eq_true, if_false, Bool.and_false, List.append_nil]
    by_cases hlost : r.state = .lost
    · by_cases hnone : settledAt reading = .lost
      · simp only [if_pos hlost, if_pos hnone, List.append_nil]
        exact hseen
      · simp only [if_pos hlost, if_neg hnone]
        exact hseen.setState (settledAt reading) .detection id rfl
    · by_cases hends : r.state = .moving ∧ inCommanded { r with state := settledAt reading } = true
      · simp only [if_neg hlost, if_pos hends]
        exact hseen.setState (settledAt reading) .throwEnd (fun x => x.atRest.noFailures) rfl
      · simp only [if_neg hlost, if_neg hends, List.append_nil]
        exact hseen

/-- R35 to R37, R42, R47: a change of a defined point's inputs is its new reading taken. -/
theorem detection_taken : detectionIsTaken := by
  intro n a b s r hr
  have hpins := effect_onPins (effect_none s [.lines, .points])
    (fun x => { x with normal := x.normal.set (n - 1) a, reverse := x.reverse.set (n - 1) b }) (by simp)
  have h : PointTaken _ _ _ s s.points n r _ := ⟨hpins, put_same hr, by simp, by simp, by simp, keepsStamp_id⟩
  have htaken := h.takeReading (readingShown a b)
  refine ⟨_, ?_, htaken.effect, congrArg Base.pins (base_takeReading _ n r _), htaken.put⟩
  simp [exec, execDetectionChange, hr, done, readingOf_eq]

/-- R35: a broken input reads as one that does not detect. -/
theorem readingShown_inputs (a b : DetectSignal) :
    (readingShown a b = .normal ↔ a = .detecting ∧ b ≠ .detecting) ∧
    (readingShown a b = .reverse ↔ a ≠ .detecting ∧ b = .detecting) ∧
    (readingShown a b = .none ↔ a ≠ .detecting ∧ b ≠ .detecting) ∧
    (readingShown a b = .both ↔ a = .detecting ∧ b = .detecting) := by
  cases a <;> cases b <;> decide

/-- Settles O40: the record that a change of detection leaves (`detection_taken`) holds the reading of the inputs. -/
theorem detectionIsReadAsItArrives : Obligations.DetectionIsReadAsItArrives := by
  intro n a b s r hr
  obtain ⟨u, hu, -, -, hput⟩ := detection_taken n a b s r hr
  obtain ⟨hreading, hdrive⟩ := readAt_reading_drive r (readingShown a b)
  obtain ⟨hnormal, hreverse, hnone, hboth⟩ := readingShown_inputs a b
  refine ⟨u, r.readAt (readingShown a b), hu, (hput n).trans (if_pos rfl), ?_⟩
  rw [hreading]
  exact ⟨hnormal, hreverse, hnone, hboth, by rintro rfl rfl; rfl, by rintro rfl rfl; rfl, hdrive⟩

/-! ## Throw limit and cool-down (R45, R46) -/

/-- R45: the failure count and the first-failure time after a throw that failed. -/
theorem countFailure_eq (now window : Nat) (r : PointRec) :
    let again : Bool := r.failures ≠ 0 && r.firstFailure.any (fun t => now - t ≤ window)
    r.countFailure now window =
      { r with failures := if again then 2 else 1, firstFailure := if again then r.firstFailure else some now } := by
  unfold PointRec.countFailure
  cases hf : r.failures with
  | zero => simp
  | succ k =>
    cases ht : r.firstFailure with
    | none => simp
    | some t =>
      rcases Nat.lt_or_ge (window + t) now with hw | hw
      · simp [Nat.not_le.mpr hw]
      · simp [hw]

/-- R45, R46: a MOVING point at its throw limit, and a FAILED point at the end of its cool-down. -/
theorem throws_failed : failedThrows := by
  refine fun n s r hr => ⟨fun hmoving => ?_, fun hfailed => ?_⟩
  · have h := (pointTaken_none hr).setState .failed .limit
      (fun x => { x.atRest.countFailure s.seconds s.param.failureWindow with coolTimer := some (s.param.coolDown * 1000) }) rfl
    rw [hmoving, countFailure_eq] at h
    refine ⟨_, ?_, h.effect, h.put⟩
    unfold exec execThrowTimerExpiry
    simp only [hr, if_pos hmoving, done]
  · have h := fun new => (pointTaken_none hr).setState new .coolDownEnd PointRec.atRest rfl
    rw [hfailed] at h
    dsimp only
    by_cases htwice : r.failures = 2
    · have hout := (h .outOfService).raise (.pointOutOfService n)
      simp only [if_pos htwice]
      exact ⟨_, by simp [exec, execCoolDownExpiry, hr, hfailed, htwice, done], hout.effect, hout.put⟩
    · simp only [if_neg htwice, List.append_nil]
      exact ⟨_, by simp [exec, execCoolDownExpiry, hr, hfailed, htwice, settledState_eq, done], (h _).effect, (h _).put⟩

/-- Settles O5: a reading by the state in which it finds the point (`takeReading_eq`), and the two expiries. -/
theorem detectionAndThrowTimers : Obligations.DetectionAndThrowTimers := ⟨detection_taken, throws_failed⟩

/-! ## The desk's requests (R48 to R51) -/

/-- In RUN a point request of the desk is its owner's to decide; its answer ends the taking. -/
theorem exec_pointRequest {q : Req} {k : Kind} {i : Instr} {owner : State → State × Ans} {a : Ans}
    (hx : exec i s = takeRequest i k q s owner) (hk : k.permits q.port = true) (hl : k.loads = false) (hc : i.codesOk = true)
    (hg : i.gateNamed = none) (ho : InRun q s) (h : PointTaken parts claims posts s s.points n x (owner (s.take i)).1)
    (ha : (owner (s.take i)).2 = a) :
    ∃ u, exec i s = .next u.settle ∧ Effect parts claims posts (some (k, q, a)) s u ∧ Put n x s.points u.points := by
  refine ⟨(owner (s.take i)).1.reply k q a, ?_, effect_reply k q a h.effect, by simpa using h.put⟩
  rw [hx, takeRequest_run hk hc hg ho hl, ha]
  rfl

/-- R41, R43: the record that a throw drives. -/
def PointRec.thrown (r : PointRec) (pos : Position) : PointRec :=
  { r with commanded := some pos, drive := some pos, throwTimer := some (r.throwLimit * 1000) }

/-- R48: the row of POINT_THROW that a point meets, its section being free or not: the answer, the record, and the cause of the
notice. -/
def PointRec.throwRow (r : PointRec) (pos : Position) (free : Bool) : Ans × PointRec × Option PointCause :=
  if r.lock.isSome then (⟨.refused, some .locked, []⟩, r, none)
  else if r.state = .outOfService then (⟨.refused, some .unavailable, []⟩, r, none)
  else if r.state = .failed then (⟨.refused, some .wrongState, []⟩, r, none)
  else if r.state = .moving then
    if r.drive = some pos then (⟨.accepted, none, []⟩, r, none) else (⟨.accepted, none, []⟩, r.thrown pos, some .reversal)
  else if r.state = (if pos = .normal then .normal else .reverse) then (⟨.done, none, []⟩, { r with commanded := some pos }, none)
  else if free then (⟨.accepted, none, []⟩, { r.thrown pos with state := .moving }, some .throwStart)
  else (⟨.refused, some .occupied, []⟩, r, none)

/-- What the controller does with POINT_THROW, row by row. -/
theorem takePointThrow_eq (hr : Tbl.find n t.points = some r) (pos : Position) :
    takePointThrow n pos.code t =
      if r.lock.isSome then (t, .refused .locked)
      else if r.state = .outOfService then (t, .refused .unavailable)
      else if r.state = .failed then (t, .refused .wrongState)
      else if r.state = .moving then if r.drive = some pos then (t, .accepted) else (t.reverseThrow n pos, .accepted)
      else if r.state = (if pos = .normal then .normal else .reverse) then
        (t.onPoint n (fun x => { x with commanded := some pos }), .done)
      else if t.isFree r.sect then (t.startThrow n pos, .accepted)
      else (t, .refused .occupied) := by
  have hcode : Position.ofCode? pos.code = some pos := by cases pos <;> rfl
  have htarget : (if pos = .normal then PointState.normal else .reverse) = posState pos := by cases pos <;> rfl
  unfold takePointThrow State.throwAllowed
  rw [hr, hcode, htarget]
  dsimp only
  cases r.state <;> simp

/-- R41, R43, R48: the claims, the notice, the record and the answer of POINT_THROW. -/
theorem PointTaken.throw (h : PointTaken parts claims id s before n r t) (pos : Position) :
    let row := r.throwRow pos (t.isFree r.sect)
    PointTaken parts
      (claims ++ if row.2.2 = some .throwStart then [.pointStateReport ⟨n, r.state, .moving, r.reading, .throwStart⟩] else [])
      (fun s => match row.2.2 with | some c => pointNotice n row.2.1 c s | none => s) s before n row.2.1
      (takePointThrow n pos.code t).1 ∧
    (takePointThrow n pos.code t).2 = row.1 := by
  have hkept : PointTaken parts (claims ++ []) id s before n r t := by simpa using h
  rw [takePointThrow_eq h.find]
  unfold PointRec.throwRow
  by_cases hlock : r.lock.isSome = true
  · simp only [if_pos hlock]
    exact ⟨hkept, rfl⟩
  by_cases hout : r.state = .outOfService
  · simp only [if_neg hlock, if_pos hout]
    exact ⟨hkept, rfl⟩
  by_cases hfailed : r.state = .failed
  · simp only [if_neg hlock, if_neg hout, if_pos hfailed]
    exact ⟨hkept, rfl⟩
  by_cases hmoving : r.state = .moving
  · by_cases hdrive : r.drive = some pos
    · simp only [if_neg hlock, if_neg hout, if_neg hfailed, if_pos hmoving, if_pos hdrive]
      exact ⟨hkept, rfl⟩
    · simp only [if_neg hlock, if_neg hout, if_neg hfailed, if_pos hmoving, if_neg hdrive]
      exact ⟨(hkept.onPoint (PointRec.thrown · pos)).postPoint .reversal, rfl⟩
  simp only [if_neg hlock, if_neg hout, if_neg hfailed, if_neg hmoving]
  by_cases hthere : r.state = (if pos = .normal then .normal else .reverse)
  · simp only [if_pos hthere]
    exact ⟨hkept.onPoint (fun x => { x with commanded := some pos }), rfl⟩
  simp only [if_neg hthere]
  by_cases hfree : t.isFree r.sect = true
  · simp only [if_pos hfree]
    exact ⟨h.setStateAlone .moving .throwStart (PointRec.thrown · pos) rfl (.inl (by simp)), rfl⟩
  · simp only [if_neg hfree]
    exact ⟨hkept, rfl⟩

/-- Settles O6: the rows of POINT_THROW in their order (`takePointThrow_eq`). -/
theorem pointThrowRows : Obligations.PointThrowRows := by
  intro q n pos s r hq ho hr
  have hcode : (if pos = .normal then 1 else 2) = pos.code := by cases pos <;> rfl
  dsimp only
  rw [hcode]
  obtain ⟨h, ha⟩ := (pointTaken_take (.pointThrow q n pos.code) hr).throw pos
  exact exec_pointRequest rfl (by rw [hq]; rfl) rfl (by cases pos <;> rfl) rfl ho h ha

/-- R49: a block takes an unlocked point that is not out of service already. -/
theorem PointTaken.block (h : PointTaken parts claims id s before n r t) :
    let blocks : Bool := r.lock.isNone && decide (r.state ≠ .outOfService)
    let x : PointRec := { r with state := .outOfService, drive := none, throwTimer := none, coolTimer := none }
    PointTaken parts (claims ++ if blocks then [.pointStateReport ⟨n, r.state, .outOfService, r.reading, .block⟩] else [])
      (fun s => if blocks then pointNotice n x .block s else s) s before n (if blocks then x else r) (takePointBlock n t).1 ∧
    (takePointBlock n t).2 = if r.lock.isSome then ⟨.refused, some .locked, []⟩ else ⟨.done, none, []⟩ := by
  have hkept : PointTaken parts (claims ++ []) id s before n r t := by simpa using h
  unfold takePointBlock
  rw [h.find]
  dsimp only
  by_cases hlock : r.lock.isSome = true
  · have hstays : (r.lock.isNone && decide (r.state ≠ .outOfService)) = false := by
      rw [Option.isNone_eq_false_iff.mpr hlock, Bool.false_and]
    simp only [hstays, if_pos hlock]
    exact ⟨hkept, rfl⟩
  by_cases hout : r.state = .outOfService
  · have hstays : (r.lock.isNone && decide (r.state ≠ .outOfService)) = false := by simp [hout]
    simp only [hstays, if_neg hlock, if_pos hout]
    exact ⟨hkept, rfl⟩
  · have hblocks : (r.lock.isNone && decide (r.state ≠ .outOfService)) = true := by simpa [hout] using hlock
    simp only [hblocks, if_neg hlock, if_neg hout]
    exact ⟨h.setStateAlone .outOfService .block PointRec.atRest rfl (.inl (by simp)), rfl⟩

/-- R50: a restore takes a point that is out of service, and reports the change before the condition's end. -/
theorem PointTaken.restore (h : PointTaken parts claims id s before n r t) :
    let x : PointRec := { r with state := settledAt r.reading, failures := 0, firstFailure := none }
    PointTaken parts
      (claims ++ if r.state = .outOfService then
        changeClaims n .outOfService x .restore ++ [.alarmConditionEnd (.pointOutOfService n)] else [])
      (fun s => if r.state = .outOfService then pointNotice n x .restore s else s) s before n
      (if r.state = .outOfService then changed x else r) (takePointRestore n t).1 ∧
    (takePointRestore n t).2 =
      if r.state = .outOfService then ⟨.done, none, []⟩ else ⟨.refused, some .wrongState, []⟩ := by
  unfold takePointRestore
  rw [h.find]
  dsimp only
  by_cases hout : r.state = .outOfService
  · have hset := (h.setState (settledState r.reading) .restore PointRec.noFailures rfl).endAlarm (.pointOutOfService n)
    rw [hout, settledState_eq, List.append_assoc] at hset
    simp only [if_pos hout, settledState_eq]
    exact ⟨hset, rfl⟩
  · simp only [if_neg hout, List.append_nil]
    exact ⟨h, rfl⟩

/-- R51: the answer of POINT_QUERY. -/
theorem pointFields_eq (now n : Nat) (r : PointRec) : pointFields now n r =
    [.u8 n, .u8 r.sect, .u8 r.throwLimit, .u8 r.state.code, .u8 r.reading.code, positionField r.commanded, .u8 (r.lock.getD 0),
      .u16 ((if r.throwTimer.isSome then r.throwTimer else r.coolTimer).getD 65535), .u8 r.failures,
      .u32 ((r.firstFailure.map (fun t => now - t)).getD 4294967295), .u8 (if r.lossLatch then 2 else 1)] := by
  have htime : r.timeLeft = if r.throwTimer.isSome then r.throwTimer else r.coolTimer := by
    unfold PointRec.timeLeft
    cases r.throwTimer <;> rfl
  unfold pointFields
  rw [positionField_eq, htime]
  rfl

/-- R49 to R51: the desk's other requests on a point. -/
theorem blockRestoreQuery_taken : pointBlockRestoreQuery := by
  refine fun q n s r hq ho hr => ⟨?_, ?_, ?_⟩
  · obtain ⟨h, ha⟩ := (pointTaken_take (.pointBlock q n) hr).block
    exact exec_pointRequest rfl (by rw [hq]; rfl) rfl rfl rfl ho h ha
  · obtain ⟨h, ha⟩ := (pointTaken_take (.pointRestore q n) hr).restore
    exact exec_pointRequest rfl (by rw [hq]; rfl) rfl rfl rfl ho h ha
  · have h := pointTaken_take (.pointQuery q n) hr
    have htake : takePointQuery n (s.take (.pointQuery q n)) =
        ((s.take (.pointQuery q n)).onPoint n (fun x => { x with lossLatch := false }), .done (pointFields s.seconds n r)) := by
      unfold takePointQuery
      rw [h.find]
      rfl
    refine exec_pointRequest rfl (by rw [hq]; rfl) rfl rfl rfl ho (htake ▸ h.onPoint (fun x => { x with lossLatch := false })) ?_
    rw [htake, pointFields_eq]
    rfl

/-! ## Restart (R53, R190) -/

/-- R53: whether a restart settles a point: one MOVING and not locked. -/
def PointRec.settles (r : PointRec) : Bool := r.lock.isNone && r.state = .moving

/-- R53: the restart of one point, with its report and its notice where it settles. -/
theorem PointTaken.restart (h : PointTaken parts claims posts s before n r t) :
    PointTaken parts
      (claims ++ if r.settles then [.pointStateReport ⟨n, .moving, settledAt r.reading, r.reading, .restart⟩] else [])
      (fun s => if r.settles then pointNotice n (restartedPoint r) .restart (posts s) else posts s) s before n (restartedPoint r)
      (t.restartPoint n) := by
  have hkept : PointTaken parts (claims ++ []) posts s before n r t := by simpa using h
  unfold State.restartPoint restartedPoint
  rw [h.find]
  dsimp only
  by_cases hlock : r.lock.isSome = true
  · have hstays : r.settles = false := by simp [PointRec.settles, Option.isNone_eq_false_iff.mpr hlock]
    simp only [hstays, if_pos hlock]
    exact hkept
  have hnone : r.lock.isNone = true := by simpa using hlock
  have hstop := hkept.onPoint (fun x =>
    { x with drive := none, throwTimer := none, commanded := if x.state = .failed then x.commanded else none })
  by_cases hmoving : r.state = .moving
  · have hsettles : r.settles = true := by simp [PointRec.settles, hnone, hmoving]
    have hset := hstop.setStateAlone (settledState r.reading) .restart id rfl (.inr (by simpa using hlock))
    simp only [hsettles, if_neg hlock, if_pos hmoving]
    simpa [hmoving, settledState_eq] using hset
  · have hstays : r.settles = false := by simp [PointRec.settles, hmoving]
    simp only [hstays, if_neg hlock, if_neg hmoving]
    exact hstop

/-- R53, log entry 65: the restart point by point, over records held under different numbers. -/
theorem restartPoints_taken {l : Tbl PointRec} (hl : Tbl.wf l) (h : Effect [.points] claims posts none s t)
    (hs : KeepsStamp posts) (hfind : ∀ p ∈ l, Tbl.find p.1 t.points = some p.2) :
    let settled := l.filter (fun p => p.2.settles)
    let u := (Tbl.keys l).foldl State.restartPoint t
    Effect [.points]
      (claims ++ settled.map (fun p => .pointStateReport ⟨p.1, .moving, settledAt p.2.reading, p.2.reading, .restart⟩))
      (fun s => settled.foldl (fun s p => pointNotice p.1 (restartedPoint p.2) .restart s) (posts s)) none s u ∧
    ∀ m, Tbl.find m u.points = if m ∈ Tbl.keys l then (Tbl.find m t.points).map restartedPoint else Tbl.find m t.points := by
  induction l generalizing claims posts t with
  | nil =>
    rw [← List.append_nil claims] at h
    exact ⟨h, fun _ => rfl⟩
  | cons p l ih =>
    obtain ⟨hp, hl⟩ := List.pairwise_cons.mp hl
    have hfresh : p.1 ∉ Tbl.keys l := fun hm => (hp p.1 hm).false
    have hone := (pointTaken_found h hs (hfind p List.mem_cons_self)).restart
    have hrest := ih hl hone.effect hone.stamp (fun x hx => by
      have hne : x.1 ≠ p.1 := fun he => hfresh (he ▸ List.mem_map_of_mem hx)
      rw [hone.put x.1, if_neg hne]
      exact hfind x (List.mem_cons_of_mem p hx))
    obtain ⟨heffect, htable⟩ := hrest
    refine ⟨?_, fun m => ?_⟩
    · cases hsettles : p.2.settles <;> simpa [hsettles, Tbl.keys] using heffect
    · refine (htable m).trans ?_
      rw [hone.put m]
      have hkeys : m ∈ Tbl.keys (p :: l) ↔ m = p.1 ∨ m ∈ Tbl.keys l := List.mem_cons
      by_cases hm : m = p.1
      · subst hm
        simp [hkeys, hfresh, hfind p List.mem_cons_self]
      · simp [hkeys, hm]

/-- R52, R53, R190: a restart at the point controller. -/
theorem restart_settles : pointRestartSettles := by
  intro s hwf
  have htake : Effect [.points] (s.claims.erase .pointRestart) id none s (s.take .pointRestart) := effect_take s .pointRestart _
  obtain ⟨h, htable⟩ := restartPoints_taken hwf htake keepsStamp_id (fun p hp => Tbl.find_of_mem hwf hp)
  refine ⟨_, rfl, effect_send h (.restartTakenReport .point), fun m => (htable m).trans ?_⟩
  by_cases hm : m ∈ Tbl.keys s.points
  · rw [if_pos hm]
    rfl
  · have hnone : Tbl.find m s.points = none := by
      cases hf : Tbl.find m s.points with
      | none => rfl
      | some r => exact absurd (Tbl.mem_keys_of_find hf) hm
    rw [if_neg hm]
    simp [hnone]

/-- Settles O7: each request by the states in which it finds the point, and the restart point by point. -/
theorem pointRequestsAndRestart : Obligations.PointRequestsAndRestart := ⟨blockRestoreQuery_taken, restart_settles⟩

end

end Sys2Proof.Machine

/-! # The output lines at the end of every taking (04 section 4.7, 06 section 6.6, 10 section 10.4) -/

namespace Sys2Proof.Machine

section

variable {s t : State}

/-! ## What the lines show -/

/-- R119: a held-reason set is empty where it is the set of no reason. -/
theorem Held.isEmpty_eq (h : Held) : h.isEmpty = decide (h = ⟨false, false, false, false, false, false, false⟩) := by
  obtain ⟨a, b, c, d, e, f, g⟩ := h
  rw [Bool.eq_iff_iff, decide_eq_true_iff]
  simp [Held.isEmpty, and_assoc]

/-- R189: the alarm output is asserted by the overflow and by every entry that is not ACKED. -/
theorem Supervision.asserts_eq (v : Supervision) : v.asserts = (v.overflow || v.alarms.any (fun a => a.state ≠ .acked)) := by
  unfold Supervision.asserts
  congr 2
  funext a
  cases a.state <;> rfl

/-- R66: the state in which a point stands in a position. -/
theorem posState_eq (p : Position) : posState p = if p = .normal then .normal else .reverse := by cases p <;> rfl

/-- R66: a point is detected in a position where its record shows it there. -/
theorem detected_iff {n : Nat} {p : Position} : s.detected n p = true ↔ ∃ r, Tbl.find n s.points = some r ∧ r.state = posState p := by
  simp [State.detected, State.pointState]

/-- R71: the points of a route stand for a slot: each locked to it and detected in its required position. -/
theorem pointsStand_iff {slot : Nat} {d : RouteDef} : s.pointsStand slot d = true ↔
    ∀ p ∈ d.points, ∃ r, Tbl.find p.1 s.points = some r ∧ r.lock = some slot ∧ r.state = posState p.2 := by
  unfold State.pointsStand
  rw [List.all_eq_true]
  refine forall₂_congr fun p _ => ?_
  rw [Bool.and_eq_true, decide_eq_true_iff, detected_iff]
  cases Tbl.find p.1 s.points <;> simp

/-- R71: an entry that lets its origin signal show proceed, the halt flag apart. -/
def State.clears (s : State) (signal : Nat) (p : Nat × RouteEntry) : Prop :=
  p.2.state = .proceed ∧ ∃ d, s.routeDef p.2.route = some d ∧ d.origin = signal ∧ s.pointsStand p.1 d = true

/-- R71: the aspect of a signal. -/
theorem aspect_iff {n : Nat} : s.aspect n = true ↔ s.route.halt = false ∧ ∃ p ∈ s.route.table, s.clears n p := by
  unfold State.aspect State.clears
  simp only [Bool.and_eq_true, Bool.not_eq_true', List.any_eq_true, decide_eq_true_eq]
  refine and_congr_right fun _ => exists_congr fun p => and_congr_right fun _ => and_congr_right fun _ => ?_
  cases s.routeDef p.2.route <;> simp

/-- R71: the signals that show proceed are those of 48 whose aspect is proceed. -/
theorem mem_proceedSignals {n : Nat} : n ∈ s.proceedSignals ↔ (1 ≤ n ∧ n ≤ 48) ∧ s.aspect n = true := by
  unfold State.proceedSignals
  rw [List.mem_filter, List.mem_range'_1]
  exact and_congr_left fun _ => by omega

/-- R71: the signals that show proceed, read off the records. -/
theorem mem_proceedSignals_iff {n : Nat} : n ∈ s.proceedSignals ↔ 1 ≤ n ∧ n ≤ 48 ∧ s.route.halt = false ∧
    ∃ p ∈ s.route.table, p.2.state = .proceed ∧ ∃ d, s.routeDef p.2.route = some d ∧ d.origin = n ∧
      ∀ x ∈ d.points, ∃ r, Tbl.find x.1 s.points = some r ∧ r.lock = some p.1 ∧
        r.state = (if x.2 = .normal then .normal else .reverse) := by
  rw [mem_proceedSignals, aspect_iff, and_assoc]
  simp only [State.clears, pointsStand_iff, posState_eq]

/-! ## The lines follow the state in every step (R71, R119, R189) -/

/-- The end of a taking sets the lines. -/
theorem outputsFollow_settle (s : State) : OutputsFollow s.settle := by
  refine ⟨?_, fun m x hx hm => ?_, ?_⟩
  · rw [settle_route]
    exact (aspect_congr (by simp) (by simp) (by simp) (by simp)).symm
  · rw [find_settle_gates, if_pos hm] at hx
    obtain ⟨y, -, rfl⟩ := Option.map_eq_some_iff.mp hx
    exact Held.isEmpty_eq y.held
  · rw [settle_sup]
    exact Supervision.asserts_eq s.sup

/-- Time that passes leaves what a point that stands shows. -/
theorem pointsStand_tick (slot : Nat) (d : RouteDef) : s.tick.pointsStand slot d = s.pointsStand slot d := by
  rw [Bool.eq_iff_iff, pointsStand_iff, pointsStand_iff]
  refine forall₂_congr fun p _ => ?_
  rw [find_tick_points]
  cases Tbl.find p.1 s.points <;> simp [PointRec.tick]

/-- Time that passes leaves the aspects. -/
theorem proceedSignals_tick (s : State) : s.tick.proceedSignals = s.proceedSignals := by
  unfold State.proceedSignals
  congr 1
  funext n
  have htable : s.tick.route.table = s.route.table.map (fun p => (p.1, p.2.tick)) := rfl
  have hdef (k : Nat) : s.tick.routeDef k = s.routeDef k := rfl
  have hhalt : s.tick.route.halt = s.route.halt := rfl
  rw [Bool.eq_iff_iff, aspect_iff, aspect_iff, htable, hhalt]
  simp [State.clears, pointsStand_tick, hdef, RouteEntry.tick]

/-- Time that passes changes timers alone, on which no line depends. -/
theorem outputsFollow_tick (h : OutputsFollow s) : OutputsFollow s.tick := by
  obtain ⟨hp, hg, ho⟩ := h
  refine ⟨hp.trans (proceedSignals_tick s).symm, fun m x hx hm => ?_, ho⟩
  rw [find_tick_gates] at hx
  obtain ⟨y, hy, rfl⟩ := Option.map_eq_some_iff.mp hx
  exact hg m y hy hm

/-- Settles O55: every command ends with `State.settle` (`exec_taken`), which sets the lines whatever they were, and time that passes
leaves what they depend on. -/
theorem outputsFollowEveryStep : Obligations.OutputsFollowEveryStep := by
  intro s t hs h
  obtain ⟨c, rest, he⟩ | rfl := step_cases h
  · obtain ⟨u, hu, -⟩ := exec_taken c { s with pending := rest }
    rw [he] at hu
    cases hu
    exact outputsFollow_settle u
  · exact outputsFollow_tick hs

end

end Sys2Proof.Machine

/-! # How every taking ends: the lines and the ports (09 sections 9.3, 9.4, 9.6) -/

namespace Sys2Proof.Machine

section

variable {s t u : State} {p : Port}

/-! ## One port changed -/

/-- States that differ in ports and claims alone. -/
theorem keepsAllBut_of_bare (h : u.bare = s.bare) : KeepsAllBut [.ports] s u := by
  have hfield {α : Type} (f : State → α) (hf : ∀ t : State, f t.bare = f t) : f u = f s := by rw [← hf u, ← hf s, h]
  refine ⟨hfield State.pending fun _ => rfl, hfield State.uptime fun _ => rfl, fun x hx => ?_⟩
  cases x with
  | lines => exact hfield State.pins fun _ => rfl
  | store => exact ⟨hfield State.op fun _ => rfl, hfield State.desc fun _ => rfl, hfield State.inForce fun _ => rfl⟩
  | sections => exact hfield State.sections fun _ => rfl
  | points => exact hfield State.points fun _ => rfl
  | routes => exact hfield State.route fun _ => rfl
  | gates => exact hfield State.gates fun _ => rfl
  | stabling => exact hfield State.stab fun _ => rfl
  | roster => exact hfield State.roster fun _ => rfl
  | supervision => exact hfield State.sup fun _ => rfl
  | ports => exact absurd List.mem_cons_self hx

theorem onlyPort_onPort (s : State) (p : Port) (f : PortState → PortState) : OnlyPort p (f (s.port p)) s (s.onPort p f) :=
  ⟨keepsAllBut_of_bare (bare_onPort s p f), State.onPort_same s p f, fun _ h => State.onPort_other s h f⟩

theorem onlyPort_then_onPort {x : PortState} (h : OnlyPort p x s t) (f : PortState → PortState) : OnlyPort p (f x) s (t.onPort p f) := by
  obtain ⟨hk, hp, ho⟩ := h
  refine ⟨hk.trans (keepsAllBut_of_bare (bare_onPort t p f)), ?_, fun q hq => (State.onPort_other t hq f).trans (ho q hq)⟩
  rw [State.onPort_same, hp]

theorem onlyPort_send {x : PortState} (h : OnlyPort p x s t) (c : Instr) : OnlyPort p x s (t.send c) := by
  obtain ⟨hk, hp, ho⟩ := h
  exact ⟨hk.trans (keepsAllBut_of_bare rfl), by rw [port_send, hp], fun q hq => by rw [port_send]; exact ho q hq⟩

theorem onlyPort_take {x : PortState} (h : OnlyPort p x s t) (c : Instr) : OnlyPort p x s (t.take c) := by
  obtain ⟨hk, hp, ho⟩ := h
  exact ⟨hk.trans (keepsAllBut_of_bare rfl), by rw [port_take, hp], fun q hq => by rw [port_take]; exact ho q hq⟩

/-- The state with one port changed is determined by that port and the claims in flight. -/
theorem onlyPort_unique {x : PortState} (ht : OnlyPort p x s t) (hu : OnlyPort p x s u) (hc : t.claims = u.claims) : t = u := by
  obtain ⟨⟨hq, htime, hk⟩, hp, ho⟩ := ht
  obtain ⟨⟨hq', htime', hk'⟩, hp', ho'⟩ := hu
  have hport (q : Port) : t.port q = u.port q := by
    by_cases h : q = p
    · rw [h, hp, hp']
    · rw [ho q h, ho' q h]
  have hpart (y : Part) (hy : y ∉ [Part.ports]) : y.same s t ∧ y.same s u := ⟨hk y hy, hk' y hy⟩
  obtain ⟨⟨h1, h2, h3⟩, h1', h2', h3'⟩ := hpart .store (by simp)
  obtain ⟨h4, h4'⟩ := hpart .lines (by simp)
  obtain ⟨h5, h5'⟩ := hpart .sections (by simp)
  obtain ⟨h6, h6'⟩ := hpart .points (by simp)
  obtain ⟨h7, h7'⟩ := hpart .routes (by simp)
  obtain ⟨h8, h8'⟩ := hpart .gates (by simp)
  obtain ⟨h9, h9'⟩ := hpart .stabling (by simp)
  obtain ⟨h10, h10'⟩ := hpart .roster (by simp)
  obtain ⟨h11, h11'⟩ := hpart .supervision (by simp)
  have hdesk : t.desk = u.desk := hport .desk
  have hplanner : t.planner = u.planner := hport .planner
  have hline : t.line = u.line := hport .line
  simp only [Part.same] at *
  cases t
  cases u
  simp_all

/-! ## Requests that the port owns (R174, R176 to R179) -/

/-- What a port-owned request may do to its port: it lengthens neither the queue nor the answer path, and leaves a request in hand
there. -/
def PortState.Serves (f : PortState → PortState) : Prop :=
  ∀ q, (f q).path.length ≤ q.path.length ∧ (f q).queue.length ≤ q.queue.length ∧ (f q).inHand.isSome = q.inHand.isSome

theorem serves_reset (own : PortState → Bool) : PortState.Serves (fun q => q.reset (own q)) := by
  intro q
  unfold PortState.reset
  exact ⟨by simpa using List.length_filter_le _ _, Nat.zero_le _, by simp⟩

/-- A request that the port answers changes that port alone. -/
theorem takePortOwned_cases {c : Instr} {k : Kind} {r : Req} (hc : requestOf c = some (k, r)) (s : State) :
    ∃ f, (takePortOwned c s).1 = s.onPort r.port f ∧ PortState.Serves f := by
  have hnone (a : Ans) : ∃ f, (s, a).1 = s.onPort r.port f ∧ PortState.Serves f :=
    ⟨id, by cases r.port <;> rfl, fun q => ⟨le_rfl, le_rfl, rfl⟩⟩
  have hkeeps {f : PortState → PortState} (a : Ans) (hf : PortState.Serves f) :
      ∃ g, (s.onPort r.port f, a).1 = s.onPort r.port g ∧ PortState.Serves g := ⟨f, rfl, hf⟩
  cases c with
  | status r' => cases hc; exact hkeeps _ fun q => ⟨le_rfl, le_rfl, rfl⟩
  | subscribe r' g => cases hc; exact hkeeps _ fun q => ⟨le_rfl, le_rfl, rfl⟩
  | portReset r' =>
    cases hc
    exact ⟨fun q => q.reset (q.awaits (BitVec.ofNat 8 Kind.portReset.code) r.tag), rfl, serves_reset _⟩
  | tableSelect r' table x i =>
    cases hc
    unfold takePortOwned takeTableSelect
    dsimp only
    repeat' split
    · exact hnone _
    · exact hnone _
    · exact hnone _
    · exact hnone _
    · exact hkeeps _ fun q => ⟨le_rfl, le_rfl, rfl⟩
  | tableNext r' =>
    cases hc
    unfold takePortOwned takeTableNext
    dsimp only
    repeat' split
    · exact hnone _
    · exact hnone _
    · exact hkeeps _ fun q => ⟨le_rfl, le_rfl, rfl⟩
  | _ => exact hnone (.refused .badArgument)

/-- A payload of a kind that the port owns is read as a request of that kind, which its command takes as the port does. -/
theorem decode_portOwned {k : Kind} {r : Req} {l : List Byte} {c : Instr} (hk : k.ownedByPort = true)
    (h : decodeRequest k r l = some c) :
    requestOf c = some (k, r) ∧ ∀ s, exec c s = takeRequest c k r s (takePortOwned c) := by
  cases k with
  | status =>
    match l with
    | [] => cases h; exact ⟨rfl, fun _ => rfl⟩
    | _ :: _ => cases h
  | subscribe =>
    match l with
    | [] => cases h
    | [_] => cases h; exact ⟨rfl, fun _ => rfl⟩
    | _ :: _ :: _ => cases h
  | portReset =>
    match l with
    | [] => cases h; exact ⟨rfl, fun _ => rfl⟩
    | _ :: _ => cases h
  | tableSelect =>
    match l with
    | [] | [_] | [_, _] => cases h
    | [_, _, _] => cases h; exact ⟨rfl, fun _ => rfl⟩
    | _ :: _ :: _ :: _ :: _ => cases h
  | tableNext =>
    match l with
    | [] => cases h; exact ⟨rfl, fun _ => rfl⟩
    | _ :: _ => cases h
  | _ => cases hk

/-! ## The hand-over (R171) -/

/-- The port with its oldest request in hand. -/
def PortState.withHand (f : Frame) (rest : List Frame) (op : OpState) (q : PortState) : PortState :=
  { q with queue := rest, inHand := some ⟨f.kind, f.tag, op, false, false⟩ }

theorem withHand_awaits (f : Frame) (rest : List Frame) (op : OpState) (q : PortState) :
    (q.withHand f rest op).awaits f.kind f.tag = true := by
  simp [PortState.withHand, PortState.awaits]

/-- An answer that the port forms at once is that of the request in hand. -/
theorem answer_withHand (f : Frame) (rest : List Frame) (op : OpState) (a : Ans) (q : PortState) :
    (q.withHand f rest op).answer f.kind f.tag a = { q with
      queue := rest, inHand := some ⟨f.kind, f.tag, op, true, false⟩,
      path := q.path ++ [⟨f.kind, f.tag, a, false, true, false⟩] } := by
  unfold PortState.answer
  rw [withHand_awaits]
  rfl

theorem Kind.code_of_ofCode? {n : Nat} {k : Kind} (h : Kind.ofCode? n = some k) : k.code = n := by
  have := List.find?_some h
  simpa using this

/-- The state in which the port has its oldest request in hand. -/
def State.inHand (s : State) (p : Port) (f : Frame) (rest : List Frame) : State := s.onPort p (PortState.withHand f rest s.op)

/-- R171: the hand-over of the oldest request, by the first thing that the port finds. -/
theorem handOver_eq {f : Frame} {rest : List Frame} (hh : (s.port p).inHand = none) (hq : (s.port p).queue = f :: rest) :
    s.handOver p =
      let hand := s.inHand p f rest
      let refuse (r : Reason) := hand.onPort p (PortState.answer f.kind f.tag (.refused r))
      match Kind.ofCode? f.kind.toNat with
      | none => refuse .badArgument
      | some k =>
        if !k.permits p then refuse .notPermitted
        else match decodeRequest k ⟨p, f.tag⟩ f.payload with
          | none => refuse .badArgument
          | some i =>
            match hand.portCheck hand.op k p i with
            | some r => refuse r
            | none =>
              if k.ownedByPort then
                (takePortOwned i hand).1.onPort p (PortState.answer f.kind f.tag (takePortOwned i hand).2)
              else hand.send i := by
  unfold State.handOver
  rw [hh, hq]
  rfl

/-- A request is handed on only where none is in hand and one waits. -/
theorem handOver_none (h : (s.port p).inHand.isSome ∨ (s.port p).queue = []) : s.handOver p = s := by
  unfold State.handOver
  split
  · rename_i hh hq
    rcases h with h | h
    · rw [hh] at h; cases h
    · rw [hq] at h; cases h
  · rfl

/-- R171: the port's check of a permitted request: its codes, and in RUN the gate that it names. -/
theorem portCheck_permitted {op : OpState} {k : Kind} {c : Instr} (hk : k.permits p = true) : s.portCheck op k p c =
    if (!c.codesOk || (match c.gateNamed with
      | some g => decide (op = .run) && (Tbl.find g s.desc.gates).isNone | none => false)) = true
    then some .badArgument else none := by
  unfold State.portCheck
  rw [hk]
  cases c.codesOk
  · rfl
  · cases c.gateNamed <;> simp

/-- Log entry 17: a request that the port owns is taken at the hand-over as its command is taken from the state with the request in
hand. -/
theorem exec_portOwned {f : Frame} {rest : List Frame} {k : Kind} {c : Instr} (hk : Kind.ofCode? f.kind.toNat = some k)
    (ho : k.ownedByPort = true) (hd : decodeRequest k ⟨p, f.tag⟩ f.payload = some c)
    (hc : (s.inHand p f rest).portCheck s.op k p c = none)
    (ht : OnlyPort p ((s.port p).withHand f rest s.op) s t) (hcl : t.claims = c :: s.claims) :
    exec c t = done ((takePortOwned c (s.inHand p f rest)).1.onPort p
      (PortState.answer f.kind f.tag (takePortOwned c (s.inHand p f rest)).2)) := by
  have hcode : BitVec.ofNat 8 k.code = f.kind := by rw [Kind.code_of_ofCode? hk, BitVec.ofNat_toNat, BitVec.setWidth_eq]
  have htake : t.take c = s.inHand p f rest :=
    onlyPort_unique (onlyPort_take ht c) (onlyPort_onPort s p _) (by simp [State.inHand, State.take, hcl])
  have hin : (s.inHand p f rest).takenIn k ⟨p, f.tag⟩ = s.op := by
    rw [takenIn_eq]
    cases hop : s.op <;> simp [State.inHand, PortState.withHand, hop]
  have hloads : k.loads = false := by cases k <;> first | rfl | cases ho
  rw [(decode_portOwned ho hd).2, takeRequest_admitted]
  · rw [htake, State.reply, hcode]
  · rw [htake, hin]; exact hc
  · simp [State.stateCheck, hloads, ho]

/-- What the port refuses at once is answered with the reason, as the request in hand. -/
theorem refusedAtOnce (s : State) (p : Port) (f : Frame) (rest : List Frame) (r : Reason) :
    ((s.inHand p f rest).onPort p (PortState.answer f.kind f.tag (.refused r))).claims = s.claims ∧
    OnlyPort p { s.port p with
      queue := rest, inHand := some ⟨f.kind, f.tag, s.op, true, false⟩,
      path := (s.port p).path ++ [⟨f.kind, f.tag, ⟨.refused, some r, []⟩, false, true, false⟩] } s
      ((s.inHand p f rest).onPort p (PortState.answer f.kind f.tag (.refused r))) := by
  refine ⟨by simp [State.inHand], ?_⟩
  have h := onlyPort_then_onPort (onlyPort_onPort s p (PortState.withHand f rest s.op)) (PortState.answer f.kind f.tag (.refused r))
  rwa [answer_withHand] at h

/-- R171: the hand-over, in the words of the statement. -/
theorem handsOn_handOver {f : Frame} {rest : List Frame} (hh : (s.port p).inHand = none) (hq : (s.port p).queue = f :: rest) :
    HandsOn p f rest s (s.handOver p) := by
  rw [handOver_eq hh hq]
  unfold HandsOn
  dsimp only
  cases hk : Kind.ofCode? f.kind.toNat with
  | none => exact refusedAtOnce s p f rest .badArgument
  | some k =>
    have hcode : k.code = f.kind.toNat := Kind.code_of_ofCode? hk
    dsimp only
    rw [← hcode, ← permits_eq_mayMake]
    cases hp : k.permits p with
    | false => exact refusedAtOnce s p f rest .notPermitted
    | true =>
      cases hd : decodeRequest k ⟨p, f.tag⟩ f.payload with
      | none => exact refusedAtOnce s p f rest .badArgument
      | some c =>
        have hcheck : (s.inHand p f rest).portCheck (s.inHand p f rest).op k p c = _ := portCheck_permitted hp
        have hop : (s.inHand p f rest).op = s.op := by simp [State.inHand]
        have hdesc : (s.inHand p f rest).desc = s.desc := by simp [State.inHand]
        rw [hop, hdesc] at hcheck
        rw [hop]
        dsimp only [Bool.not_true]
        generalize hbad : (!c.codesOk || _) = bad at hcheck ⊢
        cases bad with
        | true => rw [hcheck]; exact refusedAtOnce s p f rest .badArgument
        | false =>
          have hnone : (s.inHand p f rest).portCheck s.op k p c = none := hcheck
          rw [hnone]
          have howned := ownedByPort_eq k
          by_cases h5 : 0x05 < k.code
          · have hno : k.ownedByPort = false := by rw [howned, decide_eq_true h5]; rfl
            simp only [hno, if_pos h5]
            exact ⟨by simp [State.inHand, State.send], onlyPort_send (onlyPort_onPort s p _) c⟩
          · have hown : k.ownedByPort = true := by rw [howned, decide_eq_false h5]; rfl
            simp only [hown, if_neg h5]
            obtain ⟨g, hg, -⟩ := takePortOwned_cases (decode_portOwned hown hd).1 (s.inHand p f rest)
            have honly := onlyPort_then_onPort (onlyPort_then_onPort (onlyPort_onPort s p (PortState.withHand f rest s.op)) g)
              (PortState.answer f.kind f.tag (takePortOwned c (s.inHand p f rest)).2)
            have htaken : ((s.onPort p (PortState.withHand f rest s.op)).onPort p g) = (takePortOwned c (s.inHand p f rest)).1 :=
              hg.symm
            rw [htaken] at honly
            refine ⟨honly.1, ?_, honly.2.2, fun t ht hcl => exec_portOwned hk hown hd hnone ht hcl⟩
            rw [hg]
            simp [State.inHand]

/-! ## Sending (R172, R179) -/

/-- What a port has left to send or to hand on, but for its notices. -/
def PortState.work (q : PortState) : Nat := q.path.length + q.queue.length

/-- A port that has nothing to hand on: a request is in hand, or none waits. -/
def PortState.Busy (q : PortState) : Prop := q.inHand.isSome ∨ q.queue = []

/-- After a hand-over a request is in hand, and the answer that the port may have formed has taken the request's place. -/
theorem handOver_hands {f : Frame} {rest : List Frame} (hh : (s.port p).inHand = none) (hq : (s.port p).queue = f :: rest) :
    ((s.handOver p).port p).inHand.isSome ∧ ((s.handOver p).port p).work ≤ (s.port p).work := by
  have hwork : (s.port p).work = (s.port p).path.length + rest.length + 1 := by rw [PortState.work, hq]; rfl
  have hrefused (r : Reason) : let t := (s.inHand p f rest).onPort p (PortState.answer f.kind f.tag (.refused r))
      (t.port p).inHand.isSome ∧ (t.port p).work ≤ (s.port p).work := by
    obtain ⟨-, -, hp, -⟩ := refusedAtOnce s p f rest r
    dsimp only
    rw [hp, hwork]
    exact ⟨rfl, by simp [PortState.work]; omega⟩
  rw [handOver_eq hh hq]
  dsimp only
  split
  · exact hrefused _
  · split
    · exact hrefused _
    · split
      · exact hrefused _
      · rename_i k _ _ c hd
        split
        · exact hrefused _
        · split
          · rename_i hown
            obtain ⟨g, hg, hserves⟩ := takePortOwned_cases (decode_portOwned hown hd).1 (s.inHand p f rest)
            obtain ⟨hpath, hqueue, hhand⟩ := hserves ((s.port p).withHand f rest s.op)
            rw [hg, hwork, State.inHand]
            simp only [State.onPort_same, PortState.work, answer_path, answer_inHand, answer_queue, List.length_append]
            refine ⟨?_, ?_⟩
            · split
              · rw [Option.isSome_map, hhand]; rfl
              · rw [hhand]; rfl
            · change _ ≤ (s.port p).path.length at hpath
              change _ ≤ rest.length at hqueue
              simp only [List.length_cons, List.length_nil]
              omega
          · refine ⟨by simp [State.inHand, PortState.withHand], ?_⟩
            rw [hwork]
            simp [State.inHand, PortState.withHand, PortState.work]

/-- A hand-over leaves a port that has nothing to hand on, and no more work than before. -/
theorem handOver_busy (s : State) (p : Port) :
    ((s.handOver p).port p).Busy ∧ ((s.handOver p).port p).work ≤ (s.port p).work := by
  cases hq : (s.port p).queue with
  | nil => rw [handOver_none (.inr hq)]; exact ⟨.inr hq, le_rfl⟩
  | cons f rest =>
    cases hh : (s.port p).inHand with
    | none =>
      obtain ⟨hhand, hwork⟩ := handOver_hands hh hq
      exact ⟨.inl hhand, hwork⟩
    | some h =>
      have hsome : (s.port p).inHand.isSome := by rw [hh]; rfl
      rw [handOver_none (.inl hsome)]
      exact ⟨.inl hsome, le_rfl⟩

/-- R171: a port goes on by handing on what it can. -/
theorem portGoesOn_handOver (h : PortGoesOn p (s.handOver p) t) : PortGoesOn p s t := by
  cases hq : (s.port p).queue with
  | nil => rwa [handOver_none (.inr hq)] at h
  | cons f rest =>
    cases hh : (s.port p).inHand with
    | none => exact .handsOn f rest s _ t hh hq (handsOn_handOver hh hq) h
    | some x =>
      have hsome : (s.port p).inHand.isSome := by rw [hh]; rfl
      rwa [handOver_none (.inl hsome)] at h

/-- R172: what a port sends that has nothing to hand on; `next` takes the port on from an answer passed over. -/
def State.sendNext (p : Port) (next : State → State) (s : State) : State :=
  match (s.port p).sending, (s.port p).path, (s.port p).notices with
  | none, a :: rest, _ =>
    if a.dropped then
      next (s.onPort p (fun q => { q with path := rest, inHand := if a.ofHand then none else q.inHand }))
    else s.onPort p (fun q => { q with path := rest, sending := some (.answer a) })
  | none, [], n :: rest => s.onPort p (fun q => { q with notices := rest, sending := some (.notice n) })
  | _, _, _ => s

theorem pump_succ (p : Port) (k : Nat) (s : State) : State.pump p (k + 1) s = (s.handOver p).sendNext p (State.pump p k) := rfl

/-- R172, R179: the port sends as the rules say, where it goes on so after each answer passed over. -/
theorem portGoesOn_sendNext {next : State → State} (hb : (s.port p).Busy)
    (hn : ∀ u, (u.port p).work < (s.port p).work → PortGoesOn p u (next u)) : PortGoesOn p s (s.sendNext p next) := by
  have hclaims (f : PortState → PortState) : (s.onPort p f).claims = s.claims := State.onPort_claims s p f
  unfold State.sendNext
  cases hs : (s.port p).sending with
  | some o => exact .rests s hb (.inl (by rw [hs]; rfl))
  | none =>
    cases hp : (s.port p).path with
    | cons a rest =>
      cases hd : a.dropped with
      | true =>
        simp only [hd, if_true]
        refine .passesOver a rest s _ _ hb hs hp hd (hclaims _) (onlyPort_onPort s p _) (hn _ ?_)
        simp [PortState.work, hp]
      | false =>
        simp only [hd, Bool.false_eq_true, if_false]
        exact .answers a rest s _ hb hs hp hd (hclaims _) (onlyPort_onPort s p _)
    | nil =>
      cases hnote : (s.port p).notices with
      | cons n rest => exact .notices n rest s _ hb hs hp hnote (hclaims _) (onlyPort_onPort s p _)
      | nil => exact .rests s hb (.inr ⟨hp, hnote⟩)

/-- Each pass but the last takes away an answer or a request, so as many passes as there is work and one more are enough. -/
theorem portGoesOn_pump {k : Nat} (h : (s.port p).work < k) : PortGoesOn p s (State.pump p k s) := by
  induction k generalizing s with
  | zero => cases h
  | succ k ih =>
    rw [pump_succ]
    obtain ⟨hbusy, hwork⟩ := handOver_busy s p
    exact portGoesOn_handOver (portGoesOn_sendNext hbusy fun u hu => ih (by omega))

theorem portGoesOn_goOn (p : Port) (s : State) : PortGoesOn p s (s.goOn p) := portGoesOn_pump (Nat.lt_succ_self _)

/-! ## The notices of the hold signals (R119) -/

/-- R119: the notice of one gate's hold signal, where a taking that leaves `u` has changed it. -/
def State.holdNotice (u : State) (s : State) (g : Nat) : State :=
  match Tbl.find g u.gates with
  | none => s
  | some x =>
    if x.held.isEmpty = x.holdProceed then s
    else if x.held.isEmpty then s.post .gate 5 [.u8 g]
    else s.post .gate 4 [.u8 g, .u8 x.held.byte]

theorem holdNotices_eq (u s : State) : holdNotices u s = u.holdNotice (u.holdNotice s 1) 2 := by
  have hone (s : State) (g : Nat) : u.holdNotice s g = match Tbl.find g u.gates with
      | none => s
      | some x => if decide (x.held = ⟨false, false, false, false, false, false, false⟩) = x.holdProceed then s
        else if decide (x.held = ⟨false, false, false, false, false, false, false⟩) then s.post .gate 5 [.u8 g]
        else s.post .gate 4 [.u8 g, .u8 x.held.byte] := by
    unfold State.holdNotice
    simp only [Held.isEmpty_eq]
  rw [hone, hone]
  rfl

/-- R175: what a notice leaves at a port depends on the port and on the minute alone. -/
theorem port_post_congr (hm : t.minute = s.minute) (hp : ∀ q, t.port q = s.port q) (g : Group) (k : Nat) (fs : List Field) (q : Port) :
    (t.post g k fs).port q = (s.post g k fs).port q := by
  rw [port_post, port_post, hm, hp]

/-- R119: setting a hold signal posts its notice, and changes no port otherwise. -/
theorem port_setHoldSignal {g : Nat} (hg : Tbl.find g t.gates = Tbl.find g u.gates) (hm : t.minute = s.minute)
    (hp : ∀ q, t.port q = s.port q) (q : Port) : (t.setHoldSignal g).port q = (u.holdNotice s g).port q := by
  unfold State.setHoldSignal State.holdNotice
  rw [hg]
  cases Tbl.find g u.gates with
  | none => exact hp q
  | some x =>
    dsimp only
    split
    · exact hp q
    · have hp' (q : Port) : (t.onGate g Gate.shown).port q = s.port q := by rw [port_onGate, hp]
      split
      · exact port_post_congr hm hp' _ _ _ q
      · exact port_post_congr hm hp' _ _ _ q

theorem holdNotice_minute (u s : State) (g : Nat) : (u.holdNotice s g).minute = s.minute := by
  unfold State.holdNotice
  repeat' split
  all_goals rfl

theorem setHoldSignal_minute (s : State) (g : Nat) : (s.setHoldSignal g).minute = s.minute :=
  congrArg Roster.clock (setHoldSignal_roster s g)

theorem setHoldSignal_claims (s : State) (g : Nat) : (s.setHoldSignal g).claims = s.claims := by
  unfold State.setHoldSignal
  repeat' split
  all_goals rfl

/-- R119: the ports after the lines are set. -/
theorem port_setOutputs (u : State) (q : Port) : u.setOutputs.port q = (holdNotices u u).port q := by
  rw [holdNotices_eq]
  have hfirst (q : Port) : (u.setHoldSignal 1).port q = (u.holdNotice u 1).port q :=
    port_setHoldSignal rfl rfl (fun _ => rfl) q
  have hgates : Tbl.find 2 (u.setHoldSignal 1).gates = Tbl.find 2 u.gates := by rw [find_setHoldSignal, if_neg (by decide)]
  have hminute : (u.setHoldSignal 1).minute = (u.holdNotice u 1).minute := by rw [setHoldSignal_minute, holdNotice_minute]
  have hboth : ((u.setHoldSignal 1).setHoldSignal 2).port q = _ := port_setHoldSignal hgates hminute hfirst q
  rw [← hboth]
  cases q <;> rfl

theorem setOutputs_claims (u : State) : u.setOutputs.claims = u.claims :=
  (setHoldSignal_claims _ 2).trans (setHoldSignal_claims u 1)

/-- R119, R171, R172, R175: the notices of the lines, and then each port in its turn. -/
theorem ports_goOn : portsGoOn := fun u =>
  ⟨u.setOutputs, _, _, setOutputs_claims u, port_setOutputs u, portGoesOn_goOn .desk _, portGoesOn_goOn .planner _,
    portGoesOn_goOn .line _⟩

/-! ## What the end of a taking leaves -/

@[simp] theorem takePortOwned_claims (i : Instr) (s : State) : (takePortOwned i s).1.claims = s.claims := by
  cases h : requestOf i with
  | some x =>
    obtain ⟨f, hf, -⟩ := takePortOwned_cases h s
    rw [hf, State.onPort_claims]
  | none => cases i <;> first | rfl | cases h

/-- R171: a hand-over sends at most the claim on the owner of the request. -/
theorem handOver_claims (s : State) (p : Port) : s.claims <+: (s.handOver p).claims := by
  unfold State.handOver
  repeat' (first | split | simp [State.send])

/-- R171, R172: the ports' work adds claims at the end alone. -/
theorem pump_claims (p : Port) (k : Nat) (s : State) : s.claims <+: (State.pump p k s).claims := by
  induction k generalizing s with
  | zero => exact List.prefix_rfl
  | succ k ih =>
    have hport (u : State) (f : PortState → PortState) : u.claims <+: (u.onPort p f).claims :=
      State.onPort_claims u p f ▸ List.prefix_rfl
    have hsent (u : State) : u.claims <+: (u.sendNext p (State.pump p k)).claims := by
      unfold State.sendNext
      split
      · split
        · exact (hport u _).trans (ih _)
        · exact hport u _
      · exact hport u _
      · exact List.prefix_rfl
    rw [pump_succ]
    exact (handOver_claims s p).trans (hsent _)

theorem settle_claims (s : State) : s.claims <+: s.settle.claims := by
  rw [← setOutputs_claims s]
  exact (pump_claims .desk _ _).trans ((pump_claims .planner _ _).trans (pump_claims .line _ _))

/-- R71, R119, R189: the lines, and what stays as it is. -/
theorem outputs_set : outputsAreSet := by
  intro u
  refine ⟨settle_pending u, settle_uptime u, settle_op u, settle_pins u, settle_desc u, settle_inForce u, settle_sections u,
    settle_points u, settle_stab u, settle_roster u, settle_claims u, ?_, fun n => ?_, fun m => ?_, ?_⟩
  · rw [settle_route]
  · rw [settle_route, mem_proceedSignals_iff]
    simp [State.routeDef]
  · rw [find_settle_gates]
    by_cases hm : m = 1 ∨ m = 2
    · simp only [if_pos hm]
      simp only [← Held.isEmpty_eq]
      rfl
    · simp [if_neg hm]
  · rw [settle_sup, Supervision.asserts_eq]

/-- Settles O54: the lines are set from the state (`outputs_set`), and then the ports go on in their order (`ports_goOn`). -/
theorem endOfTaking : Obligations.EndOfTaking := ⟨outputs_set, ports_goOn⟩

end

end Sys2Proof.Machine

/-! # The route setter's operations, one after another (04, 05)

A taking of the route setter is a sequence of operations of three blocks: section records, point records, and its own table and
store, with claims and notices. `Does` says what an operation does from the state in which it finds the part: the parts it may change,
the claims that it adds, and the notices that it posts. Each operation has its one rule, and `Does.trans` puts them together. -/

namespace Sys2Proof.Machine

section

/-! ## Notices -/

/-- Notices posted one after another. -/
inductive Posts : (State → State) → Prop where
  | none : Posts id
  | post {f : State → State} (h : Posts f) (g : Group) (k : Nat) (fs : List Field) : Posts (fun s => (f s).post g k fs)

variable {s t u : State} {f f' : State → State} {parts parts' : List Part} {sent sent' : List Instr}

theorem posts_one (g : Group) (k : Nat) (fs : List Field) : Posts (fun s => s.post g k fs) := Posts.none.post g k fs

theorem Posts.comp (h : Posts f) (h' : Posts f') : Posts (fun s => f' (f s)) := by
  induction h' with
  | none => exact h
  | post _ g k fs ih => exact ih.post g k fs

theorem Posts.ite {c : Prop} [Decidable c] (h : c → Posts f) (h' : ¬c → Posts f') : Posts (fun s => if c then f s else f' s) := by
  by_cases hc : c
  · simpa [hc] using h hc
  · simpa [hc] using h' hc

theorem Posts.foldl {α : Type} {f : State → α → State} (h : ∀ a, Posts (fun s => f s a)) (l : List α) :
    Posts (fun s => l.foldl f s) := by
  induction l with
  | nil => exact .none
  | cons a l ih => exact (h a).comp ih

theorem Posts.keepsStamp (h : Posts f) : KeepsStamp f := by
  induction h with
  | none => exact keepsStamp_id
  | post _ g k fs ih => exact ih.post g k fs

/-- Notices leave everything but the ports. -/
theorem Posts.bare (h : Posts f) (s : State) : (f s).bare = s.bare := by
  induction h with
  | none => rfl
  | post _ g k fs ih => exact ih

theorem Posts.claims (h : Posts f) (s : State) : (f s).claims = s.claims := by
  induction h with
  | none => rfl
  | post _ g k fs ih => exact ih

/-- What notices leave at the ports depends on the minute, the subscriptions and the notices there. -/
theorem Posts.notes_congr (h : Posts f) (hm : t.minute = s.minute) (hsub : ∀ p, (t.port p).subscription = (s.port p).subscription)
    (hn : Notes id s t) : Notes f s (f t) := by
  induction h with
  | none => exact hn
  | post hf g k fs ih =>
    intro p
    obtain ⟨hmt, hst⟩ := hf.keepsStamp t
    obtain ⟨hms, hss⟩ := hf.keepsStamp s
    obtain ⟨hnotes, hlost⟩ := ih p
    rw [port_post, port_post, hmt, hms, hm]
    exact copyNotice_congr hnotes hlost (by rw [hst, hss, hsub]) _ _

/-- Notices leave the requests in hand, the answer paths and what is not theirs at the ports. -/
theorem Posts.port (h : Posts f) (s : State) (p : Port) :
    ((f s).port p).aside = (s.port p).aside ∧ NoAnswerAt p s (f s) := by
  induction h with
  | none => exact ⟨rfl, rfl, rfl⟩
  | post _ g k fs ih =>
    obtain ⟨hside, hpath, hhand⟩ := ih
    exact ⟨by simpa using hside, by simpa using hpath, by simpa using hhand⟩

theorem posts_pointNotice (n : Nat) (r : PointRec) (c : PointCause) : Posts (pointNotice n r c) := posts_one _ _ _

theorem posts_routeNotice (slot : Nat) (e : RouteEntry) (k : Nat) (b : Bool) : Posts (routeNotice slot e k b) := posts_one _ _ _

theorem posts_cancelNotice (sl : Option Nat) (n : Nat) (o : Owner) (p : Purpose) (k : Nat) : Posts (cancelNotice sl n o p k) :=
  posts_one _ _ _

/-! ## Effects, one after another -/

/-- A taking's further operations, from where it stands. -/
theorem effect_then {claims : List Instr} (h : Effect parts claims f none s t) (h' : Effect parts (t.claims ++ sent) f' none t u)
    (hf : Posts f) (hf' : Posts f') (hr : .roster ∉ parts) (hp : .ports ∉ parts) :
    Effect parts (claims ++ sent) (fun s => f' (f s)) none s u := by
  obtain ⟨hk, hc, hn, ha⟩ := h
  obtain ⟨hk', hc', hn', ha'⟩ := h'
  obtain ⟨hms, hss⟩ := hf.keepsStamp s
  have hminute : t.minute = (f s).minute := (congrArg Roster.clock (hk.2.2 .roster hr)).trans hms.symm
  have hsub (p : Port) : (t.port p).subscription = ((f s).port p).subscription :=
    show (t.port p).aside.subscription = _ by rw [hk.2.2 .ports hp p]; exact (hss p).symm
  have hnotes := hf'.notes_congr hminute hsub hn
  refine ⟨hk.trans hk', hc'.trans (by rw [hc]), fun p => ?_, fun p => ?_⟩
  · exact ⟨(hn' p).1.trans (hnotes p).1, (hn' p).2.trans (hnotes p).2⟩
  · exact ⟨(ha' p).1.trans (ha p).1, (ha' p).2.trans (ha p).2⟩

theorem KeepsAllBut.mono (h : KeepsAllBut parts s t) (hp : parts ⊆ parts') : KeepsAllBut parts' s t :=
  ⟨h.1, h.2.1, fun x hx => h.2.2 x fun hm => hx (hp hm)⟩

/-- What an operation of the yard's blocks does: the parts that it may change, the claims that it sends, and its notices. -/
structure Does (parts : List Part) (sent : List Instr) (f : State → State) (s t : State) : Prop where
  effect : Effect parts (s.claims ++ sent) f none s t
  notices : Posts f
  yard : parts ⊆ [.sections, .points, .routes]

theorem Does.mono (h : Does parts sent f s t) (hp : parts ⊆ parts') (hy : parts' ⊆ [.sections, .points, .routes]) :
    Does parts' sent f s t :=
  { h with effect := ⟨h.effect.1.mono hp, h.effect.2⟩, yard := hy }

theorem does_none (s : State) : Does [] [] id s s :=
  ⟨by simpa using effect_none s [], .none, List.nil_subset _⟩

theorem Does.trans (h : Does parts sent f s t) (h' : Does parts sent' f' t u) :
    Does parts (sent ++ sent') (fun s => f' (f s)) s u := by
  have hr : Part.roster ∉ parts := fun hm => by simpa using h.yard hm
  have hp : Part.ports ∉ parts := fun hm => by simpa using h.yard hm
  refine ⟨?_, h.notices.comp h'.notices, h.yard⟩
  rw [← List.append_assoc]
  exact effect_then h.effect h'.effect h.notices h'.notices hr hp

/-- A further operation that posts nothing. -/
theorem Does.thenSilent (h : Does parts sent f s t) (h' : Does parts sent' id t u) : Does parts (sent ++ sent') f s u := h.trans h'

/-- A further operation that neither posts nor sends. -/
theorem Does.thenUpdate (h : Does parts sent f s t) (h' : Does parts [] id t u) : Does parts sent f s u := by
  simpa only [List.append_nil] using h.thenSilent h'

/-- A claim or an event sent next. -/
theorem Does.thenSends (h : Does parts sent f s t) (h' : Does [] sent' id t u) : Does parts (sent ++ sent') f s u :=
  h.thenSilent (h'.mono (List.nil_subset _) h.yard)

/-- Notices posted next. -/
theorem Does.thenPosts (h : Does parts sent f s t) (h' : Does [] [] f' t u) : Does parts sent (fun s => f' (f s)) s u := by
  simpa only [List.append_nil] using h.trans (h'.mono (List.nil_subset _) h.yard)

/-- What follows the taking of a claim. -/
theorem effect_take_does {c : Instr} (h : Does parts sent f (s.take c) t) : Effect parts (s.claims.erase c ++ sent) f none s t := by
  have hr : Part.roster ∉ parts := fun hm => by simpa using h.yard hm
  have hp : Part.ports ∉ parts := fun hm => by simpa using h.yard hm
  exact effect_then (effect_take s c parts) h.effect .none h.notices hr hp

theorem effect_take_update {c : Instr} (h : Does parts [] f (s.take c) t) : Effect parts (s.claims.erase c) f none s t := by
  simpa only [List.append_nil] using effect_take_does h

/-- An operation that sends nothing leaves the claims in flight. -/
theorem Does.unsent (h : Does parts [] f s t) : Effect parts s.claims f none s t := by
  simpa only [List.append_nil] using h.effect

/-- An operation that leaves the ports. -/
theorem does_silent (hk : KeepsAllBut parts s t) (hc : t.claims = s.claims ++ sent) (hp : ∀ p, t.port p = s.port p)
    (hy : parts ⊆ [.sections, .points, .routes]) : Does parts sent id s t :=
  ⟨effect_next (effect_none s parts) hk hp hc, .none, hy⟩

theorem does_send (s : State) (c : Instr) : Does [] [c] id s (s.send c) :=
  ⟨effect_send (effect_none s []) c, .none, List.nil_subset _⟩

theorem does_posts (h : Posts f) (s : State) : Does [] [] f s (f s) := by
  have hk := keepsAllBut_of_bare (h.bare s)
  refine ⟨⟨⟨hk.1, hk.2.1, fun x _ => ?_⟩, by simp [h.claims], fun p => ⟨rfl, rfl⟩, fun p => (h.port s p).2⟩, h, List.nil_subset _⟩
  cases x with
  | ports => exact fun p => (h.port s p).1
  | _ => exact hk.2.2 _ (by simp)

theorem does_onSection (s : State) (n : Nat) (g : SectionRec → SectionRec) : Does [.sections] [] id s (s.onSection n g) :=
  ⟨by simpa using effect_onSection (effect_none s _) n g List.mem_cons_self, .none, by simp⟩

theorem does_onPoint (s : State) (n : Nat) (g : PointRec → PointRec) : Does [.points] [] id s (s.onPoint n g) := by
  refine does_silent ⟨rfl, rfl, fun x hx => ?_⟩ (by simp) (port_onPoint s · n g) (by simp)
  cases x with
  | points => exact absurd List.mem_cons_self hx
  | _ => simp [Part.same]

theorem does_onRoute (s : State) (g : RouteSetter → RouteSetter) : Does [.routes] [] id s (s.onRoute g) := by
  refine does_silent ⟨rfl, rfl, fun x hx => ?_⟩ (by simp) (port_onRoute s · g) (by simp)
  cases x with
  | routes => exact absurd List.mem_cons_self hx
  | _ => simp [Part.same]

theorem does_onEntry (s : State) (n : Nat) (g : RouteEntry → RouteEntry) : Does [.routes] [] id s (s.onEntry n g) := does_onRoute s _

/-- A walk whose steps do each its own. -/
theorem does_foldl {α : Type} {step : State → α → State} {parts : List Part} (hy : parts ⊆ [.sections, .points, .routes])
    (h : ∀ s a, Does parts [] id s (step s a)) (l : List α) (s : State) : Does parts [] id s (l.foldl step s) := by
  induction l generalizing s with
  | nil => exact (does_none s).mono (List.nil_subset _) hy
  | cons a l ih => exact (h s a).trans (ih (step s a))

/-- The parts that the yard's operations may change. -/
abbrev yardParts : List Part := [.sections, .points, .routes]

theorem Does.inYard (h : Does parts sent f s t) : Does yardParts sent f s t := h.mono h.yard (List.Subset.refl _)

theorem Does.desc (h : Does parts sent f s t) : t.desc = s.desc :=
  (h.effect.1.2.2 .store fun hm => by simpa using h.yard hm).2.1

theorem Does.sections (h : Does parts sent f s t) (hx : .sections ∉ parts := by simp) : t.sections = s.sections :=
  h.effect.1.2.2 .sections hx

theorem Does.points (h : Does parts sent f s t) (hx : .points ∉ parts := by simp) : t.points = s.points :=
  h.effect.1.2.2 .points hx

theorem Does.route (h : Does parts sent f s t) (hx : .routes ∉ parts := by simp) : t.route = s.route :=
  h.effect.1.2.2 .routes hx

end

end Sys2Proof.Machine

/-! # What the route setter's operations do (04, 05) -/

namespace Sys2Proof

/-! ## Lists without repetitions -/

variable {α : Type} [DecidableEq α]

/-- A selection of a list and the removal of its repetitions do not disturb each other. -/
theorem eraseDups_filter (p : α → Bool) (l : List α) : (l.filter p).eraseDups = l.eraseDups.filter p := by
  induction hn : l.length using Nat.strong_induction_on generalizing l with
  | h n ih =>
    cases l with
    | nil => rfl
    | cons a l =>
      have hrest := List.length_filter_le (fun b => !b == a) l
      have hlen : l.length < n := by rw [← hn]; exact Nat.lt_succ_self _
      have hswap : ((l.filter (fun b => !b == a)).filter p).eraseDups = (l.filter (fun b => !b == a)).eraseDups.filter p :=
        ih _ (by omega) _ rfl
      rw [List.eraseDups_cons]
      by_cases ha : p a = true
      · rw [List.filter_cons_of_pos ha, List.filter_cons_of_pos ha, List.eraseDups_cons, ← hswap, List.filter_comm]
      · have hsame : (l.filter (fun b => !b == a)).filter p = l.filter p := by
          rw [List.filter_filter]
          refine List.filter_congr fun b _ => ?_
          by_cases hb : b = a
          · subst hb; simp [ha]
          · simp [hb]
        rw [List.filter_cons_of_neg ha, List.filter_cons_of_neg ha, ← hswap, hsame]

theorem nodup_eraseDups (l : List α) : l.eraseDups.Nodup := by
  induction hn : l.length using Nat.strong_induction_on generalizing l with
  | h n ih =>
    cases l with
    | nil => simp
    | cons a l =>
      have hrest := List.length_filter_le (fun b => !b == a) l
      have hlen : l.length < n := by rw [← hn]; exact Nat.lt_succ_self _
      rw [List.eraseDups_cons, List.nodup_cons, List.mem_eraseDups]
      exact ⟨by simp, ih _ (by omega) _ rfl⟩

theorem eraseDups_of_nodup {l : List α} (h : l.Nodup) : l.eraseDups = l := by
  induction l with
  | nil => rfl
  | cons a l ih =>
    obtain ⟨ha, hl⟩ := List.nodup_cons.mp h
    have hsame : l.filter (fun b => !b == a) = l := by
      rw [List.filter_eq_self]
      intro b hb
      have hne : b ≠ a := fun he => ha (he ▸ hb)
      simp [hne]
    rw [List.eraseDups_cons, hsame, ih hl]

end Sys2Proof

namespace Sys2Proof.Machine

section

variable {s t u : State} {slot n : Nat} {e x : RouteEntry} {d : RouteDef}

/-! ## Aspects, events and notices (R71, R76, R79) -/

/-- R71: what an aspect depends on. -/
theorem entryAspect_congr (hh : t.route.halt = s.route.halt) (ht : t.route.table = s.route.table) (hp : t.points = s.points)
    (hd : t.desc = s.desc) (e : RouteEntry) : t.entryAspect e = s.entryAspect e := by
  unfold State.entryAspect State.aspect State.pointsStand State.detected State.pointState State.routeDef
  rw [hh, ht, hp, hd]

theorem entryAspect_of_bare (h : t.bare = s.bare) (e : RouteEntry) : t.entryAspect e = s.entryAspect e := by
  have hb (v : State) : v.entryAspect e = v.bare.entryAspect e := rfl
  rw [hb t, h, ← hb]

/-- R76: an event goes to its recipients. -/
theorem does_sendEvent (s : State) (ev : RouteEvent) : Does [] (eventClaims s ev) id s (s.sendEvent ev) := by
  unfold State.sendEvent eventClaims
  have htwo (a b : Instr) : Does [] [a, b] id s ((s.send a).send b) := (does_send s a).trans (does_send _ b)
  have hdeparture : Does [] ([.rosterDepartureEvent ev, .stablingDepartureEvent ev] ++
      (((s.routeDef ev.route).bind RouteDef.toObj).toList.map (fun g => .gateDepartureEvent g ev))) id s
      (match (((s.send (.rosterDepartureEvent ev)).send (.stablingDepartureEvent ev)).routeDef ev.route).bind RouteDef.toObj with
        | some g => ((s.send (.rosterDepartureEvent ev)).send (.stablingDepartureEvent ev)).send (.gateDepartureEvent g ev)
        | none => (s.send (.rosterDepartureEvent ev)).send (.stablingDepartureEvent ev)) := by
    simp only [State.send_routeDef]
    cases (s.routeDef ev.route).bind RouteDef.toObj with
    | none => simpa using htwo _ _
    | some g => exact (htwo _ _).trans (does_send _ _)
  cases ev.purpose with
  | gateArrival g f => exact htwo _ _
  | shuntEntry h f => exact does_send _ _
  | dutyDeparture a b => exact hdeparture
  | fleetDeparture a b => exact hdeparture
  | none => exact does_none s

theorem eventClaims_congr (h : t.desc = s.desc) (ev : RouteEvent) : eventClaims t ev = eventClaims s ev := by
  unfold eventClaims State.routeDef
  rw [h]

/-- R79: the ROUTE_STATE notice, in the words of the statements. -/
theorem postEntry_eq (s : State) (slot : Nat) (e : RouteEntry) (k : Nat) :
    s.postEntry slot e k = routeNotice slot e k (s.entryAspect e) s := by
  unfold State.postEntry routeNotice fList8 fList f16 aspectCode
  simp

theorem postSlot_eq (h : Tbl.find slot s.route.table = some e) :
    s.postSlot slot = routeNotice slot e e.state.code (s.entryAspect e) s := by
  unfold State.postSlot
  rw [h]
  exact postEntry_eq s slot e _

/-- R79: the ROUTE_STATE notice of an entry shows the aspect that its signal has, before the notice as after it. -/
theorem does_postEntry (s : State) (slot : Nat) (e : RouteEntry) (k : Nat) :
    Does [] [] (routeNotice slot e k ((s.postEntry slot e k).entryAspect e)) s (s.postEntry slot e k) := by
  have hp := posts_routeNotice slot e k (s.entryAspect e)
  rw [postEntry_eq, entryAspect_of_bare (hp.bare s)]
  exact does_posts hp s

theorem does_postSlot (h : Tbl.find slot s.route.table = some e) :
    Does [] [] (routeNotice slot e e.state.code ((s.postSlot slot).entryAspect e)) s (s.postSlot slot) := by
  rw [postSlot_eq h, ← postEntry_eq]
  exact does_postEntry s slot e _

theorem slotEvent_eq (h : Tbl.find slot s.route.table = some e) (p : Progress) :
    s.slotEvent slot p = s.sendEvent (entryEvent slot e p) := by
  unfold State.slotEvent
  rw [h]
  rfl

theorem posts_postFailed (sl : Option Nat) (n : Nat) (o : Owner) (p : Purpose) (w : FailCause) :
    Posts (State.postFailed sl n o p w) := posts_one _ _ _

/-! ## Sections reserved and released (R30, R63) -/

/-- A walk that changes the record of one section after another in the same way, one that does not mind being done twice. -/
theorem find_foldl_onSection {g : SectionRec → SectionRec} (hg : ∀ r, g (g r) = g r) (l : List Nat) (s : State) (m : Nat) :
    Tbl.find m (l.foldl (fun s n => s.onSection n g) s).sections =
      (Tbl.find m s.sections).map (fun r => if m ∈ l then g r else r) := by
  induction l generalizing s with
  | nil => simp
  | cons n l ih =>
    rw [List.foldl_cons, ih, State.onSection_sections, Tbl.find_adjust]
    by_cases hm : m = n
    · subst hm
      cases Tbl.find m s.sections <;> simp [hg]
    · cases Tbl.find m s.sections <;> simp [hm]

theorem find_reserve (s : State) (slot : Nat) (l : List Nat) (m : Nat) : Tbl.find m (s.reserve slot l).sections =
    (Tbl.find m s.sections).map (fun r => if m ∈ l then { r with reservedBy := some slot } else r) :=
  find_foldl_onSection (g := fun r => { r with reservedBy := some slot }) (fun _ => rfl) l s m

theorem sectionsFreed_unreserve (s : State) (slot : Nat) (l : List Nat) : SectionsFreed slot l s (s.unreserve slot l) := by
  intro m
  refine (find_foldl_onSection (g := fun r => if r.reservedBy = some slot then { r with reservedBy := none } else r)
    (fun r => ?_) l s m).trans ?_
  · by_cases h : r.reservedBy = some slot <;> simp [h]
  · cases Tbl.find m s.sections with
    | none => rfl
    | some r => by_cases hm : m ∈ l <;> simp [hm]

theorem does_reserve (s : State) (slot : Nat) (l : List Nat) : Does [.sections] [] id s (s.reserve slot l) :=
  does_foldl (by simp) (fun s n => does_onSection s n _) l s

theorem does_unreserve (s : State) (slot : Nat) (l : List Nat) : Does [.sections] [] id s (s.unreserve slot l) :=
  does_foldl (by simp) (fun s n => does_onSection s n _) l s

/-! ## Points unlocked (R39, R47) -/

/-- R39, R47: a point unlocked from a slot. -/
def PointRec.freed (slot : Nat) (r : PointRec) : PointRec :=
  if r.lock = some slot then { r with lock := none, lossCondition := false } else r

theorem PointRec.freed_freed (slot : Nat) (r : PointRec) : (r.freed slot).freed slot = r.freed slot := by
  unfold PointRec.freed
  by_cases h : r.lock = some slot <;> simp [h]

/-- R39, R47: whether the unlocking of a point from a slot ends a loss condition. -/
def State.lossUnder (s : State) (slot n : Nat) : Bool :=
  (Tbl.find n s.points).any (fun r => r.lock = some slot && r.lossCondition)

theorem unlockPoint_spec (s : State) (n slot : Nat) :
    Does [.points] (if s.lossUnder slot n then [.alarmConditionEnd (.pointLostUnderRoute n)] else []) id s (s.unlockPoint n slot) ∧
    ∀ m, Tbl.find m (s.unlockPoint n slot).points =
      (Tbl.find m s.points).map (fun r => if m = n then r.freed slot else r) := by
  have hnone (h : ∀ r, Tbl.find n s.points = some r → r.lock ≠ some slot) (hl : s.lossUnder slot n = false) :
      Does [.points] (if s.lossUnder slot n then [.alarmConditionEnd (.pointLostUnderRoute n)] else []) id s s ∧
      ∀ m, Tbl.find m s.points = (Tbl.find m s.points).map (fun r => if m = n then r.freed slot else r) := by
    rw [hl]
    refine ⟨(does_none s).mono (List.nil_subset _) (by simp), fun m => ?_⟩
    cases hr : Tbl.find m s.points with
    | none => rfl
    | some r =>
      by_cases hm : m = n
      · subst hm; simp [PointRec.freed, h r hr]
      · simp [hm]
  unfold State.unlockPoint
  cases hr : Tbl.find n s.points with
  | none => exact hnone (by simp [hr]) (by simp [State.lossUnder, hr])
  | some r =>
    dsimp only
    by_cases hlock : r.lock = some slot
    · have hloss : s.lossUnder slot n = r.lossCondition := by simp [State.lossUnder, hr, hlock]
      have hon := does_onPoint s n (fun x => { x with lock := none, lossCondition := false })
      have hfind (m : Nat) : Tbl.find m (s.onPoint n (fun x => { x with lock := none, lossCondition := false })).points =
          (Tbl.find m s.points).map (fun r => if m = n then r.freed slot else r) := by
        rw [State.onPoint_points, Tbl.find_adjust]
        by_cases hm : m = n
        · subst hm; simp [hr, PointRec.freed, hlock]
        · simp [hm]
      rw [hloss, if_pos hlock]
      cases r.lossCondition with
      | true => exact ⟨hon.trans ((does_send _ _).mono (List.nil_subset _) (by simp)), hfind⟩
      | false => exact ⟨hon, hfind⟩
    · rw [if_neg hlock]
      exact hnone (by simp [hr, hlock]) (by simp [State.lossUnder, hr, hlock])

theorem unlockEnds_eq (slot : Nat) (l : List Nat) (s : State) :
    unlockEnds slot l s = (l.eraseDups.filter (s.lossUnder slot)).map (fun n => .alarmConditionEnd (.pointLostUnderRoute n)) := rfl

theorem lossUnder_unlockPoint (s : State) (n slot m : Nat) :
    (s.unlockPoint n slot).lossUnder slot m = (s.lossUnder slot m && !m == n) := by
  unfold State.lossUnder
  rw [(unlockPoint_spec s n slot).2]
  by_cases hm : m = n
  · subst hm
    cases Tbl.find m s.points with
    | none => simp
    | some r => by_cases hl : r.lock = some slot <;> simp [PointRec.freed, hl]
  · cases Tbl.find m s.points <;> simp [hm]

/-- R39, R47, R63: the points of a list are unlocked, each that is locked to the slot, with the end of its loss condition. -/
theorem unlockAll_spec (slot : Nat) (l : List Nat) (s : State) :
    Does [.points] (unlockEnds slot l s) id s (s.unlockAll slot l) ∧ PointsFreed slot l s (s.unlockAll slot l) := by
  have hfreed (m : Nat) (r : PointRec) (l : List Nat) :
      (if m ∈ l ∧ r.lock = some slot then { r with lock := none, lossCondition := false } else r) =
        if m ∈ l then r.freed slot else r := by
    by_cases hm : m ∈ l <;> simp [hm, PointRec.freed]
  unfold PointsFreed
  simp only [hfreed]
  induction l generalizing s with
  | nil =>
    exact ⟨(does_none s).mono (List.nil_subset _) (by simp), fun m => by simp [State.unlockAll]⟩
  | cons n l ih =>
    obtain ⟨hone, hfind⟩ := unlockPoint_spec s n slot
    obtain ⟨hrest, hpoints⟩ := ih (s.unlockPoint n slot)
    have hends : unlockEnds slot (n :: l) s = (if s.lossUnder slot n then [.alarmConditionEnd (.pointLostUnderRoute n)] else []) ++
        unlockEnds slot l (s.unlockPoint n slot) := by
      have hlater : (l.filter (fun b => !b == n)).eraseDups.filter (s.lossUnder slot) =
          l.eraseDups.filter ((s.unlockPoint n slot).lossUnder slot) := by
        rw [eraseDups_filter, List.filter_filter]
        exact List.filter_congr fun m _ => (lossUnder_unlockPoint s n slot m).symm
      rw [unlockEnds_eq, unlockEnds_eq, List.eraseDups_cons, ← hlater]
      cases h : s.lossUnder slot n <;> simp [h]
    rw [hends]
    refine ⟨hone.trans hrest, fun m => ?_⟩
    refine (hpoints m).trans ?_
    rw [hfind]
    by_cases hm : m = n
    · subst hm
      cases Tbl.find m s.points <;> simp [PointRec.freed_freed]
    · cases Tbl.find m s.points <;> simp [hm]

end

end Sys2Proof.Machine

/-! # What becomes of an entry: removed, tested for PROCEED, degraded (04 sections 4.6, 4.8; 05 sections 5.3, 5.4) -/

namespace Sys2Proof.Machine

section

variable {s t u : State} {slot n : Nat} {e x : RouteEntry} {d : RouteDef} {ev : Progress} {more : State → State}

/-! ## An entry leaves the table (R69, R90, R92, R95, R100) -/

theorem unlockEnds_congr (h : t.points = s.points) (slot : Nat) (l : List Nat) : unlockEnds slot l t = unlockEnds slot l s := by
  unfold unlockEnds
  rw [h]

/-- The sections and points of an entry are given back, and its slot is empty. -/
theorem removeEntry_spec (hd : s.routeDef e.route = some d) :
    Does yardParts (unlockEnds slot (routePoints d) s) id s (s.removeEntry slot e) ∧
    SectionsFreed slot d.sections s (s.removeEntry slot e) ∧ PointsFreed slot (routePoints d) s (s.removeEntry slot e) ∧
    (s.removeEntry slot e).route = { s.route with table := Tbl.del slot s.route.table } := by
  have hsections := does_unreserve s slot d.sections
  obtain ⟨hpoints, hfreed⟩ := unlockAll_spec slot (routePoints d) (s.unreserve slot d.sections)
  rw [unlockEnds_congr hsections.points] at hpoints
  have hroute := does_onRoute ((s.unreserve slot d.sections).unlockAll slot (routePoints d))
    (fun r => { r with table := Tbl.del slot r.table })
  have heq : s.removeEntry slot e = ((s.unreserve slot d.sections).unlockAll slot (routePoints d)).onRoute
      (fun r => { r with table := Tbl.del slot r.table }) := by
    unfold State.removeEntry
    rw [hd]
    rfl
  rw [heq]
  refine ⟨?_, fun m => ?_, fun m => ?_, ?_⟩
  · exact (hsections.inYard.trans hpoints.inYard).thenUpdate hroute.inYard
  · rw [hroute.sections, hpoints.sections]
    exact sectionsFreed_unreserve s slot d.sections m
  · rw [hroute.points, hfreed m, hsections.points]
  · rw [State.onRoute_route, hpoints.route, hsections.route]

/-- A table entry leaves: its event is sent, ROUTE_STATE of REMOVED is posted, and `more` posts what else the removal shows. -/
def State.leave (slot : Nat) (e : RouteEntry) (ev : Progress) (more : State → State) (s : State) : State :=
  more (((s.removeEntry slot e).sendEvent (e.event slot ev)).postEntry slot e 6)

/-- What a table entry's leaving does, in the words of the statements but for the claims taken before it. -/
theorem leave_spec (hd : s.routeDef e.route = some d) (hmore : Posts more) :
    let t := s.leave slot e ev more
    Does yardParts (unlockEnds slot (routePoints d) s ++ eventClaims s (entryEvent slot e ev))
      (fun s => more (routeNotice slot e 6 (t.entryAspect e) s)) s t ∧
    SectionsFreed slot d.sections s t ∧ PointsFreed slot (routePoints d) s t ∧
    t.route = { s.route with table := Tbl.del slot s.route.table } := by
  obtain ⟨hremove, hsections, hpoints, hroute⟩ := removeEntry_spec (slot := slot) hd
  have hsend := does_sendEvent (s.removeEntry slot e) (entryEvent slot e ev)
  rw [eventClaims_congr hremove.desc] at hsend
  have hstate := does_postEntry ((s.removeEntry slot e).sendEvent (entryEvent slot e ev)) slot e 6
  have hpost := does_posts hmore (((s.removeEntry slot e).sendEvent (entryEvent slot e ev)).postEntry slot e 6)
  rw [← entryAspect_of_bare (hmore.bare _)] at hstate
  refine ⟨((hremove.thenSends hsend).thenPosts hstate).thenPosts hpost, fun m => ?_, fun m => ?_, ?_⟩
  · exact (congrArg _ (hpost.sections.trans (hstate.sections.trans hsend.sections))).trans (hsections m)
  · exact (congrArg _ (hpost.points.trans (hstate.points.trans hsend.points))).trans (hpoints m)
  · exact (hpost.route.trans (hstate.route.trans hsend.route)).trans hroute

/-- An entry that leaves in a taking that no claim began. -/
theorem entryLeaves (hd : s.routeDef e.route = some d) (hmore : Posts more) :
    EntryLeaves s.claims slot e d ev more s (s.leave slot e ev more) := by
  obtain ⟨hdoes, hsections, hpoints, hroute⟩ := leave_spec (slot := slot) (ev := ev) hd hmore
  refine ⟨?_, hsections, hpoints, ?_, by rw [hroute], by rw [hroute]⟩
  · rw [List.append_assoc]; exact hdoes.effect
  · rw [hroute]; exact del_del

/-- An entry that leaves in the taking of a claim. -/
theorem entryLeaves_take (hd : s.routeDef e.route = some d) (hmore : Posts more) (c : Instr) :
    EntryLeaves (s.claims.erase c) slot e d ev more s ((s.take c).leave slot e ev more) := by
  obtain ⟨hdoes, hsections, hpoints, hroute⟩ := leave_spec (s := s.take c) (slot := slot) (ev := ev) hd hmore
  refine ⟨?_, hsections, hpoints, ?_, by rw [hroute]; rfl, by rw [hroute]; rfl⟩
  · rw [List.append_assoc]; exact effect_take_does hdoes
  · rw [hroute]; exact del_del

/-! ## The two timers (R75, R95) -/

theorem releaseEntry_eq (slot : Nat) (e : RouteEntry) (ev : Progress) (m : CancelMode) (s : State) :
    s.releaseEntry slot e ev m = (s.leave slot e ev (cancelNotice (some slot) e.route e.owner e.purpose m.code)).scan := rfl

/-- The store without its request for a route. -/
def State.unstore (n : Nat) (s : State) : State :=
  s.onRoute (fun r => { r with store := r.store.filter (fun x => x.route ≠ n) })

/-- A stored request leaves: its event is sent, and `more` posts what the removal shows. -/
def State.leaveStore (q : StoreEntry) (d : RouteDef) (ev : Progress) (more : State → State) (s : State) : State :=
  more ((s.unstore q.route).sendEvent ⟨ev, none, q.route, d.kind, q.owner, q.purpose, q.tram⟩)

theorem leaveStore_spec (q : StoreEntry) (d : RouteDef) (ev : Progress) (hmore : Posts more) (s : State) :
    Does [.routes] (eventClaims s ⟨ev, none, q.route, d.kind, q.owner, q.purpose, q.tram⟩) more s (s.leaveStore q d ev more) ∧
    (s.leaveStore q d ev more).route = { s.route with store := s.route.store.filter (fun x => x.route ≠ q.route) } := by
  have hroute : Does [.routes] [] id s (s.unstore q.route) := does_onRoute s _
  have hsend := does_sendEvent (s.unstore q.route) ⟨ev, none, q.route, d.kind, q.owner, q.purpose, q.tram⟩
  rw [eventClaims_congr hroute.desc] at hsend
  have hpost := does_posts hmore ((s.unstore q.route).sendEvent ⟨ev, none, q.route, d.kind, q.owner, q.purpose, q.tram⟩)
  exact ⟨(hroute.thenSends hsend).thenPosts hpost, hpost.route.trans hsend.route⟩

/-- Settles O12: each timer's expiry is the leaving of its request (`leaveStore_spec`) or entry (`entryLeaves`), and then a scan. -/
theorem routeTimersRunOut : Obligations.RouteTimersRunOut := by
  refine fun s d => ⟨fun q hq hd => ?_, fun slot e he hs hd => ?_⟩
  · have hkind : ((s.routeDef q.route).map RouteDef.kind).getD .yard = d.kind := by rw [State.routeDef, hd]; rfl
    obtain ⟨hdoes, hroute⟩ := leaveStore_spec q d .expired (posts_one .route 4 ([.u8 q.route, .u8 q.owner.code] ++ q.purpose.fields)) s
    refine ⟨_, ?_, hdoes.effect, hroute⟩
    simp only [exec, execStoreTimerExpiry, hq, hkind]
    rfl
  · refine ⟨s.leave slot e .cancelled (cancelNotice (some slot) e.route e.owner e.purpose 2), ?_,
      entryLeaves hd (posts_cancelNotice _ _ _ _ _)⟩
    simp only [exec, execTimeReleaseExpiry, he, if_pos hs, releaseEntry_eq]
    rfl

end

end Sys2Proof.Machine

/-! # Reports of the point controller and of the occupancy monitor at the route setter (04 sections 4.6, 4.8; 05 section 5.4) -/

namespace Sys2Proof.Machine

section

variable {s t u : State} {slot n : Nat} {e x : RouteEntry} {d : RouteDef} {r : PointRec} {claims : List Instr}

/-! ## An entry changed (R66, R97) -/

theorem find_onEntry (he : Tbl.find slot s.route.table = some e) (f : RouteEntry → RouteEntry) :
    Tbl.find slot (s.onEntry slot f).route.table = some (f e) := by
  rw [State.onEntry_route]
  exact (put_adjust he rfl slot).trans (if_pos rfl)

/-- What a change of one entry leaves of the route setter. -/
def EntryPut (slot : Nat) (x : RouteEntry) (s t : State) : Prop :=
  Put slot x s.route.table t.route.table ∧ t.route.store = s.route.store ∧ t.route.halt = s.route.halt

theorem entryPut_onEntry (he : Tbl.find slot s.route.table = some e) (f : RouteEntry → RouteEntry) :
    EntryPut slot (f e) s (s.onEntry slot f) := ⟨put_adjust he rfl, rfl, rfl⟩

theorem entryPut_same (he : Tbl.find slot s.route.table = some e) : EntryPut slot e s s := ⟨put_same he, rfl, rfl⟩

theorem EntryPut.route (h : EntryPut slot x s t) (hr : u.route = t.route) : EntryPut slot x s u := by
  unfold EntryPut
  rw [hr]
  exact h

/-- R66: what PROCEED asks of an entry's points and sections. -/
theorem standsClear_eq (slot : Nat) (d : RouteDef) (s : State) : standsClear slot d s = s.mayProceed slot d := by
  unfold standsClear State.mayProceed
  congr 1
  rw [Bool.eq_iff_iff, pointsStand_iff, List.all_eq_true]
  refine forall₂_congr fun p _ => ?_
  cases Tbl.find p.1 s.points <;> simp [posState_eq]

/-- R66: an entry that goes to PROCEED. -/
def RouteEntry.proceeds (e : RouteEntry) : RouteEntry := { e with state := .proceed, withheld := [] }

/-- R66: the test of an entry: in SETTING, with its points standing and its path clear, it goes to PROCEED. -/
theorem testProceed_spec (he : Tbl.find slot s.route.table = some e) (hd : s.routeDef e.route = some d) :
    let t := s.testProceed slot
    let goes : Bool := e.state = .setting && s.mayProceed slot d
    Does [.routes] (if goes then eventClaims s (entryEvent slot e .proceed) else [])
      (fun s => if goes then routeNotice slot e.proceeds 2 (t.entryAspect e.proceeds) s else s) s t ∧
    EntryPut slot (if goes then e.proceeds else e) s t := by
  have htest : s.testProceed slot = if e.state = .setting ∧ s.mayProceed slot d then
      ((s.onEntry slot RouteEntry.proceeds).slotEvent slot .proceed).postSlot slot else s := by
    unfold State.testProceed
    rw [he]
    dsimp only
    rw [hd]
    rfl
  dsimp only
  rw [htest]
  by_cases hgoes : e.state = .setting ∧ s.mayProceed slot d
  · have hgo : (decide (e.state = .setting) && s.mayProceed slot d) = true := by simpa using hgoes
    have hentry := does_onEntry s slot RouteEntry.proceeds
    have hfind := find_onEntry he RouteEntry.proceeds
    have hsend := does_sendEvent (s.onEntry slot RouteEntry.proceeds) (entryEvent slot e .proceed)
    have hevent : (s.onEntry slot RouteEntry.proceeds).slotEvent slot .proceed =
        (s.onEntry slot RouteEntry.proceeds).sendEvent (entryEvent slot e .proceed) := slotEvent_eq hfind _
    have hpost := does_postSlot (hsend.route ▸ hfind)
    rw [eventClaims_congr hentry.desc] at hsend
    simp only [if_pos hgoes, hgo, if_true, hevent]
    exact ⟨(hentry.thenSends hsend).thenPosts hpost, (entryPut_onEntry he _).route (hpost.route.trans hsend.route)⟩
  · have hgo : (decide (e.state = .setting) && s.mayProceed slot d) = false := by simpa using hgoes
    simp only [if_neg hgoes, hgo]
    exact ⟨(does_none s).mono (List.nil_subset _) (by simp), entryPut_same he⟩

/-- R97, R101: what a claim that degrades an entry does. -/
theorem goDegraded_spec (he : Tbl.find slot s.route.table = some e) (c : Causes) (claim : OvertakeClaim) :
    let t := s.goDegraded slot e c claim
    Does [.routes] [] (degradedNotices slot e (e.degrade c) claim.code (t.entryAspect (e.degrade c))) s t ∧
    EntryPut slot (e.degrade c) s t := by
  unfold State.goDegraded degradedNotices
  by_cases hsame : e.degrade c = e
  · simp only [if_pos hsame]
    rw [hsame]
    exact ⟨(does_none s).mono (List.nil_subset _) (by simp), entryPut_same he⟩
  · have hfind := find_onEntry he (RouteEntry.degrade c)
    have hpost := (does_onEntry s slot (RouteEntry.degrade c)).thenPosts (does_postSlot hfind)
    have hput : EntryPut slot (e.degrade c) s ((s.onEntry slot (RouteEntry.degrade c)).postSlot slot) :=
      (entryPut_onEntry he _).route (does_postSlot hfind).route
    simp only [if_neg hsame]
    unfold State.overtaken
    by_cases htime : e.state = .timeRelease
    · simp only [if_pos htime]
      have hover := posts_one .route 6 [.u8 e.route, .u8 slot, .u8 e.owner.code, .u8 claim.code]
      refine ⟨?_, hput.route rfl⟩
      rw [entryAspect_of_bare (hover.bare _)]
      exact hpost.thenPosts (does_posts hover _)
    · simp only [if_neg htime]
      exact ⟨hpost, hput⟩

/-- R97: an entry that has lost a point. -/
theorem degrade_pointLost (e : RouteEntry) : e.degrade .ofPointLost =
    { e with state := .degraded, causes := { e.causes with pointLost := true }, withheld := [], timer := none } := by
  simp [RouteEntry.degrade, Causes.union, Causes.ofPointLost]

/-! ## Reports on a point (R66, R69, R70, R73, R97) -/

/-- Log entry 20: a report on a point locked to an entry is that entry's; what follows it is a scan, or nothing. -/
theorem exec_reportOnEntry {rep : PointReport} (hr : Tbl.find rep.point s.points = some r) (hl : r.lock = some slot)
    (he : Tbl.find slot s.route.table = some e) : exec (.pointStateReport rep) s =
      let t := (s.take (.pointStateReport rep)).takeReport slot e rep
      done (if leavesService rep ∨ (rep.new = .failed ∧ e.state = .setting) then t.scan else t) := by
  simp only [exec, execPointStateReport, State.take_points, State.take_route, hr, Option.bind_some, hl, he]

theorem leavesService_iff (rep : PointReport) : leavesService rep = true ↔ rep.old = .failed ∨ rep.old = .outOfService := by
  simp [leavesService]

theorem isLoss_iff (rep : PointReport) :
    isLoss rep = true ↔ rep.cause = .detection ∧ (rep.old = .normal ∨ rep.old = .reverse) := by
  simp [isLoss]

theorem failEntry_eq (slot : Nat) (e : RouteEntry) (n : Nat) (s : State) : s.failEntry slot e n =
    s.leave slot e (.failed (.point n)) (State.postFailed (some slot) e.route e.owner e.purpose (.point n)) := rfl

/-- R69, R70, R73, R97: a failure under an entry in SETTING, and a loss. -/
theorem reports_onAnEntry : pointReportsOnAnEntry := by
  refine fun rep slot r e d s hr hl he hd => ⟨fun hnew hset => ?_, fun hnew hcause hold => ?_⟩
  · refine ⟨_, ?_, entryLeaves_take hd (posts_postFailed (some slot) e.route e.owner e.purpose (.point rep.point)) (.pointStateReport rep)⟩
    have htake : (s.take (.pointStateReport rep)).takeReport slot e rep =
        (s.take (.pointStateReport rep)).failEntry slot e rep.point := by simp only [State.takeReport, if_pos hnew, hset]
    rw [exec_reportOnEntry hr hl he, htake]
    simp only [hnew, hset, and_self, or_true, if_true, failEntry_eq]
    rfl
  · have hloss : isLoss rep = true := (isLoss_iff rep).mpr ⟨hcause, hold⟩
    have hstays : leavesService rep = false := by
      rcases hold with hold | hold <;> simp [leavesService, hold]
    have htake : (s.take (.pointStateReport rep)).takeReport slot e rep =
        (s.take (.pointStateReport rep)).goDegraded slot e .ofPointLost .pointLost := by
      simp only [State.takeReport, if_neg hnew, hloss, if_true]
    obtain ⟨hdoes, hput⟩ := goDegraded_spec (s := s.take (.pointStateReport rep)) he .ofPointLost .pointLost
    rw [degrade_pointLost] at hdoes hput
    refine ⟨_, ?_, effect_take_update hdoes, hput⟩
    rw [exec_reportOnEntry hr hl he, htake]
    simp only [hstays, hnew, Bool.false_eq_true, false_and, or_false, if_false]
    rfl

/-- R66, R69, R73, R97: the other reports on a point. -/
theorem otherReports_onAnEntry : otherReportsOnAnEntry := by
  intro rep s
  dsimp only
  refine ⟨fun hall => ?_, fun slot r e d hr hl he hd => ?_⟩
  · simp only [exec, execPointStateReport, State.take_points, State.take_route, ← leavesService_iff]
    cases hlock : (Tbl.find rep.point s.points).bind PointRec.lock with
    | none => rfl
    | some slot =>
      have hnone : Tbl.find slot s.route.table = none := by simpa [hlock] using hall
      simp only [hnone]
      rfl
  · rw [exec_reportOnEntry hr hl he]
    simp only [← leavesService_iff]
    refine ⟨fun hnew hdeg => ?_, fun hnew hother => ?_, fun hnew hloss => ?_⟩
    · have htake : (s.take (.pointStateReport rep)).takeReport slot e rep =
          (s.take (.pointStateReport rep)).goDegraded slot e .ofPointLost .pointLost := by
        simp only [State.takeReport, if_pos hnew, hdeg]
      have hworse : e.degrade .ofPointLost =
          { e with causes := { e.causes with pointLost := true }, withheld := [], timer := none } := by
        rw [degrade_pointLost, ← hdeg]
      obtain ⟨hdoes, hput⟩ := goDegraded_spec (s := s.take (.pointStateReport rep)) he .ofPointLost .pointLost
      rw [hworse] at hdoes hput
      refine ⟨_, ?_, effect_take_update hdoes, hput⟩
      rw [htake]
      simp [hdeg, done]
    · have hset : e.state ≠ .setting := fun h => hother (by simp [h])
      have htake : (s.take (.pointStateReport rep)).takeReport slot e rep = s.take (.pointStateReport rep) := by
        simp only [State.takeReport, if_pos hnew]
        cases hstate : e.state <;> simp [hstate] at hother ⊢
      rw [htake]
      simp [hset, done]
    · have hno : isLoss rep = false := by rw [← Bool.not_eq_true, isLoss_iff]; exact hloss
      have htake : (s.take (.pointStateReport rep)).takeReport slot e rep = (s.take (.pointStateReport rep)).testProceed slot := by
        simp [State.takeReport, hnew, hno]
      obtain ⟨hdoes, hput⟩ := testProceed_spec (s := s.take (.pointStateReport rep)) he hd
      refine ⟨(s.take (.pointStateReport rep)).testProceed slot, ?_, ?_⟩
      · rw [htake]
        simp [hnew, done]
      · unfold ProceedTested
        rw [standsClear_eq]
        exact ⟨effect_take_does hdoes, hput⟩

/-! ## Force reports and withheld replies (R28, R67) -/

theorem scan_empty (h : s.route.store = []) : s.scan = s := by
  obtain ⟨⟩ := s
  rename RouteSetter => route
  obtain ⟨⟩ := route
  subst h
  rfl

/-- R67: an entry remembers that the command on a point was withheld. -/
def State.remember (slot n : Nat) (s : State) : State := s.onEntry slot (fun x => { x with withheld := insertNum n x.withheld })

/-- R67: a withheld reply, for an entry in SETTING that holds the point's lock. -/
theorem exec_withheldReply_setting (he : Tbl.find slot s.route.table = some e) (hr : Tbl.find n s.points = some r)
    (hset : e.state = .setting) (hl : r.lock = some slot) : exec (.withheldReply slot n) s =
      let t := (s.take (.withheldReply slot n)).remember slot n
      done (if s.isFree r.sect then t.renewEntry r.sect slot else t) := by
  simp only [exec, execWithheldReply, State.take_route, State.take_points, he, hr, hset, hl, and_self, if_true]
  rfl

/-- R67, log entry 71: a withheld reply that no entry in SETTING awaits. -/
theorem exec_withheldReply_other (he : Tbl.find slot s.route.table = some e) (hr : Tbl.find n s.points = some r)
    (h : ¬(e.state = .setting ∧ r.lock = some slot)) :
    exec (.withheldReply slot n) s = done (s.take (.withheldReply slot n)) := by
  simp only [exec, execWithheldReply, State.take_route, State.take_points, he, hr, if_neg h]

theorem remember_taken (he : Tbl.find slot s.route.table = some e) (c : Instr) (n : Nat) :
    let t := (s.take c).remember slot n
    Effect [.routes] (s.claims.erase c) id none s t ∧
    Put slot { e with withheld := insertNum n e.withheld } s.route.table t.route.table ∧ t.route.store = s.route.store :=
  ⟨effect_take_update (does_onEntry _ slot _), (entryPut_onEntry he _).1, rfl⟩

/-- R28, R67: the set of a force flag, and a withheld command that is remembered. -/
theorem forceReports_and_withheld : forceReportsAndWithheldCommands := by
  refine fun n slot s => ⟨rfl, fun hs => ?_, fun e r he hr hset hl hfree => ⟨_, ?_, remember_taken he (.withheldReply slot n) n⟩⟩
  · have hscan : (s.take (.forceFlagReport n false)).scan = s.take (.forceFlagReport n false) := scan_empty hs
    change done (s.take (.forceFlagReport n false)).scan = _
    rw [hscan]
    rfl
  · rw [exec_withheldReply_setting he hr hset hl]
    simp only [hfree, Bool.false_eq_true, if_false]
    rfl

/-! ## Withheld commands renewed (R67) -/

/-- R67: the withheld commands of an entry on the points in a section leave it, and are given again. -/
theorem renewEntry_eq (he : Tbl.find slot s.route.table = some e) (hd : s.routeDef e.route = some d) (sect : Nat) :
    s.renewEntry sect slot =
      let inSection (m : Nat) : Bool := (Tbl.find m s.points).any (fun r => r.sect = sect)
      if e.state = .setting then
        (s.onEntry slot (fun x => { x with withheld := x.withheld.filter (fun m => !inSection m) })).commandAll slot
          (d.points.filter (fun p => e.withheld.contains p.1 && inSection p.1))
      else s := by
  unfold State.renewEntry
  rw [he]
  dsimp only
  rw [hd]

/-- R67, R73: the renewal of withheld commands, at a CLEAR edge and at a reply. -/
theorem withheldCommands_renewed : withheldCommandsAreRenewed := by
  refine ⟨fun n c s => ⟨fun hn => ?_, rfl⟩, fun n slot e d s he hd => ⟨fun hset => ?_, fun hset => ?_⟩,
    fun n slot e r s he hr => ⟨fun hset hl hfree => ?_, fun hother => ?_⟩⟩
  · have hat : (s.take (.routeClearEdge n c)).elementAt n = none := hn
    simp only [ThenRenewsAndScans, exec, execRouteClearEdge, hat]
    rfl
  · rw [renewEntry_eq he hd]
    exact if_neg hset
  · have hentry := does_onEntry s slot (fun x => { x with
      withheld := x.withheld.filter (fun m => !(Tbl.find m s.points).any (fun r => r.sect = n)) })
    refine ⟨_, hentry.unsent, rfl, rfl, (entryPut_onEntry he _).1, ?_⟩
    rw [renewEntry_eq he hd]
    exact if_pos hset
  · obtain ⟨heffect, hput, hstore⟩ := remember_taken he (.withheldReply slot n) n
    refine ⟨_, ?_, heffect, hput, hstore⟩
    rw [exec_withheldReply_setting he hr hset hl]
    simp only [hfree, if_true]
    rfl
  · rw [exec_withheldReply_other he hr hother]
    rfl

end

end Sys2Proof.Machine

/-! # Command claims, and what a request asks (03 section 3.4; 04 sections 4.4, 4.5) -/

namespace Sys2Proof.Machine

section

variable {s t u : State} {slot n : Nat} {pos : Position} {d : RouteDef} {r : PointRec} {parts : List Part} {claims : List Instr}
  {posts : State → State} {before : Tbl PointRec}

/-! ## Command claims (R40, R41, R43) -/

/-- R43: a point is turned round. -/
theorem PointTaken.reverse (h : PointTaken parts claims posts s before n r t) (pos : Position) :
    PointTaken parts claims (fun s => pointNotice n (r.thrown pos) .reversal (posts s)) s before n (r.thrown pos)
      (t.reverseThrow n pos) :=
  (h.onPoint (PointRec.thrown · pos)).postPoint .reversal

/-- R41: a throw starts. -/
theorem PointTaken.start (h : PointTaken parts claims posts s before n r t) (pos : Position) :
    PointTaken parts (claims ++ [.pointStateReport ⟨n, r.state, .moving, r.reading, .throwStart⟩])
      (fun s => pointNotice n { r.thrown pos with state := .moving } .throwStart (posts s)) s before n
      { r.thrown pos with state := .moving } (t.startThrow n pos) :=
  h.setStateAlone .moving .throwStart (PointRec.thrown · pos) rfl (.inl (by simp))

/-- R40: a command claim, row by row. -/
theorem commandPoint_eq (hr : Tbl.find n s.points = some r) (slot : Nat) (pos : Position) :
    s.commandPoint n slot pos =
      if r.lock ≠ some slot ∨ r.state = .failed ∨ r.state = .outOfService then s
      else if r.state = .moving then if r.drive = some pos then s else s.reverseThrow n pos
      else
        let t := s.onPoint n (fun x => { x with commanded := some pos })
        if r.state = posState pos then t
        else if s.isFree r.sect then t.startThrow n pos
        else t.send (.withheldReply slot n) := by
  have hfree (f : PointRec → PointRec) : (s.onPoint n f).throwAllowed r = s.isFree r.sect := rfl
  unfold State.commandPoint
  rw [hr]
  dsimp only
  rw [hfree]
  cases r.state <;> simp

/-- R40: what a command claim does to the point in each of its states. -/
theorem command_claim : commandClaim := by
  intro n slot pos s r hr
  have hbegin := pointTaken_none hr
  have hset := hbegin.onPoint (fun x => { x with commanded := some pos })
  have hkept {x : PointRec} {f : State → State} {t : State} (h : PointTaken [.points] s.claims f s s.points n x t) :
      Effect [.points] (s.claims ++ []) f none s t ∧ Put n x s.points t.points := ⟨by simpa using h.effect, h.put⟩
  dsimp only
  rw [commandPoint_eq hr, ← posState_eq, ← State.isFree]
  by_cases hdead : r.lock ≠ some slot ∨ r.state = .failed ∨ r.state = .outOfService
  · simp only [if_pos hdead]
  simp only [if_neg hdead]
  by_cases hmoving : r.state = .moving
  · simp only [if_pos hmoving]
    by_cases hdrive : r.drive = some pos
    · simp only [if_pos hdrive]
    · simp only [if_neg hdrive]
      exact hkept (hbegin.reverse pos)
  simp only [if_neg hmoving]
  by_cases hthere : r.state = posState pos
  · simp only [if_pos hthere]
    exact hkept hset
  simp only [if_neg hthere]
  by_cases hfree : s.isFree r.sect = true
  · simp only [if_pos hfree]
    exact ⟨(hset.start pos).effect, (hset.start pos).put⟩
  · simp only [if_neg hfree]
    exact ⟨(hset.send _).effect, (hset.send _).put⟩

/-! ## What a request asks (R60, R62, R63) -/

/-- R60: the objects of a route, in the order in which they are examined. -/
def examined (d : RouteDef) : List YardObject :=
  d.path.flatMap (fun e => .sect e.sect :: e.settings.map (fun x => .point x.point)) ++ d.flank.map (fun f => .point f.point)

/-- R60: whether an object makes a request unavailable. -/
def State.bars (s : State) : YardObject → Bool
  | .sect m => s.isForced m
  | .point m => s.pointState m = some .outOfService

theorem unavailableObject_eq (s : State) (d : RouteDef) : s.unavailableObject d = (examined d).find? s.bars :=
  congrArg (fun f => (examined d).find? f) (funext fun o => by cases o <;> rfl)

theorem sect_mem_examined (d : RouteDef) (m : Nat) : YardObject.sect m ∈ examined d ↔ m ∈ d.sections := by
  simp [examined, RouteDef.sections, eq_comm]

theorem point_mem_examined (d : RouteDef) (m : Nat) : YardObject.point m ∈ examined d ↔ m ∈ routePoints d := by
  simp [examined, routePoints, RouteDef.points]

theorem unavailableObject_none : s.unavailableObject d = none ↔
    (∀ m ∈ d.sections, s.isForced m = false) ∧ ∀ m ∈ routePoints d, s.outOfService m = false := by
  rw [unavailableObject_eq, List.find?_eq_none]
  refine ⟨fun h => ⟨fun m hm => ?_, fun m hm => ?_⟩, fun ⟨hsect, hpoint⟩ o ho => ?_⟩
  · simpa [State.bars] using h _ ((sect_mem_examined d m).mpr hm)
  · simpa [State.bars, State.outOfService] using h _ ((point_mem_examined d m).mpr hm)
  · cases o with
    | sect m => simpa [State.bars] using hsect m ((sect_mem_examined d m).mp ho)
    | point m => simpa [State.bars, State.outOfService] using hpoint m ((point_mem_examined d m).mp ho)

/-- R62: a point that a request may lock. -/
def State.lockable (s : State) (n : Nat) : Prop := ∃ r, Tbl.find n s.points = some r ∧ r.lock = none ∧ r.state ≠ .failed

theorem sharing_eq_false (d o : RouteDef) : sharing d o = false ↔
    (∀ m ∈ d.sections, m ∉ o.sections) ∧ ∀ m ∈ routePoints d, m ∉ routePoints o := by
  simp [sharing, routePoints]

theorem available_iff (s : State) (d : RouteDef) (older : List StoreEntry) : s.available d older = true ↔
    (∀ m ∈ d.sections, s.reservedBy m = none ∧ s.isClear m = true) ∧ (∀ m ∈ routePoints d, s.lockable m) ∧
    ∀ e ∈ older, ∀ o, s.routeDef e.route = some o →
      (∀ m ∈ d.sections, m ∉ o.sections) ∧ ∀ m ∈ routePoints d, m ∉ routePoints o := by
  unfold State.available
  simp only [Bool.and_eq_true, List.all_eq_true, and_assoc, Option.isNone_iff_eq_none]
  refine and_congr_right fun _ => and_congr ?_ (forall₂_congr fun e _ => ?_)
  · simp only [routePoints, List.forall_mem_map]
    refine forall₂_congr fun p _ => ?_
    unfold State.lockable
    cases Tbl.find p.1 s.points <;> simp
  · simp only [← sharing_eq_false]
    cases s.routeDef e.route <;> simp

theorem freeSlot_some {k : Nat} : s.freeSlot = some k ↔ (1 ≤ k ∧ k ≤ 16) ∧ Tbl.find k s.route.table = none ∧
    ∀ j, 1 ≤ j → j < k → (Tbl.find j s.route.table).isSome := by
  unfold State.freeSlot Tbl.lowestFree
  rw [List.find?_range'_eq_some]
  have hslots : k < 1 + Config.tableSlots ↔ k ≤ 16 := Nat.lt_succ_iff
  simp only [List.mem_range'_1, hslots, Option.isNone_iff_eq_none, Option.not_isNone, and_left_comm]

theorem freeSlot_none : s.freeSlot = none ↔ ∀ j, 1 ≤ j → j ≤ 16 → (Tbl.find j s.route.table).isSome := by
  unfold State.freeSlot Tbl.lowestFree
  rw [List.find?_range'_eq_none]
  have hslots (j : Nat) : j < 1 + Config.tableSlots ↔ j ≤ 16 := Nat.lt_succ_iff
  simp only [hslots, Option.not_isNone]

/-- R60, R62, R63: the tests of a request. -/
theorem request_tests : requestTests := by
  intro d older s order bars
  have hbars : bars = s.bars := funext fun o => by cases o <;> rfl
  rw [hbars]
  refine ⟨?_, ?_, available_iff s d older, ?_⟩
  · rw [unavailableObject_eq]
    cases hfound : (examined d).find? s.bars with
    | none =>
      intro x hx
      simpa using List.find?_eq_none.mp hfound x hx
    | some o =>
      obtain ⟨ho, as, bs, hsplit, has⟩ := List.find?_eq_some_iff_append.mp hfound
      exact ⟨ho, as, bs, hsplit, fun x hx => by simpa using has x hx⟩
  · cases hfound : s.unavailableObject d with
    | none => exact unavailableObject_none.mp hfound
    | some o =>
      rw [unavailableObject_eq] at hfound
      have hmem := List.mem_of_find?_eq_some hfound
      have ho := List.find?_some hfound
      cases o with
      | sect m => exact ⟨(sect_mem_examined d m).mp hmem, ho⟩
      | point m => exact ⟨(point_mem_examined d m).mp hmem, ho⟩
  · cases hfree : s.freeSlot with
    | none => exact freeSlot_none.mp hfree
    | some k =>
      obtain ⟨⟨hlow, hhigh⟩, hempty, hlower⟩ := freeSlot_some.mp hfree
      exact ⟨hlow, hhigh, hempty, hlower⟩

end

end Sys2Proof.Machine

/-! # A request taken into the table (04 sections 4.5, 4.6) -/

namespace Sys2Proof

variable {α : Type}

/-- The records after a store under a new number. -/
theorem Tbl.mem_put_of_find_none {k : Nat} {a : α} {tbl : Tbl α} (h : Tbl.find k tbl = none) (x : Nat × α) :
    x ∈ Tbl.put k a tbl ↔ x = (k, a) ∨ x ∈ tbl := by
  induction tbl with
  | nil => simp [Tbl.put]
  | cons y tbl ih =>
    obtain ⟨n, b⟩ := y
    have hn : n ≠ k := fun he => by simp [Tbl.find, he] at h
    have ih := ih (by simpa [Tbl.find, hn] using h)
    unfold Tbl.put
    by_cases hlt : k < n
    · simp [hlt]
    · simp only [if_neg hlt, if_neg hn.symm, List.mem_cons, ih]
      exact or_left_comm

/-- A number under which nothing is found is no record's. -/
theorem Tbl.ne_of_find_none {k : Nat} {tbl : Tbl α} (h : Tbl.find k tbl = none) {x : Nat × α} (hx : x ∈ tbl) : x.1 ≠ k := by
  induction tbl with
  | nil => cases hx
  | cons y tbl ih =>
    obtain ⟨n, b⟩ := y
    have hn : n ≠ k := fun he => by simp [Tbl.find, he] at h
    rcases List.mem_cons.mp hx with rfl | hx
    · exact hn
    · exact ih (by simpa [Tbl.find, hn] using h) hx

end Sys2Proof

namespace Sys2Proof.Machine

section

variable {s t u : State} {slot n : Nat} {d : RouteDef} {r : PointRec} {l : List (Nat × Position)} {p : Nat × Position}

/-! ## Points locked (R38, R63) -/

/-- R38: the record of a point locked to a slot. -/
def PointRec.lockedTo (slot : Nat) (pos : Position) (r : PointRec) : PointRec := { r with lock := some slot, commanded := some pos }

/-- R38: a point is locked to a slot. -/
def State.lockFor (slot : Nat) (s : State) (p : Nat × Position) : State := s.onPoint p.1 (PointRec.lockedTo slot p.2)

/-- R38: a point that a lock claim takes. -/
def State.takeable (s : State) (n : Nat) : Prop :=
  ∃ r, Tbl.find n s.points = some r ∧ r.lock = none ∧ r.state ≠ .failed ∧ r.state ≠ .outOfService

theorem lockPoint_takeable (h : s.takeable p.1) (slot : Nat) : s.lockPoint p.1 slot p.2 = .ok (s.lockFor slot p) := by
  obtain ⟨r, hr, hlock, hfailed, hout⟩ := h
  unfold State.lockPoint
  simp only [hr, hlock, hfailed, hout, or_self, if_false]
  rfl

theorem find_lockFor_other (slot : Nat) (hn : n ≠ p.1) : Tbl.find n (s.lockFor slot p).points = Tbl.find n s.points :=
  (Tbl.find_adjust _ _ _ _).trans (if_neg hn)

/-- R63: the points of a list locked one after another. -/
def State.lockEach (slot : Nat) (l : List (Nat × Position)) (s : State) : State := l.foldl (State.lockFor slot) s

theorem lockAll_takeable (h : ∀ p ∈ l, s.takeable p.1) (hl : (l.map Prod.fst).Nodup) (slot : Nat) :
    s.lockAll slot l = (s.lockEach slot l, none) := by
  induction l generalizing s with
  | nil => rfl
  | cons p l ih =>
    obtain ⟨hp, hl⟩ := List.nodup_cons.mp hl
    unfold State.lockAll
    rw [lockPoint_takeable (h p List.mem_cons_self)]
    refine ih (fun q hq => ?_) hl
    have hne : q.1 ≠ p.1 := fun he => hp (he ▸ List.mem_map_of_mem hq)
    unfold State.takeable
    rw [find_lockFor_other slot hne]
    exact h q (List.mem_cons_of_mem _ hq)

theorem does_lockEach (slot : Nat) (l : List (Nat × Position)) (s : State) : Does [.points] [] id s (s.lockEach slot l) :=
  does_foldl (step := State.lockFor slot) (by simp) (fun s p => does_onPoint s p.1 _) l s

theorem find_lockEach_other (slot : Nat) (hn : n ∉ l.map Prod.fst) :
    Tbl.find n (s.lockEach slot l).points = Tbl.find n s.points := by
  induction l generalizing s with
  | nil => rfl
  | cons p l ih =>
    obtain ⟨hp, hl⟩ := not_or.mp (mt List.mem_cons.mpr hn)
    exact (ih hl).trans (find_lockFor_other slot hp)

theorem find_lockEach (slot : Nat) (hl : (l.map Prod.fst).Nodup) (hp : p ∈ l) :
    Tbl.find p.1 (s.lockEach slot l).points = (Tbl.find p.1 s.points).map (PointRec.lockedTo slot p.2) := by
  induction l generalizing s with
  | nil => cases hp
  | cons q l ih =>
    obtain ⟨hq, hl⟩ := List.nodup_cons.mp hl
    rcases List.mem_cons.mp hp with rfl | hp
    · exact (find_lockEach_other slot hq).trans ((Tbl.find_adjust _ _ _ _).trans (if_pos rfl))
    · have hne : p.1 ≠ q.1 := fun he => hq (he ▸ List.mem_map_of_mem hp)
      exact (ih hl hp).trans (by rw [find_lockFor_other slot hne])

/-! ## Points commanded (R40, R64) -/

/-- A point as a taking into the table commands it: its record of the state before the taking, locked. -/
def LockedAt (slot : Nat) (s t : State) (p : Nat × Position) : Prop :=
  ∃ r, Tbl.find p.1 s.points = some r ∧ r.state ≠ .failed ∧ r.state ≠ .outOfService ∧
    Tbl.find p.1 t.points = some (r.lockedTo slot p.2)

theorem lockedAt_congr (h : Tbl.find p.1 u.points = Tbl.find p.1 t.points) (hp : LockedAt slot s t p) : LockedAt slot s u p := by
  unfold LockedAt
  rw [h]
  exact hp

/-- R64: a point is commanded where it is not detected. -/
def State.commandFor (slot : Nat) (s : State) (p : Nat × Position) : State :=
  if s.detected p.1 p.2 then s else s.commandPoint p.1 slot p.2

theorem commandFor_eq (hr : Tbl.find p.1 t.points = some r) (hlock : r.lock = some slot) (hfailed : r.state ≠ .failed)
    (hout : r.state ≠ .outOfService) : t.commandFor slot p =
      if r.state = posState p.2 then t
      else if r.state = .moving then if r.drive = some p.2 then t else t.reverseThrow p.1 p.2
      else
        let u := t.onPoint p.1 (fun x => { x with commanded := some p.2 })
        if t.isFree r.sect then u.startThrow p.1 p.2 else u.send (.withheldReply slot p.1) := by
  have hdetected : t.detected p.1 p.2 = decide (r.state = posState p.2) := by simp [State.detected, State.pointState, hr]
  unfold State.commandFor
  rw [hdetected, commandPoint_eq hr]
  by_cases hthere : r.state = posState p.2 <;> simp [hthere, hlock, hfailed, hout]

theorem takenPoint_eq (slot : Nat) (pos : Position) (r : PointRec) (s : State) : takenPoint slot pos r s =
    if r.state = posState pos then (r.lockedTo slot pos, none)
    else if r.state = .moving then
      if r.drive = some pos then (r.lockedTo slot pos, none) else ((r.lockedTo slot pos).thrown pos, some .reversal)
    else if s.isFree r.sect then ({ (r.lockedTo slot pos).thrown pos with state := .moving }, some .throwStart)
    else (r.lockedTo slot pos, none) := by
  rw [posState_eq]
  rfl

theorem PointTaken.does {x : PointRec} {sent : List Instr} {f : State → State}
    (h : PointTaken [.points] (s.claims ++ sent) f s s.points n x t) (hf : Posts f) : Does [.points] sent f s t :=
  ⟨h.effect, hf, by simp⟩

/-- R40, R64: the command on a point that the taking has locked. -/
theorem commandFor_spec (h : LockedAt slot s t p) (hfree : ∀ m, t.isFree m = s.isFree m) :
    Does [.points] (takenPointClaims slot s p) (fun v => takenPointNotice slot s v p) t (t.commandFor slot p) ∧
    ∃ r, Tbl.find p.1 s.points = some r ∧ Put p.1 (takenPoint slot p.2 r s).1 t.points (t.commandFor slot p).points := by
  obtain ⟨r, hr, hfailed, hout, ht⟩ := h
  have hbegin : PointTaken [.points] (t.claims ++ []) id t t.points p.1 (r.lockedTo slot p.2) t := by
    simpa using pointTaken_none ht
  have hset := (pointTaken_none ht).onPoint (fun x => { x with commanded := some p.2 })
  suffices h : PointTaken [.points] (t.claims ++ takenPointClaims slot s p) (fun v => takenPointNotice slot s v p) t t.points p.1
      (takenPoint slot p.2 r s).1 (t.commandFor slot p) by
    refine ⟨h.does ?_, r, hr, h.put⟩
    unfold takenPointNotice
    split
    · exact posts_pointNotice _ _ _
    · exact .none
  unfold takenPointClaims takenPointNotice
  rw [hr, Option.map_some, takenPoint_eq, commandFor_eq ht rfl hfailed hout, hfree]
  change PointTaken _ _ _ _ _ _ _ (if r.state = posState p.2 then _ else if r.state = .moving then if r.drive = some p.2 then _ else _
    else if s.isFree r.sect then _ else _)
  dsimp only
  have hdetected : detectedIn p.2 = posState p.2 := (posState_eq p.2).symm
  rw [hdetected]
  by_cases hthere : r.state = posState p.2
  · simp only [hthere, true_or, if_true]
    exact hbegin
  simp only [hthere, false_or, if_false]
  by_cases hmoving : r.state = .moving
  · simp only [if_pos hmoving]
    by_cases hdrive : r.drive = some p.2
    · simp only [if_pos hdrive]
      exact hbegin
    · simp only [if_neg hdrive]
      exact hbegin.reverse p.2
  simp only [if_neg hmoving]
  by_cases hclear : s.isFree r.sect = true
  · simp only [if_pos hclear]
    exact hset.start p.2
  · simp only [if_neg hclear]
    exact hset.send _

/-- R64: the commands of a taking, on the points that it has locked, each on the state that those before it left. -/
theorem commandAll_spec (h : ∀ p ∈ l, LockedAt slot s t p) (hl : (l.map Prod.fst).Nodup) (hfree : ∀ m, t.isFree m = s.isFree m) :
    Does [.points] (l.flatMap (takenPointClaims slot s)) (fun v => l.foldl (takenPointNotice slot s) v) t (t.commandAll slot l) ∧
    (∀ p ∈ l, ∃ r, Tbl.find p.1 s.points = some r ∧
      Tbl.find p.1 (t.commandAll slot l).points = some (takenPoint slot p.2 r s).1) ∧
    ∀ n, n ∉ l.map Prod.fst → Tbl.find n (t.commandAll slot l).points = Tbl.find n t.points := by
  induction l generalizing t with
  | nil => exact ⟨(does_none t).mono (List.nil_subset _) (by simp), by simp, fun _ _ => rfl⟩
  | cons p l ih =>
    obtain ⟨hp, hl⟩ := List.nodup_cons.mp hl
    obtain ⟨hdoes, r, hr, hput⟩ := commandFor_spec (h p List.mem_cons_self) hfree
    have hother {m : Nat} (hm : m ≠ p.1) : Tbl.find m (t.commandFor slot p).points = Tbl.find m t.points :=
      (hput m).trans (if_neg hm)
    have hlater : ∀ q ∈ l, LockedAt slot s (t.commandFor slot p) q := fun q hq =>
      lockedAt_congr (hother fun he => hp (he ▸ List.mem_map_of_mem hq)) (h q (List.mem_cons_of_mem _ hq))
    have hsect : ∀ m, (t.commandFor slot p).isFree m = s.isFree m := fun m => by
      rw [← hfree]
      unfold State.isFree State.isClear State.isForced
      rw [hdoes.sections]
    obtain ⟨hrest, htaken, huntouched⟩ := ih hlater hl hsect
    refine ⟨hdoes.trans hrest, fun q hq => ?_, fun m hm => ?_⟩
    · rcases List.mem_cons.mp hq with rfl | hq
      · exact ⟨r, hr, (huntouched _ hp).trans ((hput _).trans (if_pos rfl))⟩
      · exact htaken q hq
    · obtain ⟨hmp, hml⟩ := not_or.mp (mt List.mem_cons.mpr hm)
      exact (huntouched m hml).trans (hother hmp)

/-! ## The aspects beside a taking (R71) -/

/-- A point lockable for a request is locked to no slot, so no other entry's signal depends on it. -/
theorem pointsStand_beside {k : Nat} {o : RouteDef} (hk : k ≠ slot) (hl : ∀ p ∈ l, s.takeable p.1)
    (htaken : ∀ p ∈ l, ∃ r, Tbl.find p.1 t.points = some r ∧ r.lock = some slot)
    (hother : ∀ n, n ∉ l.map Prod.fst → Tbl.find n t.points = Tbl.find n s.points) : t.pointsStand k o = s.pointsStand k o := by
  rw [Bool.eq_iff_iff, pointsStand_iff, pointsStand_iff]
  refine forall₂_congr fun q _ => ?_
  by_cases hq : q.1 ∈ l.map Prod.fst
  · obtain ⟨p, hp, hpq⟩ := List.mem_map.mp hq
    obtain ⟨r, hr, hlock⟩ := htaken p hp
    obtain ⟨r', hr', hlock', -⟩ := hl p hp
    rw [← hpq, hr, hr']
    simp [hlock, hlock', hk.symm]
  · rw [hother q.1 hq]

/-- R71: an entry in SETTING clears no signal, and a taking leaves what the other entries' signals show. -/
theorem aspect_beside {e : RouteEntry} (he : e.state = .setting) (hempty : Tbl.find slot s.route.table = none)
    (hroute : t.route = { s.route with table := Tbl.put slot e s.route.table }) (hdesc : t.desc = s.desc)
    (hstand : ∀ k o, k ≠ slot → t.pointsStand k o = s.pointsStand k o) (m : Nat) : t.aspect m = s.aspect m := by
  have hold {x : Nat × RouteEntry} (hx : x ∈ s.route.table) : t.clears m x ↔ s.clears m x := by
    unfold State.clears State.routeDef
    simp only [hdesc, hstand x.1 _ (Tbl.ne_of_find_none hempty hx)]
  have hnew : ¬t.clears m (slot, e) := fun h => by simpa [he] using h.1
  rw [Bool.eq_iff_iff, aspect_iff, aspect_iff, hroute]
  refine and_congr_right fun _ => ⟨fun ⟨x, hx, hclears⟩ => ?_, fun ⟨x, hx, hclears⟩ => ?_⟩
  · rcases (Tbl.mem_put_of_find_none hempty x).mp hx with rfl | hx
    · exact absurd hclears hnew
    · exact ⟨x, hx, (hold hx).mp hclears⟩
  · exact ⟨x, (Tbl.mem_put_of_find_none hempty x).mpr (.inr hx), (hold hx).mpr hclears⟩

/-! ## The taking (R63, R64, R66) -/

/-- R63: what a taking does first: sections reserved, points locked, and the entry in its slot. -/
def State.place (slot : Nat) (e : RouteEntry) (d : RouteDef) (s : State) : State :=
  ((s.reserve slot d.sections).lockEach slot d.points).onRoute (fun r => { r with table := Tbl.put slot e r.table })

/-- Reserving leaves what is read of a section otherwise. -/
theorem sectionTests_reserve (s : State) (slot : Nat) (l : List Nat) (m : Nat) :
    (s.reserve slot l).isClear m = s.isClear m ∧ (s.reserve slot l).isFree m = s.isFree m := by
  unfold State.isFree State.isClear State.isForced
  rw [find_reserve]
  cases Tbl.find m s.sections with
  | none => exact ⟨rfl, rfl⟩
  | some r => by_cases hm : m ∈ l <;> simp [hm]

theorem isClear_congr (h : t.sections = s.sections) (m : Nat) : t.isClear m = s.isClear m := by
  unfold State.isClear
  rw [h]

theorem isFree_congr (h : t.sections = s.sections) (m : Nat) : t.isFree m = s.isFree m := by
  unfold State.isFree State.isClear State.isForced
  rw [h]

theorem place_spec {e : RouteEntry} (hl : ∀ p ∈ d.points, s.takeable p.1) (hd : (routePoints d).Nodup) :
    let t := s.place slot e d
    Does yardParts [] id s t ∧ t.sections = (s.reserve slot d.sections).sections ∧
    (∀ p ∈ d.points, LockedAt slot s t p) ∧ (∀ n, n ∉ routePoints d → Tbl.find n t.points = Tbl.find n s.points) ∧
    t.route = { s.route with table := Tbl.put slot e s.route.table } := by
  have hsections := does_reserve s slot d.sections
  have hpoints := does_lockEach slot d.points (s.reserve slot d.sections)
  have hroute := does_onRoute ((s.reserve slot d.sections).lockEach slot d.points) (fun r => { r with table := Tbl.put slot e r.table })
  refine ⟨(hsections.inYard.thenUpdate hpoints.inYard).thenUpdate hroute.inYard, hroute.sections.trans hpoints.sections,
    fun p hp => ?_, fun n hn => ?_, ?_⟩
  · obtain ⟨r, hr, -, hfailed, hout⟩ := hl p hp
    refine ⟨r, hr, hfailed, hout, ?_⟩
    change Tbl.find p.1 ((s.reserve slot d.sections).lockEach slot d.points).points = _
    rw [find_lockEach slot hd hp, hsections.points, hr]
    rfl
  · exact (find_lockEach_other slot hn).trans (by rw [hsections.points])
  · unfold State.place
    rw [State.onRoute_route, hpoints.route, hsections.route]

/-- R63, R64: what stands when the points have been commanded. -/
theorem commandPlaced_spec {e : RouteEntry} (hl : ∀ p ∈ d.points, s.takeable p.1) (hd : (routePoints d).Nodup) :
    let t := (s.place slot e d).commandAll slot d.points
    Does yardParts (d.points.flatMap (takenPointClaims slot s)) (fun v => d.points.foldl (takenPointNotice slot s) v) s t ∧
    t.sections = (s.reserve slot d.sections).sections ∧
    (∀ p ∈ d.points, ∃ r, Tbl.find p.1 s.points = some r ∧ Tbl.find p.1 t.points = some (takenPoint slot p.2 r s).1) ∧
    (∀ n, n ∉ routePoints d → Tbl.find n t.points = Tbl.find n s.points) ∧
    t.route = { s.route with table := Tbl.put slot e s.route.table } := by
  obtain ⟨hplace, hsections, hlocked, hother, hroute⟩ := place_spec (slot := slot) (e := e) hl hd
  obtain ⟨hcommand, htaken, huntouched⟩ := commandAll_spec hlocked hd
    fun m => (isFree_congr hsections m).trans (sectionTests_reserve s slot d.sections m).2
  exact ⟨hplace.trans hcommand.inYard, hcommand.sections.trans hsections, htaken,
    fun n hn => (huntouched n hn).trans (hother n hn), hcommand.route.trans hroute⟩

/-- R64: the entry of a request as it is created. -/
def RouteRequest.entry (q : RouteRequest) (d : RouteDef) : RouteEntry :=
  ⟨q.route, d.kind, q.owner, .setting, q.tram, 0, 0, .empty, [], [], none, q.purpose⟩

theorem takenEntry_eq (q : RouteRequest) (d : RouteDef) (s : State) : takenEntry q.route q.owner q.purpose q.tram d s =
    if d.points.all (fun p => s.detected p.1 p.2) then (q.entry d).proceeds else q.entry d := by
  unfold takenEntry
  split <;> rfl

theorem takeInto_eq (hl : ∀ p ∈ d.points, s.takeable p.1) (hd : (routePoints d).Nodup) (slot : Nat) (q : RouteRequest) :
    s.takeInto slot q d =
      (((((s.place slot (q.entry d) d).commandAll slot d.points).postSlot slot).testProceed slot), .taken) := by
  have hreserved : ∀ p ∈ d.points, (s.reserve slot d.sections).takeable p.1 := fun p hp => by
    unfold State.takeable
    rw [(does_reserve s slot d.sections).points]
    exact hl p hp
  unfold State.takeInto
  dsimp only
  rw [lockAll_takeable hreserved hd]
  rfl

/-- A point that a taking has locked stands in its position where it did before. -/
theorem takenPoint_stands (slot : Nat) (pos : Position) (r : PointRec) (s : State) :
    (takenPoint slot pos r s).1.lock = some slot ∧ ((takenPoint slot pos r s).1.state = posState pos ↔ r.state = posState pos) := by
  have hmoving : PointState.moving ≠ posState pos := by cases pos <;> simp [posState]
  rw [takenPoint_eq]
  refine ⟨?_, ?_⟩ <;> split_ifs <;> simp_all [PointRec.lockedTo, PointRec.thrown]

/-- R66: the entry taken goes on to PROCEED where every point stood in its position. -/
theorem mayProceed_taken (hclear : ∀ m ∈ d.sections, t.isClear m = true)
    (htaken : ∀ p ∈ d.points, ∃ r, Tbl.find p.1 s.points = some r ∧ Tbl.find p.1 t.points = some (takenPoint slot p.2 r s).1) :
    t.mayProceed slot d = d.points.all (fun p => s.detected p.1 p.2) := by
  unfold State.mayProceed
  rw [List.all_eq_true.mpr hclear, Bool.and_true, Bool.eq_iff_iff, pointsStand_iff, List.all_eq_true]
  refine forall₂_congr fun p hp => ?_
  obtain ⟨r, hr, ht⟩ := htaken p hp
  obtain ⟨hlock, hstate⟩ := takenPoint_stands slot p.2 r s
  rw [detected_iff, hr, ht]
  simp [hlock, hstate]

/-- R63, R64, R66: an available request is taken into an empty slot. -/
theorem takeInto_taken {q : RouteRequest} (hdef : s.routeDef q.route = some d) (hempty : Tbl.find slot s.route.table = none)
    (hd : (routePoints d).Nodup) (hl : ∀ p ∈ d.points, s.takeable p.1) (hclear : ∀ m ∈ d.sections, s.isClear m = true) :
    let e := takenEntry q.route q.owner q.purpose q.tram d s
    ∃ u, s.takeInto slot q d = (u, .taken) ∧ InTable slot e d s u ∧
      Does yardParts (takingClaims slot e d s) (takingNotices slot e d s u) s u := by
  obtain ⟨hcommand, hsections, htaken, hother, hroute⟩ := commandPlaced_spec (slot := slot) (e := q.entry d) hl hd
  have htake := takeInto_eq hl hd slot q
  generalize (s.place slot (q.entry d) d).commandAll slot d.points = t at *
  have hslot : Tbl.find slot t.route.table = some (q.entry d) := by rw [hroute]; exact (Tbl.find_put _ _ _ _).trans (if_pos rfl)
  have haspect (m : Nat) : t.aspect m = s.aspect m :=
    aspect_beside rfl hempty hroute hcommand.desc (fun k o hk => pointsStand_beside hk hl (fun p hp => by
      obtain ⟨r, -, hr⟩ := htaken p hp
      exact ⟨_, hr, (takenPoint_stands slot p.2 r s).1⟩) hother) m
  have hpost := does_postSlot hslot
  have hdef' : (t.postSlot slot).routeDef (q.entry d).route = some d := by
    unfold State.routeDef
    rw [hpost.desc, hcommand.desc]
    exact hdef
  have hsigns : (t.postSlot slot).entryAspect (q.entry d) = s.entryAspect (q.entry d) := by
    rw [entryAspect_congr (by rw [hpost.route]) (by rw [hpost.route]) hpost.points hpost.desc]
    unfold State.entryAspect State.routeDef
    simp only [hcommand.desc, haspect]
  rw [hsigns] at hpost
  obtain ⟨htest, hput⟩ := testProceed_spec (hpost.route ▸ hslot) hdef'
  have hgoes : (t.postSlot slot).mayProceed slot d = d.points.all (fun p => s.detected p.1 p.2) := by
    refine mayProceed_taken (slot := slot) (fun m hm => ?_) (by rw [hpost.points]; exact htaken)
    rw [isClear_congr (hpost.sections.trans hsections), (sectionTests_reserve s slot d.sections m).1]
    exact hclear m hm
  have hsetting : decide ((q.entry d).state = .setting) = true := rfl
  rw [hsetting, Bool.true_and, hgoes] at htest hput
  rw [eventClaims_congr (hpost.desc.trans hcommand.desc)] at htest
  have hall := (hcommand.thenPosts hpost).trans htest.inYard
  rw [← takenEntry_eq] at hput
  obtain ⟨hentry, hstore, hhalt⟩ := hput
  refine ⟨_, htake, ⟨fun m => ?_, ?_, fun m hm => ?_, fun m => ?_, ?_, ?_⟩, ?_⟩
  · rw [htest.sections, hpost.sections, hsections]
    exact find_reserve s slot d.sections m
  · rw [htest.points, hpost.points]
    exact htaken
  · rw [htest.points, hpost.points]
    exact hother m hm
  · rw [hentry m, hpost.route, hroute]
    dsimp only
    rw [Tbl.find_put]
    split <;> rfl
  · rw [hstore, hpost.route, hroute]
  · rw [hhalt, hpost.route, hroute]
  · unfold takingClaims takingNotices
    rw [takenEntry_eq]
    generalize d.points.all (fun p => s.detected p.1 p.2) = standing at hall ⊢
    cases standing <;> exact hall

end

end Sys2Proof.Machine

/-! # Requests of the desk, and the store scan (04 sections 4.4, 4.5, 4.8) -/

namespace Sys2Proof.Machine

section

variable {s t u : State} {slot n : Nat} {d : RouteDef} {q : RouteRequest} {kinds : List RouteKind} {o : YardObject}

/-! ## An available request (R60, R62) -/

/-- R60, R62: what a request that is available may count on. -/
theorem points_takeable {older : List StoreEntry} (hobject : s.unavailableObject d = none) (hav : s.available d older = true) :
    ∀ p ∈ d.points, s.takeable p.1 := by
  intro p hp
  have hp : p.1 ∈ routePoints d := List.mem_map_of_mem hp
  obtain ⟨-, hlockable, -⟩ := (available_iff s d older).mp hav
  obtain ⟨r, hr, hlock, hfailed⟩ := hlockable p.1 hp
  refine ⟨r, hr, hlock, hfailed, fun hout => ?_⟩
  have hin := (unavailableObject_none.mp hobject).2 p.1 hp
  simp [State.outOfService, State.pointState, hr, hout] at hin

/-- R60, R62, R63: a request that is available is taken into the slot that is free. -/
theorem takeInto_available {older : List StoreEntry} (hdef : s.routeDef q.route = some d) (hd : (routePoints d).Nodup)
    (hobject : s.unavailableObject d = none) (hav : s.available d older = true) (hslot : s.freeSlot = some slot) :
    let e := takenEntry q.route q.owner q.purpose q.tram d s
    ∃ u, s.takeInto slot q d = (u, .taken) ∧ InTable slot e d s u ∧
      Does yardParts (takingClaims slot e d s) (takingNotices slot e d s u) s u := by
  obtain ⟨hsections, -, -⟩ := (available_iff s d older).mp hav
  obtain ⟨-, hempty, -⟩ := freeSlot_some.mp hslot
  exact takeInto_taken hdef hempty hd (points_takeable hobject hav) fun m hm => (hsections m hm).2

/-! ## The store scan (R73, R74) -/

theorem does_failStored (e : StoreEntry) (d : RouteDef) (o : YardObject) (s : State) :
    Does [] (eventClaims s ⟨.failed (.unavailable o), none, e.route, d.kind, e.owner, e.purpose, e.tram⟩)
      (State.postFailed none e.route e.owner e.purpose (.unavailable o)) s (s.failStored e d o) :=
  (does_sendEvent s _).thenPosts (does_posts (posts_postFailed _ _ _ _ _) _)

/-- R79: the ROUTE_FAILED notice of an object, in the words of the statements. -/
theorem postFailed_unavailable (n : Nat) (w : Owner) (p : Purpose) (o : YardObject) (s : State) :
    State.postFailed none n w p (.unavailable o) s =
      s.post .route 3 ([Field.u8 n, Field.u8 0, Field.u8 w.code] ++ p.fields ++ [Field.u8 4] ++ o.fields) := by
  simp [State.postFailed, FailCause.fields, f8]

/-- R73, R74: the scan, entry by entry. -/
theorem store_scan : storeScan := by
  refine ⟨fun n s => ⟨rfl, rfl⟩, fun kept s => rfl, fun kept rest e s => ?_, fun kept e d s hdef => ?_⟩
  · dsimp only
    rw [State.scanFrom.eq_def]
    dsimp only
    obtain ⟨t, stays⟩ := s.scanOne kept e
    cases stays <;> rfl
  have hroute : s.routeDef e.route = some d := hdef
  dsimp only
  cases hobject : s.unavailableObject d with
  | some o =>
    have hone : s.scanOne kept e = (s.failStored e d o, false) := by
      unfold State.scanOne
      simp only [hroute, hobject]
    rw [hone]
    have hfail := (does_failStored e d o s).effect
    simp only [funext (postFailed_unavailable e.route e.owner e.purpose o)] at hfail
    refine ⟨rfl, ?_⟩
    cases o <;> exact hfail
  | none =>
    cases hav : s.available d kept with
    | false =>
      unfold State.scanOne
      simp only [hroute, hobject, hav]
    | true =>
      cases hslot : s.freeSlot with
      | none =>
        unfold State.scanOne
        simp only [hroute, hobject, hav, hslot]
      | some slot =>
        intro hd
        obtain ⟨u, htake, htable, hdoes⟩ := takeInto_available (q := e.request) hroute hd hobject hav hslot
        have hone : s.scanOne kept e = (u, false) := by
          unfold State.scanOne
          simp only [hroute, hobject, hav, hslot, htake]
        rw [hone]
        exact ⟨rfl, htable, hdoes.effect⟩

/-- Settles O15, clause by clause. -/
theorem pointAndForceReports : Obligations.PointAndForceReports :=
  ⟨reports_onAnEntry, forceReports_and_withheld, otherReports_onAnEntry, command_claim, withheldCommands_renewed, request_tests,
    store_scan⟩

/-! ## What the desk's request comes to (R60, R61, R63, R65) -/

theorem requestRoute_noRoute (h : s.routeDef q.route = none) : s.requestRoute kinds q = (s, .refused .badArgument []) := by
  unfold State.requestRoute
  rw [h]

theorem requestRoute_otherKind (h : s.routeDef q.route = some d) (hk : kinds.contains d.kind = false) :
    s.requestRoute kinds q = (s, .refused .notPermitted []) := by
  unfold State.requestRoute
  simp only [h, hk, Bool.not_false, if_true]

theorem requestRoute_unavailable (h : s.routeDef q.route = some d) (hk : kinds.contains d.kind = true)
    (ho : s.unavailableObject d = some o) : s.requestRoute kinds q = (s, .refused .unavailable o.fields) := by
  unfold State.requestRoute
  simp only [h, hk, ho, Bool.not_true, Bool.false_eq_true, if_false]

theorem requestRoute_inTable (h : s.routeDef q.route = some d) (hk : kinds.contains d.kind = true)
    (ho : s.unavailableObject d = none) (hs : s.slotOf q.route = some slot) :
    s.requestRoute kinds q = (s, .refused .duplicate [Field.u8 slot]) := by
  unfold State.requestRoute
  simp only [h, hk, ho, hs, Bool.not_true, Bool.false_eq_true, if_false]

theorem requestRoute_inStore {k : Nat} (h : s.routeDef q.route = some d) (hk : kinds.contains d.kind = true)
    (ho : s.unavailableObject d = none) (hs : s.slotOf q.route = none) (hp : s.storePosition q.route = some k) :
    s.requestRoute kinds q = (s, .refused .duplicate [Field.u8 k]) := by
  unfold State.requestRoute
  simp only [h, hk, ho, hs, hp, Bool.not_true, Bool.false_eq_true, if_false]

/-- R61: a request that nothing bars and that stands nowhere yet. -/
structure State.Admits (s : State) (kinds : List RouteKind) (q : RouteRequest) (d : RouteDef) : Prop where
  found : s.routeDef q.route = some d
  kind : kinds.contains d.kind = true
  object : s.unavailableObject d = none
  slot : s.slotOf q.route = none
  position : s.storePosition q.route = none

theorem requestRoute_admitted (h : s.Admits kinds q d) : s.requestRoute kinds q = s.takeOrStore q d := by
  unfold State.requestRoute
  simp only [h.found, h.kind, h.object, h.slot, h.position, Bool.not_true, Bool.false_eq_true, if_false]

/-- R62, R63: an admitted request that is available, with a slot free. -/
theorem requestRoute_taken (h : s.Admits kinds q d) (hd : (routePoints d).Nodup) (hav : s.available d s.route.store = true)
    (hslot : s.freeSlot = some slot) :
    let e := takenEntry q.route q.owner q.purpose q.tram d s
    ∃ u, s.requestRoute kinds q = (u, .accepted slot) ∧ InTable slot e d s u ∧
      Does yardParts (takingClaims slot e d s) (takingNotices slot e d s u) s u := by
  obtain ⟨u, htake, htable, hdoes⟩ := takeInto_available h.found hd h.object hav hslot
  refine ⟨u, ?_, htable, hdoes⟩
  rw [requestRoute_admitted h]
  unfold State.takeOrStore
  simp only [hav, hslot, htake]

/-- R65: any other admitted request is for the store. -/
theorem requestRoute_waits (h : s.Admits kinds q d) (hbusy : (!s.available d s.route.store || s.freeSlot.isNone) = true) :
    s.requestRoute kinds q = s.storeRequest q := by
  rw [requestRoute_admitted h]
  unfold State.takeOrStore
  cases hav : s.available d s.route.store with
  | false => rfl
  | true =>
    rw [hav, Bool.not_true, Bool.false_or, Option.isNone_iff_eq_none] at hbusy
    simp only [hbusy]

/-- R65: the store takes a request at its young end. -/
theorem storeRequest_stored (h : s.route.store.length < 8) (q : RouteRequest) :
    ∃ u, s.storeRequest q = (u, .stored (s.route.store.length + 1)) ∧
      Does [.routes] [] (fun v => v.post .route 1
        ([Field.u8 q.route, Field.u8 q.owner.code] ++ q.purpose.fields ++ [Field.u8 (s.route.store.length + 1)])) s u ∧
      u.route = { s.route with store := s.route.store ++ [⟨q.route, q.owner, q.purpose, q.tram, s.param.storeLimit * 1000⟩] } := by
  refine ⟨_, ?_, (does_onRoute s (fun r => { r with
    store := r.store ++ [⟨q.route, q.owner, q.purpose, q.tram, s.param.storeLimit * 1000⟩] })).thenPosts
      (does_posts (posts_one .route 1
        ([Field.u8 q.route, Field.u8 q.owner.code] ++ q.purpose.fields ++ [Field.u8 (s.route.store.length + 1)])) _), rfl⟩
  unfold State.storeRequest
  exact if_pos h

theorem storeRequest_full (h : ¬s.route.store.length < 8) (q : RouteRequest) : s.storeRequest q = (s, .refused .full []) := by
  unfold State.storeRequest
  exact if_neg h

/-! ## ROUTE_SET (R59) -/

/-- The desk's request for a route. -/
def deskRequest (n : Nat) : RouteRequest := ⟨n, .desk, .none, none⟩

/-- R59: ROUTE_SET in RUN answers what its request comes to. -/
theorem exec_routeSet {r : Req} {g : Granted} (hr : r.port = .desk) (ho : InRun r s)
    (h : (s.take (.routeSet r n)).requestRoute [.yard] (deskRequest n) = (u, g)) :
    exec (.routeSet r n) s = .next (u.reply .routeSet r g.ans).settle := by
  have hgrant : takeRouteSet n (s.take (.routeSet r n)) = (u, g.ans) := by
    unfold takeRouteSet
    exact congrArg (fun x => (x.1, x.2.ans)) h
  refine (takeRequest_run (by rw [hr]; rfl) rfl rfl ho rfl (takeRouteSet n)).trans ?_
  rw [hgrant]
  rfl

/-- R79: an answer leaves what the notices of a taking show. -/
theorem entryAspect_reply (s : State) (k : Kind) (r : Req) (a : Ans) (e : RouteEntry) :
    (s.reply k r a).entryAspect e = s.entryAspect e :=
  entryAspect_congr (by simp) (by simp) (by simp) (by simp) e

theorem inTable_reply {e : RouteEntry} (h : InTable slot e d s u) (k : Kind) (r : Req) (a : Ans) :
    InTable slot e d s (u.reply k r a) := by
  unfold InTable
  rw [State.reply_sections, State.reply_points, State.reply_route]
  exact h

/-- Settles O9: the taking of an available request (`requestRoute_taken`), and its answer. -/
theorem availableRouteTakesASlot : Obligations.AvailableRouteTakesASlot := by
  intro r n slot d s hr ho hdef hkind hd hobject hnone hnowhere hav hslot
  have hadmits : (s.take (.routeSet r n)).Admits [.yard] (deskRequest n) d :=
    ⟨hdef, by rw [hkind]; rfl, hobject, hnone, hnowhere⟩
  obtain ⟨u, hrequest, htable, hdoes⟩ := requestRoute_taken hadmits hd hav hslot
  have hentry : takenEntry n .desk .none none d s = ⟨n, .yard, .desk,
      if d.points.all (fun p => s.detected p.1 p.2) then .proceed else .setting, none, 0, 0, ⟨false, false, false⟩, [], [],
      none, .none⟩ := by
    unfold takenEntry
    rw [hkind]
  have hnotices (e : RouteEntry) (a : Ans) : takingNotices slot e d s (u.reply .routeSet r a) = takingNotices slot e d s u := by
    unfold takingNotices
    rw [entryAspect_reply]
  dsimp only
  rw [← hentry]
  refine ⟨_, exec_routeSet hr ho hrequest, ?_, inTable_reply htable _ _ _⟩
  rw [hnotices]
  exact effect_reply _ _ _ (effect_take_does hdoes)

/-- R60, R61, R65: what becomes of a ROUTE_SET that is not taken into the table. -/
def NotTaken (r : Req) (n : Nat) (s : State) (a : Ans) (stored : Bool) : Prop :=
  ∃ u, exec (.routeSet r n) s = .next u.settle ∧
    Effect [.routes] (s.claims.erase (.routeSet r n))
      (fun s => if stored then s.post .route 1 [Field.u8 n, Field.u8 1, Field.u8 0, Field.u8 (s.route.store.length + 1)] else s)
      (some (.routeSet, r, a)) s u ∧
    u.route = { s.route with store := s.route.store ++
      (if stored then [⟨n, .desk, .none, none, s.param.storeLimit * 1000⟩] else []) }

/-- A refusal changes nothing. -/
theorem notTaken_refused {r : Req} {w : Reason} {fs : List Field} (hr : r.port = .desk) (ho : InRun r s)
    (h : (s.take (.routeSet r n)).requestRoute [.yard] (deskRequest n) = (s.take (.routeSet r n), .refused w fs)) :
    NotTaken r n s ⟨.refused, some w, fs⟩ false :=
  ⟨_, exec_routeSet hr ho h, effect_answer s (.routeSet r n) .routeSet r _ [.routes], by simp⟩

theorem notTaken_stored {r : Req} (hr : r.port = .desk) (ho : InRun r s) (hlen : s.route.store.length < 8)
    (h : (s.take (.routeSet r n)).requestRoute [.yard] (deskRequest n) =
      (s.take (.routeSet r n)).storeRequest (deskRequest n)) :
    NotTaken r n s ⟨.stored, none, [Field.u8 (s.route.store.length + 1)]⟩ true := by
  obtain ⟨u, hstore, hdoes, hroute⟩ := storeRequest_stored (s := s.take (.routeSet r n)) hlen (deskRequest n)
  refine ⟨_, exec_routeSet hr ho (h.trans hstore), ?_, ?_⟩
  · have h := effect_reply .routeSet r ⟨.stored, none, [Field.u8 (s.route.store.length + 1)]⟩ (effect_take_update hdoes)
    exact h
  · rw [State.reply_route, hroute]
    rfl

/-- Settles O8: the refusals of the request in their order, and the store (`storeRequest_stored`, `storeRequest_full`). -/
theorem routeSetRefusedOrStored : Obligations.RouteSetRefusedOrStored := by
  intro r n s hr ho busy out a stored hout
  change NotTaken r n s a stored
  have hrefused {w : Reason} {fs : List Field} := notTaken_refused (n := n) (w := w) (fs := fs) hr ho
  cases hdef : Tbl.find n s.desc.routes with
  | none =>
    simp only [out, hdef] at hout
    cases hout
    exact hrefused (requestRoute_noRoute hdef)
  | some d =>
  by_cases hyard : d.kind ≠ .yard
  · simp only [out, hdef, if_pos hyard] at hout
    cases hout
    exact hrefused (requestRoute_otherKind hdef (by simpa using hyard))
  have hkind : [RouteKind.yard].contains d.kind = true := by simpa using hyard
  cases hobject : s.unavailableObject d with
  | some o =>
    have hthis := hrefused (requestRoute_unavailable (q := deskRequest n) hdef hkind hobject)
    simp only [out, hdef, if_neg hyard, hobject] at hout
    cases o <;> cases hout <;> exact hthis
  | none =>
  simp only [out, hdef, if_neg hyard, hobject] at hout
  cases htable : s.route.table.find? (fun p => p.2.route = n) with
  | some p =>
    simp only [htable] at hout
    cases hout
    exact hrefused (requestRoute_inTable hdef hkind hobject (congrArg (Option.map Prod.fst) htable))
  | none =>
  have hslot : s.slotOf n = none := congrArg (Option.map Prod.fst) htable
  cases hstore : s.route.store.findIdx? (fun e => e.route = n) with
  | some i =>
    simp only [htable, hstore] at hout
    cases hout
    exact hrefused (requestRoute_inStore hdef hkind hobject hslot (congrArg (Option.map (· + 1)) hstore))
  | none =>
  have hadmits : (s.take (.routeSet r n)).Admits [.yard] (deskRequest n) d :=
    ⟨hdef, hkind, hobject, hslot, congrArg (Option.map (· + 1)) hstore⟩
  simp only [htable, hstore] at hout
  by_cases hbusy : busy d = true
  · have hwaits := requestRoute_waits hadmits hbusy
    simp only [if_pos hbusy] at hout
    by_cases hlen : s.route.store.length < 8
    · simp only [if_pos hlen] at hout
      cases hout
      exact notTaken_stored hr ho hlen hwaits
    · simp only [if_neg hlen] at hout
      cases hout
      exact hrefused (hwaits.trans (storeRequest_full (s := s.take (.routeSet r n)) hlen (deskRequest n)))
  · simp only [if_neg hbusy] at hout
    cases hout

end

end Sys2Proof.Machine

/-! # The halt flag and a restart at the route setter (04 section 4.7; 05 section 5.5) -/

namespace Sys2Proof.Machine

section

variable {s t u : State} {slot n : Nat} {l : List (Nat × RouteEntry)} {v : Bool}

/-! ## The halt flag (R71, R72) -/

/-- R72: an entry in PROCEED whose points stand. -/
def State.stands (s : State) (p : Nat × RouteEntry) : Bool :=
  p.2.state = .proceed && (s.routeDef p.2.route).any (fun d => s.pointsStand p.1 d)

/-- R72: the notice of such an entry, where the halt flag has become `v`. -/
def haltNotice (v : Bool) (s : State) (p : Nat × RouteEntry) : State := routeNotice p.1 p.2 2 (!v) s

/-- R72: the notices of a change of the halt flag. -/
def haltNotices (v : Bool) (l : List (Nat × RouteEntry)) (s : State) : State := l.foldl (haltNotice v) s

theorem posts_haltNotices (v : Bool) (l : List (Nat × RouteEntry)) : Posts (haltNotices v l) :=
  Posts.foldl (f := haltNotice v) (fun p => posts_routeNotice p.1 p.2 2 (!v)) l

/-- A walk that only posts, whatever the table holds. -/
theorem showAspects_posts (l : List (Nat × RouteEntry)) (s : State) : ∃ f, Posts f ∧ l.foldl State.showAspect s = f s := by
  induction l generalizing s with
  | nil => exact ⟨id, .none, rfl⟩
  | cons p l ih =>
    have hone : ∃ f, Posts f ∧ s.showAspect p = f s := by
      unfold State.showAspect
      split
      · split
        · cases hfind : Tbl.find p.1 s.route.table with
          | some e => exact ⟨_, posts_routeNotice p.1 e _ _, postSlot_eq hfind⟩
          | none => exact ⟨id, .none, by unfold State.postSlot; rw [hfind]; rfl⟩
        · exact ⟨id, .none, rfl⟩
      · exact ⟨id, .none, rfl⟩
    obtain ⟨f, hf, hstep⟩ := hone
    obtain ⟨f', hf', hrest⟩ := ih (s.showAspect p)
    exact ⟨_, hf.comp hf', by rw [List.foldl_cons, hrest, hstep]⟩

/-- R71: an entry that stands shows proceed where the halt flag is clear. -/
theorem entryAspect_stands {p : Nat × RouteEntry} (hp : s.stands p = true) (hmem : p ∈ s.route.table) :
    s.entryAspect p.2 = !s.route.halt := by
  unfold State.stands at hp
  rw [Bool.and_eq_true, decide_eq_true_iff, Option.any_eq_true] at hp
  obtain ⟨hstate, d, hd, hpoints⟩ := hp
  unfold State.entryAspect
  rw [hd, Bool.eq_iff_iff, aspect_iff, Bool.not_eq_true']
  exact and_iff_left ⟨p, hmem, hstate, d, hd, rfl, hpoints⟩

/-- R72: what is shown of an entry that the table finds. -/
theorem showAspect_eq {p : Nat × RouteEntry} (hp : Tbl.find p.1 s.route.table = some p.2) :
    s.showAspect p = if s.stands p then haltNotice s.route.halt s p else s := by
  have hshow : s.showAspect p = if s.stands p then s.postSlot p.1 else s := by
    unfold State.showAspect State.stands
    cases s.routeDef p.2.route <;> simp
  rw [hshow]
  by_cases hstands : s.stands p = true
  · rw [if_pos hstands, if_pos hstands, postSlot_eq hp, entryAspect_stands hstands (Tbl.mem_of_find hp)]
    unfold State.stands at hstands
    rw [Bool.and_eq_true, decide_eq_true_iff] at hstands
    rw [hstands.1]
    rfl
  · rw [if_neg hstands, if_neg hstands]

theorem showAspects_eq (hl : ∀ p ∈ l, Tbl.find p.1 s.route.table = some p.2) :
    l.foldl State.showAspect s = haltNotices s.route.halt (l.filter s.stands) s := by
  induction l generalizing s with
  | nil => rfl
  | cons p l ih =>
    rw [List.foldl_cons, showAspect_eq (hl p List.mem_cons_self), List.filter_cons]
    split
    · exact ih (s := haltNotice s.route.halt s p) fun q hq => hl q (List.mem_cons_of_mem _ hq)
    · exact ih fun q hq => hl q (List.mem_cons_of_mem _ hq)

/-- R72: the halt flag is taken: what a state with the flag and the notices posted keeps, and what its signals show. -/
theorem routeHalt_taken {f : State → State} (hf : Posts f) :
    let t := (s.take (.routeHaltReport v)).onRoute (fun r => { r with halt := v })
    Effect [.routes] (s.claims.erase (.routeHaltReport v)) f none s (f t) ∧
    (f t).route = { s.route with halt := v } ∧ (f t).points = s.points ∧ (f t).desc = s.desc := by
  have hset := does_onRoute (s.take (.routeHaltReport v)) (fun r => { r with halt := v })
  have hpost := does_posts hf ((s.take (.routeHaltReport v)).onRoute (fun r => { r with halt := v }))
  exact ⟨effect_take_update (hset.thenPosts hpost), hpost.route, hpost.points, hpost.desc⟩

/-- R72: the notices that a report of the halt flag posts. -/
def haltReportNotices (v : Bool) (s t : State) : State :=
  if s.route.halt = v then t else haltNotices v (s.route.table.filter s.stands) t

theorem posts_haltReportNotices (v : Bool) (s : State) : Posts (haltReportNotices v s) :=
  Posts.ite (fun _ => .none) fun _ => posts_haltNotices v _

/-- R72: a report of the halt flag only takes it and posts notices, those of the entries that stand where each slot is held once. -/
theorem exec_routeHalt (v : Bool) (s : State) :
    let t := (s.take (.routeHaltReport v)).onRoute (fun r => { r with halt := v })
    ∃ f, Posts f ∧ exec (.routeHaltReport v) s = .next (f t).settle ∧
      (Tbl.wf s.route.table → f t = haltReportNotices v s t) := by
  unfold haltReportNotices
  by_cases hsame : s.route.halt = v
  · subst hsame
    exact ⟨id, .none, if_pos rfl, fun _ => (if_pos rfl).symm⟩
  · obtain ⟨f, hf, hshow⟩ := showAspects_posts s.route.table
      ((s.take (.routeHaltReport v)).onRoute (fun r => { r with halt := v }))
    refine ⟨f, hf, ?_, fun hwf => ?_⟩
    · rw [← hshow]
      exact if_neg hsame
    · rw [← hshow, if_neg hsame]
      exact showAspects_eq fun p hp => Tbl.find_of_mem hwf hp

theorem stands_eq (s : State) (p : Nat × RouteEntry) : s.stands p =
    (p.2.state = .proceed && (s.routeDef p.2.route).any (fun d => d.points.all (fun x =>
      (Tbl.find x.1 s.points).any (fun r => r.lock = some p.1 && r.state = detectedIn x.2)))) := by
  have hpoints (d : RouteDef) : s.pointsStand p.1 d = d.points.all (fun x =>
      (Tbl.find x.1 s.points).any (fun r => r.lock = some p.1 && r.state = detectedIn x.2)) := by
    rw [Bool.eq_iff_iff, pointsStand_iff, List.all_eq_true]
    refine forall₂_congr fun x _ => ?_
    have hin : detectedIn x.2 = posState x.2 := (posState_eq x.2).symm
    rw [hin]
    cases Tbl.find x.1 s.points <;> simp
  unfold State.stands
  simp only [hpoints]

/-- R71, R72: the halt flag at the route setter. -/
theorem haltStops_signals : haltStopsTheSignals := by
  intro v s stands
  obtain ⟨f, hf, hexec, hshown⟩ := exec_routeHalt v s
  obtain ⟨⟨hkeeps, hclaims, -, hanswer⟩, hroute, hpoints, hdesc⟩ := routeHalt_taken (s := s) (v := v) hf
  refine ⟨_, hexec, hkeeps, hanswer, hclaims, fun hwf => ?_, hroute, fun n => ?_⟩
  · obtain ⟨⟨-, -, hnotes, -⟩, -⟩ := routeHalt_taken (s := s) (v := v) (posts_haltReportNotices v s)
    have hstands : stands = s.stands := funext fun p => (stands_eq s p).symm
    rw [hshown hwf, hstands]
    exact hnotes
  · rw [settle_route]
    refine mem_proceedSignals_iff.trans ?_
    unfold State.routeDef
    rw [hroute, hpoints, hdesc]

/-! ## A restart (R39, R47, R81) -/

/-- The path and flank points of an entry's route. -/
def State.entryPoints (s : State) (e : RouteEntry) : List Nat := ((s.routeDef e.route).map routePoints).getD []

theorem dropEntry_eq (s : State) (p : Nat × RouteEntry) : s.dropEntry p = s.unlockAll p.1 (s.entryPoints p.2) := by
  unfold State.dropEntry State.entryPoints
  cases s.routeDef p.2.route <;> rfl

theorem mem_unlockEnds (k : Nat) (pts : List Nat) (s : State) (n : Nat) :
    Instr.alarmConditionEnd (.pointLostUnderRoute n) ∈ unlockEnds k pts s ↔ n ∈ pts ∧ s.lossUnder k n = true := by
  simp [unlockEnds_eq]

theorem nodup_unlockEnds (k : Nat) (pts : List Nat) (s : State) : (unlockEnds k pts s).Nodup := by
  rw [unlockEnds_eq]
  refine List.Nodup.map (fun a b hab => ?_) ((nodup_eraseDups pts).filter _)
  simpa using hab

/-- An unlocking ends the loss conditions that it meets: they stand no more for the entries after it. -/
theorem lossUnder_freed {pts : List Nat} (h : PointsFreed slot pts s t) (k n : Nat) :
    t.lossUnder k n = (s.lossUnder k n && !decide (n ∈ pts ∧ s.lossUnder slot n = true)) := by
  unfold State.lossUnder
  rw [h n]
  cases Tbl.find n s.points with
  | none => rfl
  | some r =>
    by_cases hfreed : n ∈ pts ∧ r.lock = some slot
    · obtain ⟨hn, hl⟩ := hfreed
      cases hc : r.lossCondition <;> simp [hn, hl, hc]
    · by_cases hn : n ∈ pts
      · have hl : r.lock ≠ some slot := fun hl => hfreed ⟨hn, hl⟩
        simp [hn, hl]
      · simp [hn]

theorem unlockEnds_freed {pts : List Nat} (h : PointsFreed slot pts s t) (k : Nat) (pts' : List Nat) :
    (unlockEnds k pts' s).filter (fun c => !(unlockEnds slot pts s).elem c) = unlockEnds k pts' t := by
  rw [unlockEnds_eq k pts' s, unlockEnds_eq k pts' t, List.filter_map, List.filter_filter]
  congr 1
  refine List.filter_congr fun n _ => ?_
  have hsent : (unlockEnds slot pts s).elem (.alarmConditionEnd (.pointLostUnderRoute n)) =
      decide (n ∈ pts ∧ s.lossUnder slot n = true) := by
    rw [Bool.eq_iff_iff, List.elem_iff, mem_unlockEnds, decide_eq_true_iff]
  rw [lossUnder_freed h k n, Bool.and_comm, ← hsent]
  rfl

/-- What the unlocking of some entries' points sends: the end of each standing loss condition, once. -/
def unlockEndsOfAll (l : List (Nat × RouteEntry)) (s : State) : List Instr :=
  (l.flatMap (fun p => unlockEnds p.1 (s.entryPoints p.2) s)).eraseDups

/-- Whether a point's record shows it locked to one of some entries, as a point of that entry's own route. -/
def State.lockedByOne (s : State) (l : List (Nat × RouteEntry)) (n : Nat) (r : PointRec) : Bool :=
  l.any (fun p => r.lock = some p.1 && (s.entryPoints p.2).contains n)

/-- R81: the points of some entries are unlocked, entry by entry. -/
theorem dropEntries_spec (l : List (Nat × RouteEntry)) (s : State) :
    Does [.points] (unlockEndsOfAll l s) id s (l.foldl State.dropEntry s) ∧
    ∀ m, Tbl.find m (l.foldl State.dropEntry s).points = (Tbl.find m s.points).map (fun r =>
      if s.lockedByOne l m r then { r with lock := none, lossCondition := false } else r) := by
  induction l generalizing s with
  | nil =>
    exact ⟨(does_none s).mono (List.nil_subset _) (by simp), fun m => by simp [State.lockedByOne]⟩
  | cons p l ih =>
    obtain ⟨hone, hfreed⟩ := unlockAll_spec p.1 (s.entryPoints p.2) s
    obtain ⟨hrest, hpoints⟩ := ih (s.dropEntry p)
    rw [← dropEntry_eq] at hone hfreed
    have hroutes (e : RouteEntry) : (s.dropEntry p).entryPoints e = s.entryPoints e := by
      unfold State.entryPoints State.routeDef
      rw [hone.desc]
    have hends : unlockEndsOfAll (p :: l) s =
        unlockEnds p.1 (s.entryPoints p.2) s ++ unlockEndsOfAll l (s.dropEntry p) := by
      unfold unlockEndsOfAll
      rw [List.flatMap_cons, List.eraseDups_append, eraseDups_of_nodup (nodup_unlockEnds _ _ _)]
      unfold List.removeAll
      rw [List.filter_flatMap]
      simp only [hroutes, unlockEnds_freed hfreed]
    rw [hends]
    refine ⟨hone.trans hrest, fun m => ?_⟩
    rw [List.foldl_cons, hpoints m, hfreed m]
    cases Tbl.find m s.points with
    | none => rfl
    | some r =>
      have hlater (x : PointRec) : (s.dropEntry p).lockedByOne l m x = s.lockedByOne l m x := by
        unfold State.lockedByOne
        simp only [hroutes]
      have hfirst : s.lockedByOne (p :: l) m r =
          (decide (m ∈ s.entryPoints p.2 ∧ r.lock = some p.1) || s.lockedByOne l m r) := by
        unfold State.lockedByOne
        rw [List.any_cons, List.contains_eq_mem, Bool.decide_and, Bool.and_comm]
      simp only [Option.map_some, hlater, hfirst]
      by_cases hp : m ∈ s.entryPoints p.2 ∧ r.lock = some p.1
      · have hfree : s.lockedByOne l m { r with lock := none, lossCondition := false } = false := by simp [State.lockedByOne]
        simp [hp, hfree]
      · simp [hp]

theorem does_freeSections (s : State) : Does [.sections] [] id s s.freeSections := by
  refine does_silent ⟨rfl, rfl, fun x hx => ?_⟩ (by simp [State.freeSections]) (fun p => rfl) (by simp)
  cases x with
  | sections => exact absurd List.mem_cons_self hx
  | ports => exact fun p => rfl
  | _ => simp [Part.same, State.freeSections]

/-- R39, R47, R81, R190: a restart at the route setter. -/
theorem routeRestart_empties : routeRestartEmptiesTheTable := by
  intro s pointsOf ends
  obtain ⟨hdrop, hpoints⟩ := dropEntries_spec s.route.table (s.take .routeRestart)
  have hfree := does_freeSections (s.route.table.foldl State.dropEntry (s.take .routeRestart))
  have hclear := does_onRoute (s.route.table.foldl State.dropEntry (s.take .routeRestart)).freeSections
    (fun r => { r with table := [], store := [] })
  have hall := (((hdrop.inYard.thenUpdate hfree.inYard).thenUpdate hclear.inYard)).thenSends
    (does_send _ (.restartTakenReport .route))
  refine ⟨_, rfl, ?_, ?_, fun m => ?_, fun m => ?_⟩
  · rw [List.append_assoc]
    exact effect_take_does hall
  · change { (s.route.table.foldl State.dropEntry (s.take .routeRestart)).route with table := [], store := [] } = _
    rw [hdrop.route]
    rfl
  · refine (Tbl.find_map _ (fun _ (r : SectionRec) => { r with reservedBy := none }) m).trans ?_
    exact congrArg (fun t : Tbl SectionRec => (Tbl.find m t).map (fun r => { r with reservedBy := none })) hdrop.sections
  · exact hpoints m

/-- Settles O16: a report of the halt flag (`exec_routeHalt`), and a restart (`dropEntries_spec`). -/
theorem routeHaltAndRestart : Obligations.RouteHaltAndRestart := ⟨haltStops_signals, routeRestart_empties⟩

end

end Sys2Proof.Machine

/-! # An entry changed and shown, a cancellation, a resumption and a force release (05 sections 5.3, 5.4) -/

namespace Sys2Proof.Machine

section

variable {s t u : State} {slot n : Nat} {e x : RouteEntry} {d : RouteDef} {q : StoreEntry} {r : Req} {a : Ans}

/-! ## An entry changed and shown (R79) -/

theorem EntryPut.after (h : EntryPut slot x t u) (hr : t.route = s.route) : EntryPut slot x s u := by
  unfold EntryPut
  rw [← hr]
  exact h

/-- R79: an entry changes, and its ROUTE_STATE notice is posted. -/
theorem entryShown_spec (he : Tbl.find slot s.route.table = some e) (f : RouteEntry → RouteEntry) :
    let t := (s.onEntry slot f).postSlot slot
    Does [.routes] [] (routeNotice slot (f e) (f e).state.code (t.entryAspect (f e))) s t ∧ EntryPut slot (f e) s t := by
  have hpost := does_postSlot (find_onEntry he f)
  exact ⟨(does_onEntry s slot f).thenPosts hpost, (entryPut_onEntry he f).route hpost.route⟩

/-- An entry's event and its notice leave the route setter. -/
theorem route_eventShown (he : Tbl.find slot s.route.table = some e) (p : Progress) :
    ((s.slotEvent slot p).postSlot slot).route = s.route := by
  have hsend := (does_sendEvent s (entryEvent slot e p)).route
  rw [slotEvent_eq he]
  exact (does_postSlot (hsend ▸ he)).route.trans hsend

/-- R76, R79: an entry changes, its event is sent, and its ROUTE_STATE notice is posted. -/
theorem entryProgress_spec (he : Tbl.find slot s.route.table = some e) (f : RouteEntry → RouteEntry) (p : Progress) :
    let t := ((s.onEntry slot f).slotEvent slot p).postSlot slot
    Does [.routes] (eventClaims s (entryEvent slot (f e) p)) (routeNotice slot (f e) (f e).state.code (t.entryAspect (f e))) s t ∧
    EntryPut slot (f e) s t := by
  have hentry := does_onEntry s slot f
  have hfind := find_onEntry he f
  have hsend := does_sendEvent (s.onEntry slot f) (entryEvent slot (f e) p)
  rw [← slotEvent_eq hfind, eventClaims_congr hentry.desc] at hsend
  exact ⟨(hentry.thenSends hsend).thenPosts (does_postSlot (hsend.route ▸ hfind)),
    (entryPut_onEntry he f).route (route_eventShown hfind p)⟩

/-! ## A stored request leaves, and what follows a scan (R92, R100) -/

theorem releaseStored_eq (hd : s.routeDef q.route = some d) (m : CancelMode) : s.releaseStored q m =
    (s.leaveStore q d .cancelled (cancelNotice none q.route q.owner q.purpose m.code)).scan := by
  have hkind : ((s.routeDef q.route).map RouteDef.kind).getD .yard = d.kind := by rw [hd]; rfl
  unfold State.releaseStored
  simp only [hkind]
  rfl

/-- A stored request that leaves in the taking of a claim. -/
theorem storedLeaves_take (q : StoreEntry) (d : RouteDef) (m : CancelMode) (c : Instr) :
    StoredLeaves (s.claims.erase c) q d m.code s
      ((s.take c).leaveStore q d .cancelled (cancelNotice none q.route q.owner q.purpose m.code)) := by
  obtain ⟨hdoes, hroute⟩ := leaveStore_spec q d .cancelled (posts_cancelNotice none q.route q.owner q.purpose m.code) (s.take c)
  exact ⟨effect_take_does hdoes, hroute⟩

/-- The request stored for a route is of that route. -/
theorem stored_route (h : s.stored n = some q) : q.route = n := by simpa using List.find?_some h

/-- An answer, and nothing else. -/
theorem effect_replyAlone (s : State) (k : Kind) (r : Req) (a : Ans) :
    Effect [] s.claims id (some (k, r, a)) s (s.reply k r a) := effect_reply k r a (effect_none s [])

/-! ## The cancellation of an entry, by its state (R92–R95) -/

/-- R93: an entry whose cancellation waits for the time-release timer. -/
def RouteEntry.awaitRelease (seconds : Nat) (e : RouteEntry) : RouteEntry :=
  { e with state := .timeRelease, timer := some (seconds * 1000) }

/-- R93, R94: the answer about an entry that a cancellation leaves as it stands. -/
def RouteEntry.uncancelled (e : RouteEntry) : Ans :=
  if e.state = .occupied then .refused .inUse
  else if e.state = .degraded then .refused .wrongState [.u8 e.causes.byte]
  else .accepted [(e.timer.map secondsLeft).getD (.u8 0)]

theorem cancelEntry_eq (hd : s.routeDef e.route = some d) (slot : Nat) : s.cancelEntry slot e =
    let near : Bool := d.approach.any (fun x => !s.isClear x)
    if e.state = .setting ∨ (e.state = .proceed ∧ near = false) then (s.releaseEntry slot e .cancelled .cancel, .done)
    else if e.state = .proceed then
      ((s.onEntry slot (RouteEntry.awaitRelease s.param.timeRelease)).postSlot slot, .accepted [.u8 s.param.timeRelease])
    else (s, e.uncancelled) := by
  unfold State.cancelEntry RouteEntry.uncancelled
  rw [hd, Option.bind_some]
  cases hstate : e.state with
  | proceed => cases d.approach.any (fun x => !s.isClear x) <;> rfl
  | _ => simp

/-- R92–R95: the cancellation of an entry, in the words of the statements. -/
theorem entryCancelled_take (he : Tbl.find slot s.route.table = some e) (hd : s.routeDef e.route = some d) (c : Instr) :
    EntryCancelled (s.claims.erase c) slot e d s ((s.take c).cancelEntry slot e).1 ((s.take c).cancelEntry slot e).2 := by
  have hnear : (fun x => !(s.take c).isClear x) = fun x => !s.isClear x := rfl
  rw [cancelEntry_eq (s := s.take c) hd, hnear]
  unfold EntryCancelled
  dsimp only
  by_cases hleaves : e.state = .setting ∨ (e.state = .proceed ∧ d.approach.any (fun x => !s.isClear x) = false)
  · rw [if_pos hleaves, if_pos hleaves]
    exact ⟨rfl, _, entryLeaves_take hd (posts_cancelNotice (some slot) e.route e.owner e.purpose 1) c, releaseEntry_eq _ _ _ _ _⟩
  rw [if_neg hleaves, if_neg hleaves]
  by_cases hproceed : e.state = .proceed
  · rw [if_pos hproceed, if_pos hproceed]
    obtain ⟨hdoes, hput⟩ := entryShown_spec (s := s.take c) he (RouteEntry.awaitRelease s.param.timeRelease)
    exact ⟨rfl, effect_take_update hdoes, hput⟩
  · rw [if_neg hproceed, if_neg hproceed]
    exact ⟨rfl, effect_take s c []⟩

/-! ## ROUTE_CANCEL (R91–R95) -/

/-- R91: whose entries a port may cancel. -/
theorem mayCancel_eq (p : Port) (o : Owner) : mayCancel p o = (decide (p = .desk) || decide (o = portOwner p)) := by
  cases p <;> cases o <;> rfl

theorem cancelRoute_inTable {check : Owner → Purpose → Bool} (h : s.active n = some (slot, e)) :
    s.cancelRoute n check = if check e.owner e.purpose then s.cancelEntry slot e else (s, .refused .notPermitted) := by
  unfold State.cancelRoute
  rw [h]

theorem cancelRoute_inStore {check : Owner → Purpose → Bool} (h : s.active n = none) (hq : s.stored n = some q) :
    s.cancelRoute n check = if check q.owner q.purpose then (s.releaseStored q .cancel, .done) else (s, .refused .notPermitted) := by
  unfold State.cancelRoute
  rw [h, hq]

theorem cancelRoute_nowhere {check : Owner → Purpose → Bool} (h : s.active n = none) (hq : s.stored n = none) :
    s.cancelRoute n check = (s, noEntry) := by
  unfold State.cancelRoute
  rw [h, hq]

/-- R91: ROUTE_CANCEL of a catalogue route in RUN answers what its cancellation comes to. -/
theorem exec_routeCancel (ho : InRun r s) (hd : Tbl.find n s.desc.routes = some d)
    (h : (s.take (.routeCancel r n)).cancelRoute n (fun o _ => mayCancel r.port o) = (u, a)) :
    exec (.routeCancel r n) s = .next (u.reply .routeCancel r a).settle := by
  have hpermits : Kind.routeCancel.permits r.port = true := by cases r.port <;> rfl
  have hroute : (s.take (.routeCancel r n)).routeDef n = some d := hd
  have htake : takeRouteCancel r.port n (s.take (.routeCancel r n)) = (u, a) := by
    unfold takeRouteCancel
    rw [hroute, ← h]
    simp only [mayCancel_eq]
  refine (takeRequest_run (i := .routeCancel r n) hpermits rfl rfl ho rfl (takeRouteCancel r.port n)).trans ?_
  rw [htake]
  rfl

/-- R91–R95: a cancellation of an entry in the table. -/
theorem cancel_byState : cancelByState := by
  intro r n slot e d s ho ha he hd hn left
  subst hn
  have hcancel := cancelRoute_inTable (s := s.take (.routeCancel r e.route)) (check := fun o _ => mayCancel r.port o) ha
  refine ⟨fun hno => ?_, fun hmay => ?_⟩
  · rw [hno] at hcancel
    exact ⟨_, exec_routeCancel ho hd hcancel, effect_answer s _ _ _ _ _⟩
  · rw [hmay] at hcancel
    exact ⟨_, _, _, exec_routeCancel ho hd hcancel, entryCancelled_take he hd _, effect_replyAlone _ _ _ _⟩

/-- R91, R92: a cancellation of a route that is not in the table. -/
theorem cancel_ofStoredRoute : cancelOfStoredRoute := by
  intro r n d s ho hd ha left refused
  have hrefused {w : Reason} {fs : List Field}
      (h : (s.take (.routeCancel r n)).cancelRoute n (fun o _ => mayCancel r.port o) = (s.take (.routeCancel r n), .refused w fs)) :
      refused w fs := ⟨_, exec_routeCancel ho hd h, effect_answer s _ _ _ _ _⟩
  have hcancel (q : StoreEntry) (hq : s.stored n = some q) :=
    cancelRoute_inStore (s := s.take (.routeCancel r n)) (check := fun o _ => mayCancel r.port o) ha hq
  refine ⟨fun hnone => hrefused (cancelRoute_nowhere ha hnone), fun q hq hno => ?_, fun q hq hmay => ?_⟩
  · have hcancel := hcancel q hq
    rw [hno] at hcancel
    exact hrefused hcancel
  · have hcancel := hcancel q hq
    obtain rfl := stored_route hq
    rw [hmay, if_pos rfl, releaseStored_eq (s := s.take (.routeCancel r q.route)) hd] at hcancel
    exact ⟨_, storedLeaves_take q d .cancel _, _, exec_routeCancel ho hd hcancel, effect_replyAlone _ _ _ _⟩

/-- Settles O10: an entry by its state (`entryCancelled_take`), and a stored request (`storedLeaves_take`). -/
theorem routeCancel : Obligations.RouteCancel := ⟨cancel_byState, cancel_ofStoredRoute⟩

/-! ## ROUTE_FORCE_RELEASE (R100) -/

/-- R100: ROUTE_FORCE_RELEASE of a catalogue route in RUN. -/
theorem exec_routeForceRelease (hr : r.port = .desk) (ho : InRun r s)
    (h : takeForceRelease n (s.take (.routeForceRelease r n)) = (u, a)) :
    exec (.routeForceRelease r n) s = .next (u.reply .routeForceRelease r a).settle := by
  refine (takeRequest_run (by rw [hr]; rfl) rfl rfl ho rfl (takeForceRelease n)).trans ?_
  rw [h]
  rfl

theorem takeForceRelease_inTable (hd : s.routeDef n = some d) (h : s.active n = some (slot, e)) : takeForceRelease n s =
    (s.releaseEntry slot e (if e.front = 0 then .cancelled else .forceReleased) .force, .done) := by
  unfold takeForceRelease
  simp only [hd, h]

theorem takeForceRelease_inStore (hd : s.routeDef n = some d) (h : s.active n = none) (hq : s.stored n = some q) :
    takeForceRelease n s = (s.releaseStored q .force, .done) := by
  unfold takeForceRelease
  simp only [hd, h, hq]

theorem takeForceRelease_nowhere (hd : s.routeDef n = some d) (h : s.active n = none) (hq : s.stored n = none) :
    takeForceRelease n s = (s, noEntry) := by
  unfold takeForceRelease
  simp only [hd, h, hq]

/-- R100: a force release, by where the route stands. -/
theorem forceRelease_ends : forceReleaseEndsARoute := by
  intro r n d s hr ho hd left scans
  have hroute : (s.take (.routeForceRelease r n)).routeDef n = some d := hd
  have hscans {t : State} (h : takeForceRelease n (s.take (.routeForceRelease r n)) = (t.scan, .done)) : scans t :=
    ⟨_, exec_routeForceRelease hr ho h, effect_replyAlone _ _ _ _⟩
  refine ⟨fun slot e ha he hn => ?_, fun q ha hq => ?_, fun ha hq => ?_⟩
  · subst hn
    have htake := takeForceRelease_inTable hroute ha
    rw [releaseEntry_eq] at htake
    exact ⟨_, entryLeaves_take hd (posts_cancelNotice (some slot) e.route e.owner e.purpose 3) _, hscans htake⟩
  · obtain rfl := stored_route hq
    have htake := takeForceRelease_inStore hroute ha hq
    rw [releaseStored_eq hroute] at htake
    exact ⟨_, storedLeaves_take q d .force _, hscans htake⟩
  · exact ⟨_, exec_routeForceRelease hr ho (takeForceRelease_nowhere hroute ha hq), effect_answer s _ _ _ _ _⟩

/-! ## ROUTE_RESUME (R99) -/

/-- R99: ROUTE_RESUME in RUN. -/
theorem exec_routeResume (hr : r.port = .desk) (ho : InRun r s) (h : takeRouteResume n (s.take (.routeResume r n)) = (u, a)) :
    exec (.routeResume r n) s = .next (u.reply .routeResume r a).settle := by
  refine (takeRequest_run (by rw [hr]; rfl) rfl rfl ho rfl (takeRouteResume n)).trans ?_
  rw [h]
  rfl

/-- R66, R71: the points of a route stand for a slot, read off their records. -/
theorem pointsStand_all (s : State) (slot : Nat) (d : RouteDef) : s.pointsStand slot d = d.points.all (fun p =>
    (Tbl.find p.1 s.points).any (fun r => r.lock = some slot && r.state = (if p.2 = .normal then .normal else .reverse))) := by
  rw [Bool.eq_iff_iff, pointsStand_iff, List.all_eq_true]
  refine forall₂_congr fun p _ => ?_
  cases Tbl.find p.1 s.points <;> simp [posState_eq]

/-- R99: a DEGRADED entry with the causes that still stand. -/
def RouteEntry.resume (left : Causes) (e : RouteEntry) : RouteEntry :=
  { e with
    causes := left
    state := if left.isEmpty then if e.front = 0 then .proceed else .occupied else .degraded }

/-- R99: the answer to a resumption that leaves these causes. -/
def resumeAnswer (left : Causes) : Ans := if left.isEmpty then .done else .refused .wrongState [.u8 left.byte]

/-- R99: the event of a resumption that leaves these causes. -/
def resumeClaims (slot : Nat) (e : RouteEntry) (left : Causes) (s : State) : List Instr :=
  if left.isEmpty ∧ e.front = 0 then eventClaims s (entryEvent slot e .proceed) else []

/-- R99: the notice of a resumption that leaves these causes, with the aspect of the entry's signal. -/
def resumeNotice (slot : Nat) (e : RouteEntry) (left : Causes) (proceed : Bool) (s : State) : State :=
  if e.resume left = e then s else routeNotice slot (e.resume left) (e.resume left).state.code proceed s

/-- R99: the resumption of a DEGRADED entry, by the causes that are left. -/
theorem takeRouteResume_degraded (he : Tbl.find slot s.route.table = some e) (hd : s.routeDef n = some d)
    (ha : s.active n = some (slot, e)) (hdeg : e.state = .degraded) :
    let left := s.causesLeft slot e d
    ∃ t, takeRouteResume n s = (t, resumeAnswer left) ∧ EntryPut slot (e.resume left) s t ∧
      Does [.routes] (resumeClaims slot e left s) (resumeNotice slot e left (t.entryAspect (e.resume left))) s t := by
  dsimp only
  unfold takeRouteResume resumeAnswer resumeClaims resumeNotice
  simp only [hd, ha, hdeg, ne_eq, not_true_eq_false, if_false]
  generalize s.causesLeft slot e d = left
  cases hempty : left.isEmpty with
  | true =>
    have hchanged : e.resume left ≠ e := fun h => by
      have hstate := congrArg RouteEntry.state h
      by_cases hfront : e.front = 0 <;> simp [RouteEntry.resume, hempty, hfront, hdeg] at hstate
    simp only [if_neg hchanged, if_true, true_and]
    have hresume : (fun x : RouteEntry => { x with causes := left, state := if x.front = 0 then .proceed else .occupied }) =
        RouteEntry.resume left := funext fun x => by simp [RouteEntry.resume, hempty]
    rw [hresume]
    by_cases hfront : e.front = 0
    · simp only [if_pos hfront]
      obtain ⟨hdoes, hput⟩ := entryProgress_spec he (RouteEntry.resume left) .proceed
      exact ⟨_, rfl, hput, hdoes⟩
    · simp only [if_neg hfront]
      obtain ⟨hdoes, hput⟩ := entryShown_spec he (RouteEntry.resume left)
      exact ⟨_, rfl, hput, hdoes⟩
  | false =>
    have hresume : e.resume left = { e with causes := left } := by simp [RouteEntry.resume, hempty, ← hdeg]
    have hsame : e.resume left = e ↔ left = e.causes := by
      rw [hresume]
      exact ⟨fun h => congrArg RouteEntry.causes h, fun h => by rw [h]⟩
    simp only [hsame, Bool.false_eq_true, if_false, false_and]
    refine ⟨_, rfl, ?_⟩
    by_cases hleft : left = e.causes
    · simp only [if_pos hleft]
      rw [hsame.mpr hleft]
      exact ⟨entryPut_same he, (does_none s).mono (List.nil_subset _) (by simp)⟩
    · simp only [if_neg hleft]
      rw [hresume]
      obtain ⟨hdoes, hput⟩ := entryShown_spec he (fun x => { x with causes := left })
      exact ⟨hput, hdoes⟩

theorem takeRouteResume_other (hd : s.routeDef n = some d) (h : ∀ slot e, s.active n = some (slot, e) → e.state ≠ .degraded) :
    takeRouteResume n s = (s, .refused .wrongState) := by
  unfold takeRouteResume
  rw [hd]
  dsimp only
  cases ha : s.active n with
  | none => rfl
  | some p => exact if_pos (h p.1 p.2 ha)

/-- R99: a resumption of a DEGRADED entry, and of any other route. -/
theorem resume_tests : resumeTestsTheCauses := by
  refine ⟨fun r n slot e d s hr ho ha he hd hn hdeg => ?_, fun r n d s hr ho hd h => ?_⟩
  · intro stand ahead left free x
    obtain ⟨t, htake, hput, hdoes⟩ := takeRouteResume_degraded (s := s.take (.routeResume r n)) he hd ha hdeg
    have hleft : (s.take (.routeResume r n)).causesLeft slot e d = left := by
      unfold State.causesLeft
      rw [pointsStand_all]
      rfl
    rw [hleft] at htake hput hdoes
    refine ⟨_, exec_routeResume hr ho htake, ?_, ?_⟩
    · rw [entryAspect_reply]
      exact effect_reply _ _ _ (effect_take_does hdoes)
    · rw [State.reply_route]
      exact hput
  · exact ⟨_, exec_routeResume hr ho (takeRouteResume_other (s := s.take (.routeResume r n)) hd h), effect_answer s _ _ _ _ _⟩

/-- Settles O11: the causes that a resumption leaves (`takeRouteResume_degraded`), and a force release by where the route stands. -/
theorem resumeAndForceRelease : Obligations.ResumeAndForceRelease := ⟨resume_tests, forceRelease_ends⟩

end

end Sys2Proof.Machine

/-! # OCCUPY edges on the path of a route (05 section 5.1) -/

namespace Sys2Proof.Machine

section

variable {s t u : State} {slot n i : Nat} {e x : RouteEntry} {d : RouteDef} {c : EdgeCause} {f : RouteEntry → RouteEntry}

/-- R83–R86: an OCCUPY edge on an element of an entry. -/
theorem exec_occupyEdge (h : s.elementAt n = some (slot, e, d, i)) (c : EdgeCause) :
    exec (.routeOccupyEdge n c) s = .next ((s.take (.routeOccupyEdge n c)).takeOccupy slot e d i n).settle := by
  have hat : (s.take (.routeOccupyEdge n c)).elementAt n = some (slot, e, d, i) := h
  simp only [exec, execRouteOccupyEdge, hat]
  rfl

/-! ## An occupation in order, and an unexpected one (R83, R85, R86) -/

theorem does_raise (s : State) (a : Alarm) : Does [] [.alarmRaise a] id s (s.raise a) := does_send s _

/-- R97: an entry with an unexpected occupation. -/
theorem degrade_unexpected (e : RouteEntry) : e.degrade .ofUnexpected =
    { e with state := .degraded, causes := { e.causes with unexpected := true }, withheld := [], timer := none } := by
  simp [RouteEntry.degrade, Causes.union, Causes.ofUnexpected]

/-- R85, R86: an unexpected occupation degrades the entry and raises its alarm. -/
theorem unexpected_spec (he : Tbl.find slot s.route.table = some e) (n : Nat) :
    let worse := e.degrade .ofUnexpected
    let t := s.unexpected slot e n
    Does [.routes] [.alarmRaise (.unroutedOccupancy n)] (degradedNotices slot e worse 2 (t.entryAspect worse)) s t ∧
    EntryPut slot worse s t := by
  obtain ⟨hdoes, hput⟩ := goDegraded_spec he .ofUnexpected .unexpected
  exact ⟨hdoes.thenSends (does_raise _ _), hput⟩

theorem takeOccupy_enters (hfront : e.front = 0) (hstate : e.state = .proceed) (hhalt : s.route.halt = false) :
    s.takeOccupy slot e d 1 n = s.enterRoute slot := by
  simp only [State.takeOccupy, hfront, hstate, hhalt, and_self, if_true]

theorem takeOccupy_passes (hfront : e.front = 0) (h : e.state ≠ .proceed ∨ s.route.halt = true) :
    s.takeOccupy slot e d 1 n = s.passAtStop slot e d := by
  have hstop : ¬(e.state = .proceed ∧ s.route.halt = false) := fun ⟨hstate, hhalt⟩ =>
    h.elim (fun hne => hne hstate) (fun hset => by simp [hhalt] at hset)
  simp only [State.takeOccupy, hfront, if_true, if_neg hstop]

theorem takeOccupy_advances (hfront : 1 ≤ e.front) :
    s.takeOccupy slot e d (e.front + 1) n = (s.onEntry slot (fun x => { x with front := e.front + 1 })).postSlot slot := by
  have hin : e.front ≠ 0 := by omega
  simp only [State.takeOccupy, if_neg hin, if_true]

theorem takeOccupy_alone (hfront : e.front = 0) (hi : 2 ≤ i) (hstate : e.state = .setting) :
    s.takeOccupy slot e d i n = s.raise (.unroutedOccupancy n) := by
  have hlater : i ≠ 1 := by omega
  simp only [State.takeOccupy, hfront, hstate, if_true, if_neg hlater]

theorem takeOccupy_unexpected (h : (e.front = 0 ∧ 2 ≤ i ∧ e.state ≠ .setting) ∨
    (1 ≤ e.front ∧ (e.front + 1 < i ∨ (i ≤ e.front ∧ e.irregular.contains i = true)))) :
    s.takeOccupy slot e d i n = s.unexpected slot e n := by
  unfold State.takeOccupy
  rcases h with ⟨hfront, hi, hstate⟩ | ⟨hfront, hlater | ⟨hbehind, hirregular⟩⟩
  · have hlater : i ≠ 1 := by omega
    rw [if_pos hfront, if_neg hlater, if_neg hstate]
  · have hin : e.front ≠ 0 := by omega
    have hnext : i ≠ e.front + 1 := by omega
    rw [if_neg hin, if_neg hnext, if_pos hlater]
  · have hin : e.front ≠ 0 := by omega
    have hnext : i ≠ e.front + 1 := by omega
    have hlater : ¬e.front + 1 < i := by omega
    rw [if_neg hin, if_neg hnext, if_neg hlater, if_pos hirregular]

theorem takeOccupy_behind (hi : 1 ≤ i) (hfront : i ≤ e.front) (hregular : e.irregular.contains i = false) :
    s.takeOccupy slot e d i n = s := by
  have hin : e.front ≠ 0 := by omega
  have hnext : i ≠ e.front + 1 := by omega
  have hlater : ¬e.front + 1 < i := by omega
  unfold State.takeOccupy
  rw [if_neg hin, if_neg hnext, if_neg hlater, hregular]
  rfl

/-- R83, R85, R86: an OCCUPY edge by the place of its element and the tram's front. -/
theorem tram_advances : tramAdvancesOnItsRoute := by
  intro n slot i c e d s hat he entered worse left
  have hexec := exec_occupyEdge hat c
  refine ⟨fun hfront hi hstate hhalt => ?_, fun hfront hi => ?_, fun hfront hi hstate => ?_, fun h => ?_, fun hi hfront hregular => ?_⟩
  · subst hi
    rw [takeOccupy_enters (s := s.take _) hfront hstate hhalt] at hexec
    obtain ⟨hdoes, hput⟩ := entryProgress_spec (s := s.take (.routeOccupyEdge n c)) he
      (fun x => { x.enter with state := .occupied }) .firstEntered
    exact ⟨_, hexec, effect_take_does hdoes, hput⟩
  · subst hi
    rw [takeOccupy_advances hfront] at hexec
    obtain ⟨hdoes, hput⟩ := entryShown_spec (s := s.take (.routeOccupyEdge n c)) he (fun x => { x with front := e.front + 1 })
    exact ⟨_, hexec, effect_take_update hdoes, hput⟩
  · rw [takeOccupy_alone hfront hi hstate] at hexec
    exact ⟨_, hexec, effect_take_does (does_raise _ _)⟩
  · rw [takeOccupy_unexpected h] at hexec
    obtain ⟨hdoes, hput⟩ := unexpected_spec (s := s.take (.routeOccupyEdge n c)) he n
    rw [degrade_unexpected] at hdoes hput
    exact ⟨_, hexec, effect_take_does hdoes, hput⟩
  · rw [takeOccupy_behind hi hfront hregular] at hexec
    exact ⟨_, hexec, effect_take s _ []⟩

/-! ## A passage at stop (R84) -/

/-- R71: the signals depend on no entry that is not in PROCEED, before its change and after it. -/
theorem entryAspect_onEntry (h : ∀ y, (slot, y) ∈ s.route.table → y.state ≠ .proceed) (hf : ∀ y, (f y).state ≠ .proceed)
    (x : RouteEntry) : (s.onEntry slot f).entryAspect x = s.entryAspect x := by
  have haspect (m : Nat) : (s.onEntry slot f).aspect m = s.aspect m := by
    have hclears (p : Nat × RouteEntry) : (s.onEntry slot f).clears m p ↔ s.clears m p := Iff.rfl
    rw [Bool.eq_iff_iff, aspect_iff, aspect_iff, State.onEntry_route]
    refine and_congr_right fun _ => ?_
    simp only [hclears, Tbl.adjust, List.mem_map]
    refine ⟨fun ⟨p, ⟨y, hy, hp⟩, hclear⟩ => ?_, fun ⟨p, hp, hclear⟩ => ⟨p, ⟨p, hp, if_neg fun hslot => ?_⟩, hclear⟩⟩
    · by_cases hslot : y.1 = slot
      · rw [if_pos hslot] at hp
        subst hp
        exact absurd hclear.1 (hf _)
      · rw [if_neg hslot] at hp
        subst hp
        exact ⟨y, hy, hclear⟩
    · subst hslot
      exact h p.2 hp hclear.1
  unfold State.entryAspect
  simp only [haspect]
  rfl

theorem posts_overtaken (slot : Nat) (e : RouteEntry) (claim : OvertakeClaim) : Posts (State.overtaken slot e claim) :=
  Posts.ite (fun _ => posts_one _ _ _) fun _ => .none

/-- R71, R97: an entry that is degraded from a state other than PROCEED changes no signal. -/
theorem entryAspect_goDegraded (he : Tbl.find slot s.route.table = some e)
    (h : ∀ y, (slot, y) ∈ s.route.table → y.state ≠ .proceed) (k : Causes) (claim : OvertakeClaim) (x : RouteEntry) :
    (s.goDegraded slot e k claim).entryAspect x = s.entryAspect x := by
  unfold State.goDegraded
  split
  · rfl
  · have hpost := posts_routeNotice slot (e.degrade k) (e.degrade k).state.code
      ((s.onEntry slot (RouteEntry.degrade k)).entryAspect (e.degrade k))
    rw [postSlot_eq (find_onEntry he _), entryAspect_of_bare (((posts_overtaken slot e claim).bare _).trans (hpost.bare _))]
    exact entryAspect_onEntry h (fun y => by simp [RouteEntry.degrade]) x

/-- R84: what a passage leaves of its entry. -/
theorem passed_eq (s : State) (e : RouteEntry) (d : RouteDef) :
    s.passed e d = passedEntry (d.points.all (fun p => s.detected p.1 p.2)) e := by
  have hdegrade (lost : Bool) : e.enter.degrade ⟨lost, false, true⟩ = { e.enter with
      state := .degraded, causes := ⟨e.causes.pointLost || lost, e.causes.irregular, true⟩, withheld := [], timer := none } := by
    simp [RouteEntry.degrade, Causes.union, RouteEntry.enter]
  unfold State.passed passedEntry
  generalize d.points.all (fun p => s.detected p.1 p.2) = set
  cases e.state with
  | setting =>
    cases set with
    | true => rfl
    | false => exact hdegrade true
  | degraded => exact hdegrade false
  | _ => rfl

theorem passedEntry_state (set : Bool) (e : RouteEntry) : (passedEntry set e).state =
    if e.state = .degraded ∨ (e.state = .setting ∧ set = false) then .degraded else .occupied := by
  unfold passedEntry
  cases e.state <;> cases set <;> rfl

/-- R84: the passage: the alarm, the tram's entry on the route, and the end of a cancellation that waited. -/
def State.passage (slot : Nat) (e y : RouteEntry) (origin : Nat) (s : State) : State :=
  ((((s.raise (.passedAtStop origin)).onEntry slot (fun _ => y)).slotEvent slot .firstEntered).postSlot slot).overtaken slot e .entry

theorem passage_spec (he : Tbl.find slot s.route.table = some e) (y : RouteEntry) (origin : Nat) :
    let t := s.passage slot e y origin
    Does [.routes] ([.alarmRaise (.passedAtStop origin)] ++ eventClaims s (entryEvent slot y .firstEntered))
      (fun v => (routeNotice slot y y.state.code (t.entryAspect y) v).overtaken slot e .entry) s t ∧
    EntryPut slot y s t ∧ ∀ z, (slot, z) ∈ t.route.table → z = y := by
  have hraise := does_raise s (.passedAtStop origin)
  obtain ⟨hprogress, hput⟩ := entryProgress_spec (s := s.raise (.passedAtStop origin)) he (fun _ => y) .firstEntered
  have hover := posts_overtaken slot e .entry
  have hdoes := ((hraise.mono (List.nil_subset _) hprogress.yard).trans hprogress).thenPosts (does_posts hover _)
  rw [← entryAspect_of_bare (hover.bare _)] at hdoes
  refine ⟨hdoes, hput.route (does_posts hover _).route, fun z hz => ?_⟩
  have hroute : (s.passage slot e y origin).route = ((s.raise (.passedAtStop origin)).onEntry slot (fun _ => y)).route :=
    (does_posts hover _).route.trans (route_eventShown (find_onEntry (s := s.raise (.passedAtStop origin)) he _) _)
  rw [hroute, State.onEntry_route] at hz
  obtain ⟨p, -, hp⟩ := List.mem_map.mp hz
  split at hp
  · exact (Prod.mk.inj hp).2.symm
  · next hslot => exact absurd (congrArg Prod.fst hp) hslot

theorem passAtStop_eq (he : Tbl.find slot s.route.table = some e) (d : RouteDef) : s.passAtStop slot e d =
    let y := s.passed e d
    if e.state = .setting ∧ y.state = .occupied ∧ (d.sections.drop 2).any s.isOccupied = true then
      (s.passage slot e y d.origin).goDegraded slot y .ofUnexpected .unexpected
    else s.passage slot e y d.origin := by
  obtain ⟨hdoes, ⟨hput, -⟩, -⟩ := passage_spec he (s.passed e d) d.origin
  have hfind : Tbl.find slot (s.passage slot e (s.passed e d) d.origin).route.table = some (s.passed e d) :=
    (hput slot).trans (if_pos rfl)
  have hsections : (s.passage slot e (s.passed e d) d.origin).isOccupied = s.isOccupied := funext fun m => by
    unfold State.isOccupied
    rw [hdoes.sections]
  dsimp only
  rw [← hsections]
  change (match Tbl.find slot (s.passage slot e (s.passed e d) d.origin).route.table with | some x => _ | none => _) = _
  rw [hfind]
  rfl

/-- R84: an entry passed in SETTING, whose points stand, is degraded as the statement says it. -/
theorem degrade_passedEntry (h : e.state = .setting) : (passedEntry true e).degrade .ofUnexpected =
    { passedEntry true e with
      state := .degraded, causes := { (passedEntry true e).causes with unexpected := true }, timer := none } := by
  rw [degrade_unexpected]
  simp [passedEntry, h]

/-- R84: the entry that a passage leaves strays on occupied ground where its points stood and a section beyond the second is
occupied. -/
theorem strays_iff (set : Bool) (e : RouteEntry) (d : RouteDef) (s : State) :
    (decide (e.state = .setting) && set && (d.sections.drop 2).any s.isOccupied) = true ↔
      e.state = .setting ∧ (passedEntry set e).state = .occupied ∧ (d.sections.drop 2).any s.isOccupied = true := by
  rw [passedEntry_state, Bool.and_eq_true, Bool.and_eq_true, decide_eq_true_iff, and_assoc]
  refine and_congr_right fun hsetting => and_congr_left fun _ => ?_
  cases set <;> simp [hsetting]

/-- R97: the notices of an OCCUPIED entry that is degraded. -/
theorem degradedNotices_occupied (h : e.state = .occupied) (slot : Nat) (k : Causes) (claim : Nat) (b : Bool) :
    degradedNotices slot e (e.degrade k) claim b = routeNotice slot (e.degrade k) 5 b := by
  have hchanged : e.degrade k ≠ e := fun heq => by simpa [RouteEntry.degrade, h] using congrArg RouteEntry.state heq
  have htime : e.state ≠ .timeRelease := by simp [h]
  funext v
  exact (if_neg hchanged).trans (if_neg htime)

/-- Two changes in a row of one entry. -/
theorem EntryPut.trans {y : RouteEntry} (h : EntryPut slot y s t) (h' : EntryPut slot x t u) : EntryPut slot x s u := by
  obtain ⟨hput, hstore, hhalt⟩ := h
  obtain ⟨hput', hstore', hhalt'⟩ := h'
  refine ⟨fun k => (hput' k).trans ?_, hstore'.trans hstore, hhalt'.trans hhalt⟩
  by_cases hk : k = slot
  · rw [if_pos hk, if_pos hk]
  · rw [if_neg hk, if_neg hk, hput k, if_neg hk]

/-- R84: a passage that leaves its entry OCCUPIED on occupied ground: the entry is degraded at once, and shown a second time. -/
theorem passage_strays (he : Tbl.find slot s.route.table = some e) {y : RouteEntry} (hy : y.state = .occupied) (origin : Nat) :
    let x := y.degrade .ofUnexpected
    let t := (s.passage slot e y origin).goDegraded slot y .ofUnexpected .unexpected
    Does [.routes] ([.alarmRaise (.passedAtStop origin)] ++ eventClaims s (entryEvent slot y .firstEntered))
      (fun v => routeNotice slot x 5 (t.entryAspect x)
        ((routeNotice slot y y.state.code (t.entryAspect y) v).overtaken slot e .entry)) s t ∧
    EntryPut slot x s t := by
  obtain ⟨hpassage, hput, hslot⟩ := passage_spec he y origin
  have hfind : Tbl.find slot (s.passage slot e y origin).route.table = some y := (hput.1 slot).trans (if_pos rfl)
  obtain ⟨hdegrade, hput'⟩ := goDegraded_spec hfind .ofUnexpected .unexpected
  rw [degradedNotices_occupied hy] at hdegrade
  have hstopped : ∀ z, (slot, z) ∈ (s.passage slot e y origin).route.table → z.state ≠ .proceed := fun z hz => by
    rw [hslot z hz, hy]
    nofun
  rw [← entryAspect_goDegraded hfind hstopped .ofUnexpected .unexpected y] at hpassage
  have hdoes := hpassage.trans hdegrade
  rw [List.append_nil] at hdoes
  exact ⟨hdoes, hput.trans hput'⟩

/-- R84: a passage of the origin signal at stop, by the state of the entry and what stands beyond the second section. -/
theorem passage_atStop : passageAtStop := by
  intro n slot c e d s hat he hfront hstop
  dsimp only
  have hexec := exec_occupyEdge hat c
  have hoccupied : (s.take (.routeOccupyEdge n c)).isOccupied = s.isOccupied := rfl
  rw [takeOccupy_passes (s := s.take _) hfront hstop, passAtStop_eq (s := s.take _) he d, passed_eq] at hexec
  simp only [← strays_iff, State.take_detected, hoccupied] at hexec
  rw [List.append_assoc]
  cases hastray : decide (e.state = .setting) && d.points.all (fun p => s.detected p.1 p.2) && (d.sections.drop 2).any s.isOccupied with
  | false =>
    obtain ⟨hdoes, hput, -⟩ := passage_spec (s := s.take (.routeOccupyEdge n c)) he
      (passedEntry (d.points.all (fun p => s.detected p.1 p.2)) e) d.origin
    rw [hastray] at hexec
    exact ⟨_, hexec, effect_take_does hdoes, hput⟩
  | true =>
    obtain ⟨hsetting, hoccupies, -⟩ := (strays_iff _ e d s).mp hastray
    have hset : d.points.all (fun p => s.detected p.1 p.2) = true := by
      obtain ⟨hset, -⟩ := Bool.and_eq_true_iff.mp hastray
      exact (Bool.and_eq_true_iff.mp hset).2
    rw [hastray, hset] at hexec
    rw [hset] at hoccupies ⊢
    obtain ⟨hdoes, hput⟩ := passage_strays (s := s.take (.routeOccupyEdge n c)) he hoccupies d.origin
    rw [degrade_passedEntry hsetting] at hdoes hput
    exact ⟨_, hexec, effect_take_does hdoes, hput⟩

/-- Settles O13: an edge by its element and the tram's front (`tram_advances`), and a passage at stop (`passage_spec`). -/
theorem tramEntersAndAdvances : Obligations.TramEntersAndAdvances := ⟨tram_advances, passage_atStop⟩

end

end Sys2Proof.Machine

/-! # CLEAR edges on the path of a route (04 sections 4.6, 4.8; 05 section 5.2) -/

namespace Sys2Proof.Machine

section

variable {s t u : State} {slot n i : Nat} {e : RouteEntry} {d : RouteDef} {c : EdgeCause}

/-! ## The element of an edge -/

/-- The element of an edge is one of the route of an entry. -/
theorem elementAt_route (h : s.elementAt n = some (slot, e, d, i)) : s.routeDef e.route = some d := by
  unfold State.elementAt at h
  cases hslot : s.reservedBy n with
  | none => simp [hslot] at h
  | some k =>
    cases hentry : Tbl.find k s.route.table with
    | none => simp [hslot, hentry] at h
    | some y =>
      cases hdef : s.routeDef y.route with
      | none => simp [hslot, hentry, hdef] at h
      | some o =>
        simp only [hslot, hentry, hdef, Option.map_eq_some_iff, Prod.mk.injEq] at h
        obtain ⟨j, -, rfl, rfl, rfl, -⟩ := h
        exact hdef

/-- R67, R73: what a CLEAR edge leaves of its entry is renewed and scanned. -/
theorem thenRenewsAndScans_take (h : s.elementAt n = some (slot, e, d, i)) (c : EdgeCause) :
    ThenRenewsAndScans n c s ((s.take (.routeClearEdge n c)).takeClear slot e d i n) := by
  have hat : (s.take (.routeClearEdge n c)).elementAt n = some (slot, e, d, i) := h
  simp only [ThenRenewsAndScans, exec, execRouteClearEdge, hat]
  rfl

/-! ## An element released, and one cleared irregularly (R87, R88) -/

/-- R87: what the release of an element does. -/
theorem releaseElement_spec (he : Tbl.find slot s.route.table = some e) (d : RouteDef) (i n : Nat) :
    let x : RouteEntry := { e with released := e.released + 1 }
    let given := pointsOfElement d i
    let t := s.releaseElement slot d i n
    Does yardParts (unlockEnds slot given s ++ eventClaims s (entryEvent slot e (.elementReleased i)))
      (routeNotice slot x e.state.code (t.entryAspect e)) s t ∧
    SectionsFreed slot [n] s t ∧ PointsFreed slot given s t ∧ EntryPut slot x s t := by
  have hsection := does_unreserve s slot [n]
  obtain ⟨hpoints, hfreed⟩ := unlockAll_spec slot (pointsOfElement d i) (s.unreserve slot [n])
  rw [unlockEnds_congr hsection.points] at hpoints
  have hgiven := hsection.inYard.trans hpoints.inYard
  have hroute := hpoints.route.trans hsection.route
  obtain ⟨hprogress, hput⟩ := entryProgress_spec (hroute ▸ he) (fun x => { x with released := x.released + 1 }) (.elementReleased i)
  rw [eventClaims_congr hgiven.desc] at hprogress
  refine ⟨hgiven.trans hprogress.inYard, fun m => ?_, fun m => ?_, hput.after hroute⟩
  · exact (congrArg _ (hprogress.sections.trans hpoints.sections)).trans (sectionsFreed_unreserve s slot [n] m)
  · exact (congrArg _ hprogress.points).trans ((hfreed m).trans (by rw [hsection.points]))

/-- R87: an element released in the taking of a claim. -/
theorem elementReleased_take (he : Tbl.find slot s.route.table = some e) (d : RouteDef) (i n : Nat) (c : Instr) :
    ElementReleased (s.claims.erase c) n slot i e d s ((s.take c).releaseElement slot d i n) := by
  obtain ⟨hdoes, hsection, hpoints, hput⟩ := releaseElement_spec (s := s.take c) he d i n
  refine ⟨?_, hsection, hpoints, hput⟩
  rw [List.append_assoc]
  exact effect_take_does hdoes

/-- R88: an entry with an element that cleared irregularly. -/
def RouteEntry.clearIrregularly (i : Nat) (e : RouteEntry) : RouteEntry :=
  { e.degrade .ofIrregular with irregular := insertNum i e.irregular }

theorem clearIrregularly_eq (i : Nat) (e : RouteEntry) : e.clearIrregularly i =
    { e with
      state := .degraded, causes := { e.causes with irregular := true }, irregular := insertNum i e.irregular
      withheld := [], timer := none } := by
  simp [RouteEntry.clearIrregularly, RouteEntry.degrade, Causes.union, Causes.ofIrregular]

/-- R88: an element cleared irregularly in the taking of a claim. -/
theorem clearedIrregularly_take (he : Tbl.find slot s.route.table = some e) (i n : Nat) (c : Instr) :
    ClearedIrregularly (s.claims.erase c) n slot i e s ((s.take c).irregularClearance slot e i n) := by
  obtain ⟨hshown, hput⟩ := entryShown_spec (s := s.take c) he (RouteEntry.clearIrregularly i)
  have hdoes := hshown.thenSends (does_raise _ (.irregularClearance e.route n))
  rw [clearIrregularly_eq] at hdoes hput
  exact ⟨effect_take_does hdoes, hput⟩

/-! ## Completion (R89, R90) -/

theorem atItsDestination_eq (d : RouteDef) (s : State) : atItsDestination d s = s.mayComplete d := by
  unfold atItsDestination State.mayComplete
  cases d.kind <;> cases d.destination <;> simp

theorem completeRoute_eq (slot : Nat) (e : RouteEntry) (s : State) : s.completeRoute slot e = s.leave slot e .complete id := rfl

/-! ## A CLEAR edge, by the place of its element (R66, R87–R90) -/

theorem takeClear_ahead (h : e.front < i) : s.takeClear slot e d i n = s.testProceed slot := if_pos h

theorem takeClear_irregular (h : i ≤ e.front) (hirregular : e.irregular.contains i = true) : s.takeClear slot e d i n = s := by
  unfold State.takeClear
  rw [if_neg (Nat.not_lt.mpr h), if_pos hirregular]

/-- R87–R90: behind the front, on an element that did not clear irregularly. -/
theorem takeClear_behind (h : i ≤ e.front) (hregular : e.irregular.contains i = false) : s.takeClear slot e d i n =
    if i < d.path.length then
      if (d.sections[i]?).any s.isOccupied then s.releaseElement slot d i n else s.irregularClearance slot e i n
    else if s.mayComplete d then
      if e.causes.irregular then s.releaseElement slot d i n else s.completeRoute slot e
    else s.irregularClearance slot e i n := by
  unfold State.takeClear
  rw [if_neg (Nat.not_lt.mpr h), if_neg (by rw [hregular]; exact Bool.false_ne_true)]

/-- R87, R88: an element before the last. -/
theorem clearance_behindTheFront : clearanceBehindTheFront := by
  intro n slot i c e d s hat he hfront hregular hi left
  have hrenews := thenRenewsAndScans_take hat c
  have hoccupied : (s.take (.routeClearEdge n c)).isOccupied = s.isOccupied := rfl
  rw [takeClear_behind hfront hregular, if_pos hi, hoccupied] at hrenews
  refine ⟨fun hnext => ?_, fun hnext => ?_⟩
  · rw [if_pos hnext] at hrenews
    exact ⟨_, elementReleased_take he d i n _, hrenews⟩
  · rw [hnext] at hrenews
    exact ⟨_, clearedIrregularly_take he i n _, hrenews⟩

/-- R87–R90: the last element. -/
theorem clearance_ofTheLastElement : clearanceOfTheLastElement := by
  intro n slot i c e d s hat he hfront hregular hi left
  have hrenews := thenRenewsAndScans_take hat c
  have hcomplete : (s.take (.routeClearEdge n c)).mayComplete d = atItsDestination d s := (atItsDestination_eq d s).symm
  rw [takeClear_behind hfront hregular, if_neg (Nat.not_lt.mpr hi.ge), hcomplete] at hrenews
  refine ⟨fun hthere hclean => ?_, fun hthere hcause => ?_, fun hthere => ?_⟩
  · rw [hthere, if_pos rfl, hclean] at hrenews
    exact ⟨_, entryLeaves_take (elementAt_route hat) .none _, hrenews⟩
  · rw [hthere, if_pos rfl, hcause] at hrenews
    exact ⟨_, elementReleased_take he d i n _, hrenews⟩
  · rw [hthere] at hrenews
    exact ⟨_, clearedIrregularly_take he i n _, hrenews⟩

/-- R66: the test of an entry in the taking of a claim. -/
theorem proceedTested_take (he : Tbl.find slot s.route.table = some e) (hd : s.routeDef e.route = some d) (c : Instr) :
    ProceedTested (s.claims.erase c) slot e d s ((s.take c).testProceed slot) := by
  obtain ⟨hdoes, hput⟩ := testProceed_spec (s := s.take c) he hd
  unfold ProceedTested
  rw [standsClear_eq]
  exact ⟨effect_take_does hdoes, hput⟩

/-- R66, R88: an element in front of the tram, and one that cleared irregularly. -/
theorem clearance_aheadOfTheTram : clearanceAheadOfTheTram := by
  intro n slot i c e d s hat he
  have hrenews := thenRenewsAndScans_take hat c
  refine ⟨fun hahead => ?_, fun hfront hirregular => ?_⟩
  · rw [takeClear_ahead hahead] at hrenews
    exact ⟨_, proceedTested_take he (elementAt_route hat) _, hrenews⟩
  · rw [takeClear_irregular hfront hirregular] at hrenews
    exact hrenews

/-- Settles O14: an edge by the place of its element (`takeClear_ahead`, `takeClear_irregular`, `takeClear_behind`). -/
theorem clearanceBehindTheTram : Obligations.ClearanceBehindTheTram :=
  ⟨clearance_behindTheFront, clearance_ofTheLastElement, clearance_aheadOfTheTram⟩

end

end Sys2Proof.Machine

/-! # What the operations of a gate's taking do (06)

The takings of the gate controllers reach the route setter and the stabling block as well. `Acts` says of any operation among these what
`Does` says of the yard's. `GateTaken` carries one gate's record through a taking. -/

namespace Sys2Proof.Machine

section

variable {s t u : State} {parts parts' : List Part} {sent sent' : List Instr} {f f' : State → State}

/-! ## Operations of the depot's blocks -/

/-- The parts that the operations of the yard's and the depot's blocks may change. -/
abbrev depotParts : List Part := [.sections, .points, .routes, .gates, .stabling]

/-- What an operation of the yard's or the depot's blocks does: the parts that it may change, the claims that it sends, and its
notices. -/
structure Acts (parts : List Part) (sent : List Instr) (f : State → State) (s t : State) : Prop where
  effect : Effect parts (s.claims ++ sent) f none s t
  notices : Posts f
  depot : parts ⊆ depotParts

theorem Does.acts (h : Does parts sent f s t) : Acts parts sent f s t :=
  ⟨h.effect, h.notices, List.Subset.trans h.yard (by simp)⟩

theorem Acts.mono (h : Acts parts sent f s t) (hp : parts ⊆ parts') (hd : parts' ⊆ depotParts := by simp) : Acts parts' sent f s t :=
  ⟨⟨h.effect.1.mono hp, h.effect.2⟩, h.notices, hd⟩

theorem acts_none (s : State) : Acts [] [] id s s := (does_none s).acts

theorem Acts.noRoster (h : Acts parts sent f s t) : .roster ∉ parts := fun hm => by simpa using h.depot hm

theorem Acts.noPorts (h : Acts parts sent f s t) : .ports ∉ parts := fun hm => by simpa using h.depot hm

theorem Acts.noStore (h : Acts parts sent f s t) : .store ∉ parts := fun hm => by simpa using h.depot hm

theorem Acts.trans (h : Acts parts sent f s t) (h' : Acts parts sent' f' t u) :
    Acts parts (sent ++ sent') (fun s => f' (f s)) s u := by
  refine ⟨?_, h.notices.comp h'.notices, h.depot⟩
  rw [← List.append_assoc]
  exact effect_then h.effect h'.effect h.notices h'.notices h.noRoster h.noPorts

/-- A further operation, one of fewer parts. -/
theorem Acts.next (h : Acts parts sent f s t) (h' : Acts parts' sent' f' t u) (hp : parts' ⊆ parts := by simp) :
    Acts parts (sent ++ sent') (fun s => f' (f s)) s u := h.trans (h'.mono hp h.depot)

/-- A further operation, one of fewer parts that sends nothing. -/
theorem Acts.update (h : Acts parts sent f s t) (h' : Acts parts' [] f' t u) (hp : parts' ⊆ parts := by simp) :
    Acts parts sent (fun s => f' (f s)) s u := by
  simpa only [List.append_nil] using h.next h' hp

/-- What follows the taking of a claim. -/
theorem Acts.afterTake {c : Instr} (h : Acts parts sent f (s.take c) t) : Effect parts (s.claims.erase c ++ sent) f none s t :=
  effect_then (effect_take s c parts) h.effect .none h.notices h.noRoster h.noPorts

/-- The parts that are not named are as before. -/
theorem Acts.same (h : Acts parts sent f s t) {y : Part} (hy : y ∉ parts) : y.same s t := by
  obtain ⟨⟨-, -, hparts⟩, -⟩ := h.effect
  exact hparts y hy

theorem Acts.desc (h : Acts parts sent f s t) : t.desc = s.desc := (h.same h.noStore).2.1

theorem Acts.inForce (h : Acts parts sent f s t) : t.inForce = s.inForce := (h.same h.noStore).2.2

theorem Acts.param (h : Acts parts sent f s t) : t.param = s.param := congrArg (Option.getD · Params.default) h.inForce

theorem Acts.roster (h : Acts parts sent f s t) : t.roster = s.roster := h.same h.noRoster

theorem Acts.minute (h : Acts parts sent f s t) : t.minute = s.minute := congrArg Roster.clock h.roster

theorem Acts.sections (h : Acts parts sent f s t) (hx : .sections ∉ parts := by simp) : t.sections = s.sections :=
  h.same hx

theorem Acts.points (h : Acts parts sent f s t) (hx : .points ∉ parts := by simp) : t.points = s.points :=
  h.same hx

theorem Acts.route (h : Acts parts sent f s t) (hx : .routes ∉ parts := by simp) : t.route = s.route :=
  h.same hx

theorem Acts.gates (h : Acts parts sent f s t) (hx : .gates ∉ parts := by simp) : t.gates = s.gates :=
  h.same hx

theorem Acts.stab (h : Acts parts sent f s t) (hx : .stabling ∉ parts := by simp) : t.stab = s.stab :=
  h.same hx

theorem Acts.claims (h : Acts parts sent f s t) : t.claims = s.claims ++ sent := h.effect.2.1

theorem Acts.notes (h : Acts parts sent f s t) : Notes f s t := h.effect.2.2.1

theorem Acts.answered (h : Acts parts sent f s t) : Answered none s t := h.effect.2.2.2

/-- An operation that leaves the ports. -/
theorem acts_silent (hk : KeepsAllBut parts s t) (hc : t.claims = s.claims ++ sent) (hp : ∀ p, t.port p = s.port p)
    (hd : parts ⊆ depotParts := by simp) : Acts parts sent id s t :=
  ⟨effect_next (effect_none s parts) hk hp hc, .none, hd⟩

theorem acts_onGate (s : State) (g : Nat) (φ : Gate → Gate) : Acts [.gates] [] id s (s.onGate g φ) := by
  refine acts_silent ⟨rfl, rfl, fun x hx => ?_⟩ (by simp) (port_onGate s · g φ)
  cases x with
  | gates => exact absurd List.mem_cons_self hx
  | _ => simp [Part.same]

theorem acts_onStab (s : State) (φ : Stabling → Stabling) : Acts [.stabling] [] id s (s.onStab φ) := by
  refine acts_silent ⟨rfl, rfl, fun x hx => ?_⟩ (by simp) (port_onStab s · φ)
  cases x with
  | stabling => exact absurd List.mem_cons_self hx
  | _ => simp [Part.same]

theorem acts_onSiding (s : State) (n : Nat) (φ : SidingRec → SidingRec) : Acts [.stabling] [] id s (s.onSiding n φ) :=
  acts_onStab s _

theorem acts_send (s : State) (c : Instr) : Acts [] [c] id s (s.send c) := (does_send s c).acts

theorem acts_posts (h : Posts f) (s : State) : Acts [] [] f s (f s) := (does_posts h s).acts

theorem acts_post (s : State) (g : Group) (k : Nat) (fs : List Field) : Acts [] [] (fun s => s.post g k fs) s (s.post g k fs) :=
  acts_posts (posts_one g k fs) s

/-- A walk whose steps act each in its own way. -/
theorem acts_foldl {α : Type} {step : State → α → State} {parts : List Part} (hd : parts ⊆ depotParts)
    (h : ∀ s a, ∃ sent f, Acts parts sent f s (step s a)) (l : List α) (s : State) :
    ∃ sent f, Acts parts sent f s (l.foldl step s) := by
  induction l generalizing s with
  | nil => exact ⟨[], id, (acts_none s).mono (List.nil_subset _) hd⟩
  | cons a l ih =>
    obtain ⟨sent, f, ha⟩ := h s a
    obtain ⟨sent', f', hl⟩ := ih (step s a)
    exact ⟨_, _, ha.trans hl⟩

/-! ## One gate's record through a taking -/

variable {g : Nat} {x y : Gate}

/-- A taking up to a state `t`, with the record `x` of one gate in hand. -/
structure GateTaken (parts : List Part) (sent : List Instr) (f : State → State) (s : State) (g : Nat) (x : Gate) (t : State) :
    Prop where
  acts : Acts parts sent f s t
  put : Put g x s.gates t.gates
  gates : .gates ∈ parts

theorem gateTaken_found (hx : Tbl.find g s.gates = some x) : GateTaken [.gates] [] id s g x s :=
  ⟨(acts_none s).mono (List.nil_subset _), put_same hx, by simp⟩

theorem GateTaken.find (h : GateTaken parts sent f s g x t) : Tbl.find g t.gates = some x := (h.put g).trans (if_pos rfl)

theorem GateTaken.mono (h : GateTaken parts sent f s g x t) (hp : parts ⊆ parts') (hd : parts' ⊆ depotParts := by simp) :
    GateTaken parts' sent f s g x t := ⟨h.acts.mono hp hd, h.put, hp h.gates⟩

/-- A change of the record in hand. -/
theorem GateTaken.onGate (h : GateTaken parts sent f s g x t) (φ : Gate → Gate) : GateTaken parts sent f s g (φ x) (t.onGate g φ) := by
  refine ⟨h.acts.update (acts_onGate t g φ) (by simpa using h.gates), fun m => ?_, h.gates⟩
  rw [State.onGate_gates, Tbl.find_adjust, h.put m]
  by_cases hm : m = g <;> simp [hm]

/-- A further operation, one that leaves the gates. -/
theorem GateTaken.next (h : GateTaken parts sent f s g x t) (h' : Acts parts' sent' f' t u) (hp : parts' ⊆ parts := by simp)
    (hg : .gates ∉ parts' := by simp) : GateTaken parts (sent ++ sent') (fun s => f' (f s)) s g x u :=
  ⟨h.acts.next h' hp, by rw [h'.gates hg]; exact h.put, h.gates⟩

/-- A further operation, one that leaves the gates and sends nothing. -/
theorem GateTaken.update (h : GateTaken parts sent f s g x t) (h' : Acts parts' [] f' t u) (hp : parts' ⊆ parts := by simp)
    (hg : .gates ∉ parts' := by simp) : GateTaken parts sent (fun s => f' (f s)) s g x u := by
  simpa only [List.append_nil] using h.next h' hp hg

theorem GateTaken.post (h : GateTaken parts sent f s g x t) (gr : Group) (k : Nat) (fs : List Field) :
    GateTaken parts sent (fun s => (f s).post gr k fs) s g x (t.post gr k fs) := h.update (acts_post t gr k fs)

theorem GateTaken.send (h : GateTaken parts sent f s g x t) (c : Instr) : GateTaken parts (sent ++ [c]) f s g x (t.send c) :=
  h.next (acts_send t c)

/-- What a taking that no claim began comes to. -/
theorem GateTaken.unsent (h : GateTaken parts [] f s g x t) : Effect parts s.claims f none s t ∧ Put g x s.gates t.gates :=
  ⟨by simpa only [List.append_nil] using h.acts.effect, h.put⟩

/-- What the taking of a claim comes to. -/
theorem GateTaken.taken {c : Instr} (h : GateTaken parts sent f (s.take c) g x t) :
    Effect parts (s.claims.erase c ++ sent) f none s t ∧ Put g x s.gates t.gates := ⟨h.acts.afterTake, h.put⟩

/-- What the taking of a claim that sends nothing comes to. -/
theorem GateTaken.takenUnsent {c : Instr} (h : GateTaken parts [] f (s.take c) g x t) :
    Effect parts (s.claims.erase c) f none s t ∧ Put g x s.gates t.gates := by
  simpa only [List.append_nil] using h.taken

/-- What the taking of a request comes to that is answered. -/
theorem GateTaken.replied {c : Instr} (h : GateTaken parts sent f (s.take c) g x t) (k : Kind) (q : Req) (a : Ans) :
    Effect parts (s.claims.erase c ++ sent) f (some (k, q, a)) s (t.reply k q a) ∧ Put g x s.gates (t.reply k q a).gates :=
  ⟨effect_reply k q a h.acts.afterTake, by rw [State.reply_gates]; exact h.put⟩

/-- What the taking of a request comes to that sends nothing and is answered. -/
theorem GateTaken.repliedUnsent {c : Instr} (h : GateTaken parts [] f (s.take c) g x t) (k : Kind) (q : Req) (a : Ans) :
    Effect parts (s.claims.erase c) f (some (k, q, a)) s (t.reply k q a) ∧ Put g x s.gates (t.reply k q a).gates := by
  simpa only [List.append_nil] using h.replied k q a

/-! ## Requests that name a gate -/

/-- In RUN, a request that names a defined gate is its owner's to decide. -/
theorem exec_gateRequest {d : GateDef} {k : Kind} {q : Req} {i : Instr} {owner : State → State × Ans} {a : Ans}
    (hat : GateAt g d x s) (ho : InRun q s) (hx : exec i s = takeRequest i k q s owner) (hk : k.permits q.port = true)
    (hg : i.gateNamed = some g) (hl : k.loads = false) (hc : i.codesOk = true) (h : owner (s.take i) = (t, a)) :
    exec i s = .next (t.reply k q a).settle := by
  obtain ⟨hd, -⟩ := hat
  rw [hx, takeRequest_admitted s owner (by simp [State.portCheck, hk, hc, hg, hd]) (by simp [State.stateCheck, takenIn_run k ho, hl]), h]
  rfl

end

end Sys2Proof.Machine

/-! # Held reasons, the line-hold flag and the overrun (06 sections 6.3, 6.6, 6.7) -/

namespace Sys2Proof.Machine

section

variable {s t : State} {g : Nat} {x : Gate}

theorem takeGate_found (hx : Tbl.find g s.gates = some x) (φ : Gate → Gate) : takeGate g φ s = (s.onGate g φ, .done) := by
  unfold takeGate
  rw [hx]

/-- R122: the line-hold flag, and its notice at a change. -/
theorem takeLine_spec (hx : Tbl.find g s.gates = some x) (v : Bool) :
    ∃ t, takeLine g v s = (t, .done) ∧
      GateTaken [.gates] [] (fun s => if x.lineHold = v then s else s.post .gate 7 [.u8 g, fFlag v]) s g { x with lineHold := v } t := by
  have hbegin := gateTaken_found hx
  unfold takeLine
  rw [hx]
  by_cases hv : x.lineHold = v
  · simp only [if_pos hv]
    refine ⟨_, rfl, ?_⟩
    subst hv
    exact hbegin
  · simp only [if_neg hv]
    exact ⟨_, rfl, (hbegin.onGate (fun x => { x with lineHold := v })).post _ _ _⟩

theorem lineHold_flag : lineHoldFlag := by
  intro q g d x s hat hq ho
  have hx := hat.2
  refine ⟨?_, ?_⟩
  · obtain ⟨t, ht, htaken⟩ := takeLine_spec (s := s.take (.lineHold q g)) hx true
    exact ⟨_, exec_gateRequest hat ho rfl (by rw [hq]; rfl) rfl rfl rfl ht, htaken.repliedUnsent _ _ _⟩
  · obtain ⟨t, ht, htaken⟩ := takeLine_spec (s := s.take (.lineRelease q g)) hx false
    refine ⟨_, exec_gateRequest hat ho rfl (by rw [hq]; rfl) rfl rfl rfl ht, ?_⟩
    have hreplied := htaken.repliedUnsent .lineRelease q .done
    cases hv : x.lineHold <;> rw [hv] at hreplied <;> exact hreplied

/-- R107: GATE_CLEAR_OVERRUN by the queue and the reason. -/
theorem clear_overrun : clearOverrun := by
  intro q g d x s hat hq ho full
  have hx := hat.2
  have hexec {t : State} {a : Ans} (h : takeClearOverrun g (s.take (.gateClearOverrun q g)) = (t, a)) :=
    exec_gateRequest (k := .gateClearOverrun) hat ho rfl (by rw [hq]; rfl) rfl rfl rfl h
  have hbegin : GateTaken [.gates] [] id (s.take (.gateClearOverrun q g)) g x (s.take (.gateClearOverrun q g)) := gateTaken_found hx
  unfold takeClearOverrun at hexec
  simp only [State.take_gates, hx] at hexec
  by_cases hfull : x.queue.length = 4
  · simp only [Config.queueSize, hfull, if_true] at hexec
    simpa [full, hfull] using ⟨_, hexec rfl, hbegin.repliedUnsent _ _ _⟩
  · simp only [Config.queueSize, hfull, if_false] at hexec
    cases hov : x.held.overrun with
    | false =>
      simp only [hov, Bool.not_false, if_true] at hexec
      have hsame : { x with held := { x.held with overrun := false } } = x := by rw [← hov]
      simpa [full, hfull, hov, hsame] using ⟨_, hexec rfl, hbegin.repliedUnsent _ _ _⟩
    | true =>
      simp only [hov, Bool.not_true, Bool.false_eq_true, if_false] at hexec
      have hcleared := (hbegin.onGate (fun x => { x with held := { x.held with overrun := false } })).send
        (.alarmConditionEnd (.gateOverrun g))
      simpa [full, hfull, hov] using ⟨_, hexec rfl, hcleared.replied _ _ _⟩

end

/-- Settles O22: the flag by its value (`takeLine_spec`), and the overrun by the queue. -/
theorem lineHoldAndOverrun : Obligations.LineHoldAndOverrun := ⟨lineHold_flag, clear_overrun⟩

end Sys2Proof.Machine

/-! # Route requests and the stabling block's claims, whatever they come to (04 sections 4.4, 4.5; 07 sections 7.2, 7.3) -/

namespace Sys2Proof.Machine

/-- An operation that touches only these parts, and sends and posts what it may. -/
def Touches (parts : List Part) (s t : State) : Prop := ∃ sent f, Acts parts sent f s t

section

variable {s t u : State} {parts parts' : List Part} {sent : List Instr} {f : State → State} {slot n g : Nat}

/-! ## Parts touched -/

theorem Acts.touches (h : Acts parts sent f s t) : Touches parts s t := ⟨sent, f, h⟩

theorem Touches.mono (h : Touches parts s t) (hp : parts ⊆ parts') (hd : parts' ⊆ depotParts := by simp) : Touches parts' s t :=
  let ⟨_, _, ha⟩ := h
  (ha.mono hp hd).touches

theorem Touches.next (h : Touches parts s t) (h' : Touches parts' t u) (hp : parts' ⊆ parts := by simp) : Touches parts s u :=
  let ⟨_, _, ha⟩ := h
  let ⟨_, _, ha'⟩ := h'
  (ha.next ha' hp).touches

theorem touches_none (s : State) (parts : List Part) (hd : parts ⊆ depotParts := by simp) : Touches parts s s :=
  ((acts_none s).mono (List.nil_subset _) hd).touches

theorem Touches.gates (h : Touches parts s t) (hx : .gates ∉ parts := by simp) : t.gates = s.gates :=
  let ⟨_, _, ha⟩ := h
  ha.gates hx

theorem Touches.stab (h : Touches parts s t) (hx : .stabling ∉ parts := by simp) : t.stab = s.stab :=
  let ⟨_, _, ha⟩ := h
  ha.stab hx

theorem Touches.answered (h : Touches parts s t) : Answered none s t :=
  let ⟨_, _, ha⟩ := h
  ha.answered

theorem Touches.keeps (h : Touches parts s t) : KeepsAllBut parts s t :=
  let ⟨_, _, ha⟩ := h
  ha.effect.1

/-! ## Route requests -/

theorem touches_lockAll (slot : Nat) (l : List (Nat × Position)) (s : State) : Touches [.points] s (s.lockAll slot l).1 := by
  induction l generalizing s with
  | nil => exact touches_none s _
  | cons p l ih =>
    unfold State.lockAll State.lockPoint
    split
    · exact touches_none s _
    · rename_i v hv
      have hon : Touches [.points] s v := by
        split at hv
        · cases hv
        · split_ifs at hv
          cases hv
          exact (does_onPoint s _ _).acts.touches
      exact hon.next (ih v)

theorem touches_commandPoint (s : State) (n slot : Nat) (pos : Position) : Touches [.points] s (s.commandPoint n slot pos) := by
  cases hr : Tbl.find n s.points with
  | none =>
    unfold State.commandPoint
    rw [hr]
    exact touches_none s _
  | some r =>
    have hbegin : PointTaken [.points] (s.claims ++ []) id s s.points n r s := by simpa using pointTaken_none hr
    have hset := hbegin.onPoint (fun x => { x with commanded := some pos })
    have hsend := (pointTaken_none hr).onPoint (fun x => { x with commanded := some pos })
    rw [commandPoint_eq hr]
    dsimp only
    split_ifs
    · exact touches_none s _
    · exact touches_none s _
    · exact ((hbegin.reverse pos).does (posts_pointNotice _ _ _)).acts.touches
    · exact (hset.does .none).acts.touches
    · exact ((hsend.start pos).does (posts_pointNotice _ _ _)).acts.touches
    · exact ((hsend.send _).does .none).acts.touches

theorem touches_commandAll (slot : Nat) (l : List (Nat × Position)) (s : State) : Touches [.points] s (s.commandAll slot l) :=
  acts_foldl (by simp) (fun s p => by
    split
    · exact touches_none s _
    · exact touches_commandPoint s _ _ _) l s

theorem touches_postSlot (slot : Nat) (s : State) : Touches [] s (s.postSlot slot) := by
  cases he : Tbl.find slot s.route.table with
  | none =>
    unfold State.postSlot
    rw [he]
    exact touches_none s _
  | some e => exact (does_postSlot he).acts.touches

theorem touches_testProceed (slot : Nat) (s : State) : Touches [.routes] s (s.testProceed slot) := by
  cases he : Tbl.find slot s.route.table with
  | none =>
    unfold State.testProceed
    rw [he]
    exact touches_none s _
  | some e =>
    cases hd : s.routeDef e.route with
    | none =>
      unfold State.testProceed
      rw [he]
      dsimp only
      rw [hd]
      exact touches_none s _
    | some d => exact (testProceed_spec he hd).1.acts.touches

theorem touches_takeInto (slot : Nat) (q : RouteRequest) (d : RouteDef) (s : State) :
    Touches yardParts s (s.takeInto slot q d).1 := by
  have hreserve : Touches yardParts s (s.reserve slot d.sections) := (does_reserve s slot d.sections).inYard.acts.touches
  have hlocks := hreserve.next (touches_lockAll slot d.points _)
  unfold State.takeInto
  dsimp only
  split
  · rename_i v n hv
    rw [hv] at hlocks
    exact (hlocks.next (does_unreserve v slot d.sections).acts.touches).next (unlockAll_spec slot _ _).1.acts.touches
  · rename_i v hv
    rw [hv] at hlocks
    have hentry := hlocks.next (does_onRoute v (fun r => { r with table := Tbl.put slot (q.entry d) r.table })).acts.touches
    exact ((hentry.next (touches_commandAll slot d.points _)).next (touches_postSlot slot _)).next (touches_testProceed slot _)

theorem touches_storeRequest (q : RouteRequest) (s : State) : Touches yardParts s (s.storeRequest q).1 := by
  by_cases hroom : s.route.store.length < 8
  · obtain ⟨u, hu, hdoes, -⟩ := storeRequest_stored hroom q
    rw [hu]
    exact hdoes.inYard.acts.touches
  · rw [storeRequest_full hroom]
    exact touches_none s _

theorem touches_takeOrStore (q : RouteRequest) (d : RouteDef) (s : State) : Touches yardParts s (s.takeOrStore q d).1 := by
  unfold State.takeOrStore
  split
  · rename_i slot _ _
    have htake := touches_takeInto slot q d s
    split
    · rename_i v hv
      rw [hv] at htake
      exact htake
    · rename_i v n hv
      rw [hv] at htake
      split
      · exact htake
      · exact htake.next (touches_storeRequest q v)
  · exact touches_storeRequest q s

/-- R58–R65: a route request, granted or refused, is between the route setter, the sections and the points. -/
theorem touches_requestRoute (kinds : List RouteKind) (q : RouteRequest) (s : State) :
    Touches yardParts s (s.requestRoute kinds q).1 := by
  unfold State.requestRoute
  repeat' split
  any_goals exact touches_none s _
  exact touches_takeOrStore q _ s

/-! ## Stacking reports, allocation, release and doubt (R126, R128–R131, R137) -/

theorem acts_postStack (s : State) (n fleet pos : Nat) (st : Option StackState) (c : StackCause) :
    Acts [] [] (State.postStack n fleet pos st c) s (s.postStack n fleet pos st c) := acts_post s _ _ _

/-- R126: a stacking report goes to every gate. -/
theorem acts_report (s : State) (c : StackCause) (r : Option Nat) : Acts [] (reports s c r) id s (s.report c r) := by
  have hwalk (l : List Nat) (rep : StackReport) (t : State) :
      Acts [] (l.map (fun g => .stackingReport g rep)) id t (l.foldl (fun t g => t.send (.stackingReport g rep)) t) := by
    induction l generalizing t with
    | nil => exact acts_none t
    | cons g l ih => exact (acts_send t _).trans (ih _)
  exact hwalk (Tbl.keys s.gates) (s.stackReport c r) s

theorem touches_report (s : State) (c : StackCause) (r : Option Nat) : Touches [] s (s.report c r) := (acts_report s c r).touches

/-! ### Where a fleet stands -/

/-- A fleet's record in one siding's stack. -/
def tramIn (f : Nat) (p : Nat × SidingRec) : Option (Nat × SidingRec × Nat × StackRec) :=
  (p.2.stack.findIdx? (fun r => r.fleet = f)).bind (fun i => (p.2.stack[i]?).map (fun r => (p.1, p.2, i, r)))

theorem findTram_eq (s : State) (f : Nat) : s.findTram f = s.stab.sidings.findSome? (tramIn f) := rfl

theorem tramIn_eq_none {f : Nat} {p : Nat × SidingRec} : tramIn f p = none ↔ ∀ x ∈ p.2.stack, x.fleet ≠ f := by
  unfold tramIn
  cases hi : p.2.stack.findIdx? (fun r => r.fleet = f) with
  | none => simpa using hi
  | some i =>
    obtain ⟨hlt, hfleet, -⟩ := List.findIdx?_eq_some_iff_getElem.mp hi
    have hmem := List.getElem_mem hlt
    simp only [Option.bind_some, List.getElem?_eq_getElem hlt, Option.map_some, reduceCtorEq, false_iff, not_forall]
    exact ⟨_, hmem, by simpa using hfleet⟩

theorem findTram_eq_none {f : Nat} : s.findTram f = none ↔ ∀ p ∈ s.stab.sidings, ∀ x ∈ p.2.stack, x.fleet ≠ f := by
  simp only [findTram_eq, List.findSome?_eq_none_iff, tramIn_eq_none]

theorem tramIn_push {x : StackRec} {p : Nat × SidingRec} (h : ∀ y ∈ p.2.stack, y.fleet ≠ x.fleet) :
    tramIn x.fleet (p.1, { p.2 with stack := p.2.stack ++ [x] }) =
      some (p.1, { p.2 with stack := p.2.stack ++ [x] }, p.2.stack.length, x) := by
  have hnone : p.2.stack.findIdx? (fun r => r.fleet = x.fleet) = none := by simpa using h
  simp [tramIn, List.findIdx?_append, hnone]

/-- A fleet that stood nowhere stands where its record has joined a stack. -/
theorem findTram_push {x : StackRec} (hn : n ∈ Tbl.keys s.stab.sidings) (hnone : s.findTram x.fleet = none)
    (ht : t.stab = (s.pushRecord n x).stab) : ∃ r i, t.findTram x.fleet = some (n, r, i, x) := by
  have habsent := findTram_eq_none.mp hnone
  rw [findTram_eq, ht]
  change ∃ r i, (Tbl.adjust n (fun r => { r with stack := r.stack ++ [x] }) s.stab.sidings).findSome? (tramIn x.fleet) = _
  generalize s.stab.sidings = l at hn habsent
  induction l with
  | nil => cases hn
  | cons p l ih =>
    have hp := habsent p List.mem_cons_self
    have hrest := fun q hq => habsent q (List.mem_cons_of_mem _ hq)
    unfold Tbl.adjust at ih ⊢
    rw [List.map_cons, List.findSome?_cons]
    by_cases he : p.1 = n
    · rw [if_pos he, tramIn_push hp]
      exact ⟨_, _, by rw [he]⟩
    · rw [if_neg he, tramIn_eq_none.mpr hp]
      have hn : n ∈ Tbl.keys l := by simpa [Tbl.keys, Ne.symm he] using hn
      exact ih hn hrest

/-- The record of a fleet that stood nowhere, joined and dropped again. -/
theorem dropRecord_push {x : StackRec} (hnone : s.findTram x.fleet = none) (ht : t.stab = (s.pushRecord n x).stab) :
    (t.dropRecord n x.fleet).stab = s.stab := by
  have habsent := findTram_eq_none.mp hnone
  have hpush : (s.pushRecord n x).stab =
      { s.stab with sidings := Tbl.adjust n (fun r => { r with stack := r.stack ++ [x] }) s.stab.sidings } := rfl
  have hdrop : (t.dropRecord n x.fleet).stab = { t.stab with
      sidings := Tbl.adjust n (fun r => { r with stack := r.stack.filter (fun y => y.fleet ≠ x.fleet) }) t.stab.sidings } := rfl
  have hsame : Tbl.adjust n (fun r => { r with stack := r.stack.filter (fun y => y.fleet ≠ x.fleet) })
      (Tbl.adjust n (fun r => { r with stack := r.stack ++ [x] }) s.stab.sidings) = s.stab.sidings := by
    unfold Tbl.adjust
    rw [List.map_map]
    refine (List.map_congr_left fun p hp => ?_).trans (List.map_id _)
    have hstack : p.2.stack.filter (fun y => y.fleet ≠ x.fleet) = p.2.stack :=
      List.filter_eq_self.mpr fun y hy => by simpa using habsent p hp y hy
    have hback : (p.2.stack ++ [x]).filter (fun y => y.fleet ≠ x.fleet) = p.2.stack := by
      rw [List.filter_append, hstack]
      simp
    by_cases he : p.1 = n
    · simp only [Function.comp_apply, if_pos he, hback, id]
    · simp only [Function.comp_apply, if_neg he, id]
  rw [hdrop, ht, hpush]
  dsimp only
  rw [hsame]

/-! ### Allocation -/

theorem firstRanked_mem {α : Type} {keys : α → List Nat} {l : List α} {a : α} (h : firstRanked keys l = some a) : a ∈ l := by
  induction l generalizing a with
  | nil => cases h
  | cons b l ih =>
    unfold firstRanked at h
    split at h
    · rename_i c hc
      split at h <;> cases h
      · exact List.mem_cons_of_mem _ (ih hc)
      · exact List.mem_cons_self
    · cases h
      exact List.mem_cons_self

/-- R128: what is chosen is the number of a siding. -/
theorem choose_place {fleet length : Nat} {ma wa : Needs} {inverted : Bool} (h : s.choose g fleet length ma wa = .place n inverted) :
    n ∈ Tbl.keys s.stab.sidings := by
  have heligible {p : Nat × SidingRec} (hp : p ∈ s.eligible g length ma) : p.1 ∈ Tbl.keys s.stab.sidings :=
    List.mem_map_of_mem (List.mem_of_mem_filter (List.mem_of_mem_filter hp))
  unfold State.choose at h
  dsimp only at h
  repeat' split at h
  all_goals cases h
  · rename_i hp
    exact heligible (List.mem_of_mem_filter (firstRanked_mem hp))
  · rename_i hp
    exact heligible (firstRanked_mem hp)

/-- The record that an allocation puts on a stack (R131). -/
def allocatedRecord (s : State) (g fleet length : Nat) (ma wa : Needs) : StackRec :=
  ⟨fleet, length, ma, wa, .reserved, false, none, some (.gateArrival g), s.stab.handed⟩

/-- R128–R131: an allocation that finds a siding puts a record at the outer end of its stack. -/
theorem allocate_siding {fleet length : Nat} {ma wa : Needs} (h : s.allocate g fleet length ma wa = (t, .siding n)) :
    Touches [.stabling] s t ∧ s.findTram fleet = none ∧ n ∈ Tbl.keys s.stab.sidings ∧
      t.stab = (s.pushRecord n (allocatedRecord s g fleet length ma wa)).stab := by
  unfold State.allocate at h
  split at h
  · cases h
  rename_i hnone
  split at h
  · cases h
  rename_i m inverted hchoose
  dsimp only at h
  have hpush : Touches [.stabling] s (s.pushRecord m (allocatedRecord s g fleet length ma wa)) := (acts_onSiding s m _).touches
  have hpost (pos : Nat) := hpush.next (acts_postStack _ m fleet pos (some .reserved) .reserved).touches
  split at h
  · rename_i o _
    obtain ⟨rfl, hm⟩ := Prod.mk.inj h
    cases hm
    exact ⟨((hpost _).next (acts_post _ .stabling 4 _).touches).next (touches_report _ .reserved none), by simpa using hnone,
      choose_place hchoose, (touches_report _ .reserved none).stab⟩
  · obtain ⟨rfl, hm⟩ := Prod.mk.inj h
    cases hm
    exact ⟨(hpost _).next (touches_report _ .reserved none), by simpa using hnone, choose_place hchoose,
      (touches_report _ .reserved none).stab⟩

/-- R128: an allocation that finds no siding changes nothing. -/
theorem allocate_same {fleet length : Nat} {ma wa : Needs} {b : Allocation} (h : s.allocate g fleet length ma wa = (t, b))
    (hb : ∀ n, b ≠ .siding n) : t = s := by
  unfold State.allocate at h
  split at h
  · cases h; rfl
  · split at h
    · cases h; rfl
    · cases h
      exact absurd rfl (hb _)

/-! ### Release and doubt -/

/-- R131: a release claim that finds the gate's own reservation. -/
theorem releaseClaim_reserved {fleet i : Nat} {r : SidingRec} {x : StackRec} (h : s.findTram fleet = some (n, r, i, x))
    (hx : x.state = .reserved ∧ x.purpose = some (.gateArrival g) ∧ x.entered = false) :
    s.releaseClaim g fleet = ((s.dropRecord n fleet).postStack n fleet (i + 1) none .released).report .released (some g) := by
  unfold State.releaseClaim
  rw [h]
  exact if_pos hx

theorem touches_releaseClaim (s : State) (g fleet : Nat) : Touches [.stabling] s (s.releaseClaim g fleet) := by
  unfold State.releaseClaim
  split
  · rename_i n r i x _
    split
    · have hdrop : Touches [.stabling] s (s.dropRecord n fleet) := (acts_onSiding s n _).touches
      exact (hdrop.next (acts_postStack _ _ _ _ _ _).touches).next (touches_report _ _ _)
    · exact touches_none s _
  · exact touches_none s _

theorem touches_setDoubt (s : State) (n : Nat) (c : StackCause) : Touches [.stabling] s (s.setDoubt n c) := by
  unfold State.setDoubt State.postSiding
  split
  · split
    · have hset : Touches [.stabling] s (s.onSiding n (fun x => { x with census := .doubt })) := (acts_onSiding s n _).touches
      split
      · exact hset.next (acts_post _ _ _ _).touches
      · exact hset
    · exact touches_none s _
  · exact touches_none s _

theorem touches_doubtClaim (s : State) (n : Nat) (c : StackCause) : Touches [.stabling] s (s.doubtClaim n c) := by
  unfold State.doubtClaim
  split
  · split
    · exact (touches_setDoubt s n c).next (touches_report _ _ _)
    · exact touches_none s _
  · exact touches_none s _

end

end Sys2Proof.Machine

/-! # The arrival queue and head processing (06 sections 6.4 to 6.6) -/

namespace Sys2Proof.Machine

section

variable {s t : State} {parts : List Part} {sent : List Instr} {f : State → State} {g : Nat} {x : Gate} {a : Arrival}

/-! ## The identity of a read record (R105, R108, R126) -/

/-- A change of a gate that leaves its queue leaves who is in the depot. -/
theorem identity_onGate {φ : Gate → Gate} (h : ∀ y, (φ y).queue = y.queue) (s : State) (g n : Nat) :
    (s.onGate g φ).identity n = s.identity n := by
  have hany : (s.onGate g φ).gates.any (fun p => p.2.queue.any (fun a => a.fleet = some n)) =
      s.gates.any (fun p => p.2.queue.any (fun a => a.fleet = some n)) := by
    rw [State.onGate_gates, Tbl.adjust, List.any_map]
    congr 1
    funext p
    by_cases hp : p.1 = g <;> simp [hp, h]
  unfold State.identity
  rw [hany]
  rfl

theorem identify_onGate {φ : Gate → Gate} (h : ∀ y, (φ y).queue = y.queue) (s : State) (g : Nat) (fr : ReaderFrame) :
    (s.onGate g φ).identify fr = s.identify fr := by
  funext a
  unfold State.identify
  rw [identity_onGate h]
  rfl

/-- R126: a number is free where no stack and no queue holds it. -/
theorem identity_eq_free {n : Nat} : s.identity n = .free ↔
    ((s.findTram n).isSome || s.gates.any (fun p => p.2.queue.any (fun a => a.fleet = some n))) = false := by
  unfold State.identity
  cases s.findTram n with
  | some _ => simp
  | none =>
    cases s.gates.any (fun p => p.2.queue.any (fun a => a.fleet = some n)) <;> simp

/-- R105, R108: the record as a frame fills it, in the words of the statements. -/
theorem identify_eq (s : State) (fr : ReaderFrame) (a : Arrival) : s.identify fr a = readRecord s fr a := by
  have hfree := identity_eq_free (s := s) (n := fr.fleet)
  unfold State.identify readRecord
  generalize ((s.findTram fr.fleet).isSome || s.gates.any (fun p => p.2.queue.any (fun a => a.fleet = some fr.fleet))) = here at hfree ⊢
  cases here with
  | false => simp [hfree.mpr rfl]
  | true =>
    cases hid : s.identity fr.fleet with
    | free => simp [hid] at hfree
    | present o => simp

/-! ## Notices, records and held reasons (R111, R117, R123) -/

theorem posts_queueNotice (g pos : Nat) (a : Arrival) (fs : List Field) : Posts (queueNotice g pos a fs) := posts_one _ _ _

theorem postArrival_eq (g pos : Nat) (a : Arrival) (c : QueueCause) (s : State) :
    s.postArrival g pos a c = queueNotice g pos a c.fields s := rfl

theorem touches_postQueue (s : State) (g pos : Nat) (c : QueueCause) : Touches [] s (s.postQueue g pos c) := by
  unfold State.postQueue
  split
  · exact (acts_post s _ _ _).touches
  · exact touches_none s _

/-- R123: the notice of the record that stands at a position of the queue in hand. -/
theorem GateTaken.postQueue {i : Nat} (h : GateTaken parts sent f s g x t) (ha : x.queue[i]? = some a) (c : QueueCause) :
    GateTaken parts sent (fun v => queueNotice g (i + 1) a c.fields (f v)) s g x (t.postQueue g (i + 1) c) := by
  have hpost : t.postQueue g (i + 1) c = queueNotice g (i + 1) a c.fields t := by
    unfold State.postQueue
    simp [h.find, ha, postArrival_eq]
  rw [hpost]
  exact h.post _ _ _

/-- A record of the queue in hand changed. -/
theorem GateTaken.onArrival {i : Nat} (h : GateTaken parts sent f s g x t) (ha : x.queue[i]? = some a) (φ : Arrival → Arrival) :
    GateTaken parts sent f s g { x with queue := x.queue.set i (φ a) } (t.onArrival g (i + 1) φ) := by
  have hset : x.queue.modify i φ = x.queue.set i (φ a) := by
    rw [List.modify_eq_set_getElem?, ha]
    rfl
  rw [← hset]
  exact h.onGate (fun x => { x with queue := x.queue.modify i φ })

/-- R117: the held reasons follow the queue in hand. -/
theorem GateTaken.queueChanged (h : GateTaken parts sent f s g x t) (joined : Bool) :
    GateTaken parts sent f s g { x with held := heldAfter s.param.queueHighMark joined x.held x.queue } (t.queueChanged g joined) := by
  rw [← h.acts.param]
  exact h.onGate (Gate.refresh t.param.queueHighMark joined)

/-- R107: an overrun of the pass in hand. -/
theorem GateTaken.overrun (h : GateTaken parts sent f s g x t) :
    GateTaken parts (sent ++ [.alarmRaise (.gateOverrun g)]) f s g
      { x with window := .overrun, waitTimer := none, held := { x.held with overrun := true } } (t.overrun g) :=
  (h.onGate (fun x => { x with window := .overrun, waitTimer := none, held := { x.held with overrun := true } })).send _

/-! ## What head processing leaves of a gate (R114, R115) -/

/-- A gate without what head processing writes: the state, siding and slot of its records, the place-none memory, and the report that
it holds in mind. -/
def Gate.lasting (x : Gate) : Gate := { x with queue := x.queue.map Arrival.returned, placeNone := none, ownReport := none }

/-- The gates without what head processing writes. -/
def State.lastingGates (s : State) : Tbl Gate := s.gates.map (fun p => (p.1, p.2.lasting))

theorem find_lastingGates (s : State) (m : Nat) : Tbl.find m s.lastingGates = (Tbl.find m s.gates).map Gate.lasting :=
  Tbl.find_map s.gates (fun _ => Gate.lasting) m

theorem lastingGates_congr (h : t.gates = s.gates) : t.lastingGates = s.lastingGates := by
  unfold State.lastingGates
  rw [h]

theorem lastingGates_onGate {φ : Gate → Gate} (h : ∀ y, (φ y).lasting = y.lasting) (s : State) (g : Nat) :
    (s.onGate g φ).lastingGates = s.lastingGates := by
  unfold State.lastingGates
  rw [State.onGate_gates, Tbl.adjust, List.map_map]
  refine List.map_congr_left fun p _ => ?_
  by_cases hp : p.1 = g <;> simp [hp, h]

theorem lastingGates_onArrival {φ : Arrival → Arrival} (h : ∀ b, (φ b).returned = b.returned) (s : State) (g pos : Nat) :
    (s.onArrival g pos φ).lastingGates = s.lastingGates := by
  refine lastingGates_onGate (fun y => ?_) s g
  have hqueue : (y.queue.modify (pos - 1) φ).map Arrival.returned = y.queue.map Arrival.returned := by
    apply List.ext_getElem?
    intro i
    rw [List.getElem?_map, List.getElem?_modify, List.getElem?_map]
    cases y.queue[i]? with
    | none => rfl
    | some b => by_cases hi : pos - 1 = i <;> simp [hi, h]
  unfold Gate.lasting
  dsimp only
  rw [hqueue]

/-- A further operation that leaves the gates, after what head processing has written. -/
theorem Touches.lastingGates (h : Touches parts s t) (hx : .gates ∉ parts := by simp) : t.lastingGates = s.lastingGates :=
  lastingGates_congr (h.gates hx)

theorem touches_onGate (s : State) (g : Nat) (φ : Gate → Gate) : Touches [.gates] s (s.onGate g φ) := (acts_onGate s g φ).touches

theorem touches_onArrival (s : State) (g pos : Nat) (φ : Arrival → Arrival) : Touches [.gates] s (s.onArrival g pos φ) :=
  touches_onGate s g _

/-- What head processing may do: it touches the depot's parts, and writes of the gates what it writes. -/
def Processes (s t : State) : Prop := Touches depotParts s t ∧ t.lastingGates = s.lastingGates

theorem processes_none (s : State) : Processes s s := ⟨touches_none s _, rfl⟩

theorem Processes.next {u : State} (h : Processes s t) (h' : Touches parts t u) (hg : u.lastingGates = t.lastingGates)
    (hp : parts ⊆ depotParts := by simp) : Processes s u := ⟨h.1.next h' hp, hg.trans h.2⟩

theorem Processes.apart {u : State} (h : Processes s t) (h' : Touches parts t u) (hp : parts ⊆ depotParts := by simp)
    (hx : .gates ∉ parts := by simp) : Processes s u := h.next h' (h'.lastingGates hx) hp

theorem Processes.onGate {φ : Gate → Gate} (h : Processes s t) (hφ : ∀ y, (φ y).lasting = y.lasting) : Processes s (t.onGate g φ) :=
  h.next (touches_onGate t g φ) (lastingGates_onGate hφ t g)

theorem Processes.onArrival {φ : Arrival → Arrival} {pos : Nat} (h : Processes s t) (hφ : ∀ b, (φ b).returned = b.returned) :
    Processes s (t.onArrival g pos φ) := h.next (touches_onArrival t g pos φ) (lastingGates_onArrival hφ t g pos)

theorem Processes.postQueue {pos : Nat} (h : Processes s t) (c : QueueCause) : Processes s (t.postQueue g pos c) :=
  h.apart (touches_postQueue t g pos c)

/-- R115: what became of the request of an arrival route is noted at the gate. -/
def State.arrivalGranted (g fleet : Nat) (own : StackReport) : State × Granted → State
  | (s, .accepted slot) => (s.onArrival g 1 (fun a => { a with slot := some slot })).postQueue g 1 .allocated
  | (s, .stored _) => s.postQueue g 1 .allocated
  | (s, .refused why _) =>
    (((s.releaseClaim g fleet).onGate g (fun x => { x with ownReport := some own })).onArrival g 1 Arrival.returned).postQueue g 1
      (.routeRefused why)

theorem requestArrival_eq (g fleet n : Nat) (s : State) : s.requestArrival g fleet n =
    State.arrivalGranted g fleet (s.stackReport .reserved none) (match s.lookup .arrival g n with
      | some route => s.requestRoute [.arrival] ⟨route, .auto, .gateArrival g fleet, none⟩
      | none => (s, .refused .unavailable [])) := by
  unfold State.requestArrival State.arrivalGranted
  cases s.lookup .arrival g n <;> rfl

theorem Processes.arrivalGranted {r : State × Granted} (h : Processes s r.1) (g fleet : Nat) (own : StackReport) :
    Processes s (State.arrivalGranted g fleet own r) := by
  obtain ⟨v, granted⟩ := r
  cases granted with
  | accepted slot => exact (h.onArrival (φ := fun a => { a with slot := some slot }) fun _ => rfl).postQueue .allocated
  | stored pos => exact h.postQueue _
  | refused why object =>
    have hrelease := h.apart (touches_releaseClaim v g fleet)
    exact ((hrelease.onGate (φ := fun x => { x with ownReport := some own }) fun _ => rfl).onArrival
      (φ := Arrival.returned) fun _ => rfl).postQueue (.routeRefused why)

theorem Processes.requestArrival (h : Processes s t) (g fleet n : Nat) : Processes s (t.requestArrival g fleet n) := by
  rw [requestArrival_eq]
  refine Processes.arrivalGranted ?_ g fleet _
  cases t.lookup .arrival g n with
  | none => exact h
  | some route => exact h.apart (touches_requestRoute _ _ t)

theorem Processes.noPlace (h : Processes s t) (g fleet : Nat) (why : PlaceReason) : Processes s (t.noPlace g fleet why) := by
  unfold State.noPlace
  split
  · split
    · exact h
    · exact (h.onGate (φ := fun x => { x with placeNone := some why }) fun _ => rfl).apart (acts_post _ _ _ _).touches
  · exact h

/-- R114: whatever head processing comes to. -/
theorem processes_processHead (s : State) (g : Nat) : Processes s (s.processHead g) := by
  unfold State.processHead
  split
  · exact processes_none s
  split
  · rename_i fleet length mandatory wanted _ _ _ _
    split
    · split
      · rename_i v n hv
        have hplace := (processes_none s).apart (allocate_siding hv).1
        exact ((hplace.onArrival (φ := fun a => { a with state := .allocated, siding := some n }) fun _ => rfl).onGate
          (φ := fun x => { x with placeNone := none }) fun _ => rfl).requestArrival _ _ _
      · rename_i v why hv
        rw [allocate_same hv (by simp)]
        exact (processes_none s).noPlace _ _ _
      · rename_i v hv
        rw [allocate_same hv (by simp)]
        exact processes_none s
    · exact processes_none s
  · exact processes_none s

/-- R114: the records of a gate through head processing, and the fields that it does not write. -/
theorem find_processHead (hx : Tbl.find g t.gates = some x) (m : Nat) :
    ∃ y, Tbl.find g (t.processHead m).gates = some y ∧ y.lasting = x.lasting := by
  have hlasting := find_lastingGates (t.processHead m) g
  rw [(processes_processHead t m).2, find_lastingGates, hx] at hlasting
  cases hy : Tbl.find g (t.processHead m).gates with
  | none => simp [hy] at hlasting
  | some y => exact ⟨y, rfl, by simpa [hy] using hlasting.symm⟩

theorem lasting_fleets {y : Gate} (h : y.lasting = x.lasting) : y.queue.map Arrival.fleet = x.queue.map Arrival.fleet := by
  have hfleets (z : Gate) : z.lasting.queue.map Arrival.fleet = z.queue.map Arrival.fleet := by
    simp [Gate.lasting, Function.comp_def, Arrival.returned]
  rw [← hfleets y, h, hfleets]

/-- A record of the queue has its state, siding and slot alone from head processing. -/
theorem lasting_record {y : Gate} {i : Nat} (h : y.lasting = x.lasting) (ha : x.queue[i]? = some a) :
    ∃ b, y.queue[i]? = some b ∧ b.returned = a.returned := by
  have hqueue : y.queue.map Arrival.returned = x.queue.map Arrival.returned := congrArg Gate.queue h
  have hi := congrArg (·[i]?) hqueue
  simp only [List.getElem?_map, ha, Option.map_some, Option.map_eq_some_iff] at hi
  exact hi

/-- R114: a head that is not WAITING, is marked or paused, or is not known, is left as it stands. -/
theorem processHead_idle (hx : Tbl.find g s.gates = some x) (h : ∀ a ∈ x.queue.head?, a.state ≠ .waiting ∨ a.mark ≠ .none ∨
    a.paused = true ∨ a.fleet = none ∨ a.length = none ∨ a.mandatory = none ∨ a.wanted = none) : s.processHead g = s := by
  unfold State.processHead
  rw [hx]
  dsimp only [Option.bind_some]
  cases hhead : x.queue.head? with
  | none => rfl
  | some a =>
    have ha := h a hhead
    dsimp only
    split
    · rename_i hf hl hma hwa
      rw [if_neg]
      rintro ⟨hstate, hmark, hpaused⟩
      simp [hstate, hmark, hpaused, hf, hl, hma, hwa] at ha
    · rfl

/-! ## A record joins the queue (R111) -/

/-- R111, R112: a record joins the tail of the queue in hand; one that is the head then is a new head, and is processed. -/
theorem GateTaken.joinQueue (h : GateTaken parts sent f s g x t) (a : Arrival) (c : QueueCause) :
    ∃ v, t.joinQueue g a c = headIf (decide (x.queue = [])) g v ∧
      GateTaken parts sent (fun v => queueNotice g (x.queue.length + 1) a c.fields (f v)) s g
        { x with
          queue := x.queue ++ [a], held := heldAfter s.param.queueHighMark true x.held (x.queue ++ [a])
          placeNone := if x.queue = [] then none else x.placeNone } v := by
  have htail := h.onGate (fun x => { x with queue := x.queue ++ [a] })
  have hnoted := (htail.postQueue (i := x.queue.length) (a := a) (by simp) c).queueChanged true
  have hpos : ((Tbl.find g t.gates).map (fun x => x.queue.length)).getD 0 + 1 = x.queue.length + 1 := by rw [h.find]; rfl
  unfold State.joinQueue
  dsimp only
  rw [hpos]
  by_cases hempty : x.queue = []
  · have hone : x.queue.length + 1 = 1 := by rw [hempty]; rfl
    rw [hone] at hnoted ⊢
    refine ⟨_, by rw [if_pos rfl, decide_eq_true hempty]; rfl, ?_⟩
    simp only [if_pos hempty]
    exact hnoted.onGate (fun x => { x with placeNone := none })
  · have hmore : ¬x.queue.length + 1 = 1 := by simpa using hempty
    refine ⟨_, by rw [if_neg hmore, decide_eq_false hempty]; rfl, ?_⟩
    simp only [if_neg hempty]
    exact hnoted

end

end Sys2Proof.Machine

/-! # Restart at a gate, and the held reasons (06 sections 6.6, 6.9) -/

namespace Sys2Proof.Machine

section

variable {s t : State} {g : Nat} {x : Gate} {d : GateDef}

/-! ## Release claims and the gates (R131) -/

/-- A report reads nothing of the gates but their numbers. -/
theorem report_onGate (s : State) (g : Nat) (φ : Gate → Gate) (c : StackCause) (r : Option Nat) :
    (s.onGate g φ).report c r = (s.report c r).onGate g φ := by
  have hwalk (l : List Nat) (rep : StackReport) (t : State) :
      l.foldl (fun t m => t.send (.stackingReport m rep)) (t.onGate g φ) =
        (l.foldl (fun t m => t.send (.stackingReport m rep)) t).onGate g φ := by
    induction l generalizing t with
    | nil => rfl
    | cons m l ih => exact ih (t.send _)
  have hkeys : Tbl.keys (s.onGate g φ).gates = Tbl.keys s.gates := Tbl.keys_adjust g φ s.gates
  unfold State.report
  rw [hkeys]
  exact hwalk _ (s.stackReport c r) s

theorem releaseClaim_onGate (s : State) (m : Nat) (φ : Gate → Gate) (g fleet : Nat) :
    (s.onGate m φ).releaseClaim g fleet = (s.releaseClaim g fleet).onGate m φ := by
  have htram : (s.onGate m φ).findTram fleet = s.findTram fleet := rfl
  unfold State.releaseClaim
  rw [htram]
  cases s.findTram fleet with
  | none => rfl
  | some p =>
    obtain ⟨n, r, i, y⟩ := p
    dsimp only
    split
    · exact report_onGate ((s.dropRecord n fleet).postStack n fleet (i + 1) none .released) m φ .released (some g)
    · rfl

/-- R131: a release claim leaves the shunt table, and what supervision has handed. -/
theorem releaseClaim_shunts (s : State) (g fleet : Nat) :
    (s.releaseClaim g fleet).stab.shunts = s.stab.shunts ∧ (s.releaseClaim g fleet).stab.handed = s.stab.handed := by
  unfold State.releaseClaim
  split
  · split
    · rw [(touches_report _ _ _).stab]
      exact ⟨rfl, rfl⟩
    · exact ⟨rfl, rfl⟩
  · exact ⟨rfl, rfl⟩

/-! ## One record at a restart (R124) -/

/-- R124: a restart changes a record that was not WAITING, had a siding or a slot, or was paused. -/
theorem restart_eq_self (a : Arrival) : { a.restart with isWindow := a.isWindow } = a ↔
    (decide (a.state ≠ .waiting) || a.siding.isSome || a.slot.isSome || a.paused) = false := by
  obtain ⟨fleet, claimed, length, mandatory, wanted, mark, state, siding, slot, paused, readTime, isWindow⟩ := a
  simp [Arrival.restart, Arrival.returned, eq_comm (a := ArrivalState.waiting), eq_comm (a := none) (b := siding),
    eq_comm (a := none) (b := slot), eq_comm (a := false) (b := paused), and_assoc]

theorem restartArrival_onGate (g m : Nat) (φ : Gate → Gate) (s : State) (p : Arrival × Nat) :
    State.restartArrival g (s.onGate m φ) p = (State.restartArrival g s p).onGate m φ := by
  have hnotice : (if { p.1.restart with isWindow := p.1.isWindow } = p.1 then s.onGate m φ
        else (s.onGate m φ).postArrival g (p.2 + 1) p.1.restart .restart) =
      (if { p.1.restart with isWindow := p.1.isWindow } = p.1 then s
        else s.postArrival g (p.2 + 1) p.1.restart .restart).onGate m φ := by
    split <;> rfl
  unfold State.restartArrival
  dsimp only
  rw [hnotice]
  split
  · rfl
  · exact releaseClaim_onGate _ m φ g _
  · rfl

theorem touches_restartArrival (g : Nat) (s : State) (p : Arrival × Nat) : Touches [.stabling] s (State.restartArrival g s p) := by
  have hnotice : Touches [.stabling] s (if { p.1.restart with isWindow := p.1.isWindow } = p.1 then s
      else s.postArrival g (p.2 + 1) p.1.restart .restart) := by
    split
    · exact touches_none s _
    · exact ((acts_post s _ _ _).touches).mono (List.nil_subset _)
  unfold State.restartArrival
  dsimp only
  split
  · exact hnotice
  · exact hnotice.next (touches_releaseClaim _ g _)
  · exact hnotice

theorem restartArrival_shunts (g : Nat) (s : State) (p : Arrival × Nat) :
    (State.restartArrival g s p).stab.shunts = s.stab.shunts ∧ (State.restartArrival g s p).stab.handed = s.stab.handed := by
  have hnotice : (if { p.1.restart with isWindow := p.1.isWindow } = p.1 then s
      else s.postArrival g (p.2 + 1) p.1.restart .restart).stab = s.stab := by
    split <;> rfl
  unfold State.restartArrival
  dsimp only
  split
  · rw [hnotice]; exact ⟨rfl, rfl⟩
  · rw [← hnotice]; exact releaseClaim_shunts _ g _
  · rw [hnotice]; exact ⟨rfl, rfl⟩

/-! ## The records one after another (R124) -/

/-- R124: the records of a queue from the head. -/
def State.restartQueue (g : Nat) (l : List (Arrival × Nat)) (s : State) : State := l.foldl (State.restartArrival g) s

theorem restartQueue_onGate (g m : Nat) (φ : Gate → Gate) (l : List (Arrival × Nat)) (s : State) :
    (s.onGate m φ).restartQueue g l = (s.restartQueue g l).onGate m φ := by
  induction l generalizing s with
  | nil => rfl
  | cons p l ih =>
    unfold State.restartQueue at ih ⊢
    rw [List.foldl_cons, restartArrival_onGate, ih]
    rfl

theorem touches_restartQueue (g : Nat) (l : List (Arrival × Nat)) (s : State) : Touches [.stabling] s (s.restartQueue g l) :=
  acts_foldl (by simp) (touches_restartArrival g) l s

theorem restartQueue_shunts (g : Nat) (l : List (Arrival × Nat)) (s : State) :
    (s.restartQueue g l).stab.shunts = s.stab.shunts ∧ (s.restartQueue g l).stab.handed = s.stab.handed := by
  induction l generalizing s with
  | nil => exact ⟨rfl, rfl⟩
  | cons p l ih =>
    obtain ⟨hshunts, hhanded⟩ := ih (State.restartArrival g s p)
    obtain ⟨hshunts', hhanded'⟩ := restartArrival_shunts g s p
    exact ⟨hshunts.trans hshunts', hhanded.trans hhanded'⟩

/-- R124: a restart at a defined gate. -/
theorem exec_gateRestart (hat : GateAt g d x s) : exec (.gateRestart g) s =
    .next ((((s.take (.gateRestart g)).restartQueue g x.queue.zipIdx).onGate g (Gate.restart (s.isOccupied d.reader))).send
      (.restartTakenReport (.gate g))).settle := by
  obtain ⟨hd, hx⟩ := hat
  rw [← restartQueue_onGate]
  change execGateRestart g s = _
  unfold execGateRestart
  dsimp only
  simp only [State.take_gates, State.take_desc, hx, hd]
  rfl

/-- The state that a restart leaves has the restarted gate and else what its notices and claims leave. -/
theorem touches_gateRestart (c i : Instr) (l : List (Arrival × Nat)) (φ : Gate → Gate) :
    ∃ sent f, Acts [.gates, .stabling] sent f (s.take c) ((((s.take c).restartQueue g l).onGate g φ).send i) := by
  have hqueue := (touches_restartQueue g l (s.take c)).mono (parts' := [.gates, .stabling]) (by simp)
  exact (hqueue.next (touches_onGate _ g φ)).next (acts_send _ i).touches

/-- Settles O25: the records from the head (`restartQueue_onGate`, `restartQueue_shunts`), and the gate that is left. -/
theorem gateRestartReturnsRecords : Obligations.GateRestartReturnsRecords := by
  intro g d x s hat back changes returned t
  have hreturned : returned = State.restartArrival g := by
    funext v p
    have hself : _ ↔ changes p.1 = false := restart_eq_self p.1
    have hnotice : (if changes p.1 then queueNotice g (p.2 + 1) (back p.1) [.u8 13] v else v) =
        if { p.1.restart with isWindow := p.1.isWindow } = p.1 then v else v.postArrival g (p.2 + 1) p.1.restart .restart := by
      cases hchanges : changes p.1 with
      | false => exact (if_neg Bool.false_ne_true).trans (if_pos (hself.mpr hchanges)).symm
      | true => exact (if_pos rfl).trans (if_neg (mt hself.mp (by simp [hchanges]))).symm
    exact congrArg (fun w : State => match p.1.state, p.1.fleet with
      | .waiting, _ => w
      | _, some f => w.releaseClaim g f
      | _, none => w) hnotice
  have ht : t = (s.take (.gateRestart g)).restartQueue g x.queue.zipIdx :=
    congrArg (fun r => x.queue.zipIdx.foldl r (s.take (.gateRestart g))) hreturned
  obtain ⟨sent, f, hacts⟩ := touches_gateRestart (s := s) (g := g) (.gateRestart g) (.restartTakenReport (.gate g)) x.queue.zipIdx
    (Gate.restart (s.isOccupied d.reader))
  obtain ⟨hkeeps, -, -, hanswered⟩ := hacts.afterTake
  refine ⟨_, exec_gateRestart hat, hkeeps, hanswered, ?_⟩
  obtain ⟨hshunts, hhanded⟩ := restartQueue_shunts g x.queue.zipIdx (s.take (.gateRestart g))
  have hgates := (touches_restartQueue g x.queue.zipIdx (s.take (.gateRestart g))).gates
  rw [← ht] at hshunts hhanded hgates ⊢
  refine ⟨by simp [State.send], rfl, fun p => by simp, rfl, hshunts, hhanded, ?_⟩
  rw [State.send_gates, State.onGate_gates, hgates]
  exact put_adjust hat.2 rfl

/-! ## The held reasons (R118) -/

theorem held_onGate {c : Instr} (hx : Tbl.find g s.gates = some x) (φ : Held → Held) :
    GateTaken [.gates] [] id (s.take c) g { x with held := φ x.held } ((s.take c).onGate g (fun x => { x with held := φ x.held })) :=
  (gateTaken_found (s := s.take c) hx).onGate (fun x => { x with held := φ x.held })

/-- Settles O21: the reasons by the claim that sets or clears them; the commit's starting gates are `find_enterRun_gates`. -/
theorem heldReasonsOnClaims : Obligations.HeldReasonsOnClaims := by
  refine ⟨fun q g v d x s hat => ⟨fun hq ho => ⟨?_, ?_⟩, ?_, ?_⟩, fun q g s hq hop hfault => ?_⟩
  · exact ⟨_, exec_gateRequest hat ho rfl (by rw [hq]; rfl) rfl rfl rfl (takeGate_found (s := s.take _) hat.2 _),
      (held_onGate hat.2 (fun h => { h with forced := true })).repliedUnsent _ _ _⟩
  · exact ⟨_, exec_gateRequest hat ho rfl (by rw [hq]; rfl) rfl rfl rfl (takeGate_found (s := s.take _) hat.2 _),
      (held_onGate hat.2 (fun h => { h with forced := false, restart := false })).repliedUnsent _ _ _⟩
  · exact ⟨_, rfl, (held_onGate hat.2 (fun h => { h with halt := v })).takenUnsent⟩
  · obtain ⟨u, hexec, -, -, -, -, -, -, -, -, hput⟩ := gateRestartReturnsRecords g d x s hat
    exact ⟨u, _, hexec, (hput g).trans (if_pos rfl), rfl⟩
  · refine ⟨(s.take (.configCommit q)).enterRun.reply .configCommit q .done, ?_, fun y hy => ?_⟩
    · refine (takeRequest_config (k := .configCommit) (i := .configCommit q) (by rw [hq]; rfl) rfl rfl hop rfl takeCommit).trans ?_
      simp [takeCommit, hfault, done]
    · rw [State.reply_gates, find_enterRun_gates, Option.map_eq_some_iff] at hy
      obtain ⟨e, -, rfl⟩ := hy
      rfl

end

end Sys2Proof.Machine

/-! # The reader links and their frames (06 sections 6.2, 6.3, 6.7; 09 section 9.7) -/

namespace Sys2Proof.Machine

section

variable {s t : State} {g : Nat} {x : Gate} {d : GateDef}

/-! ## A reader link, byte by byte -/

/-- Two changes of a gate that come to one. -/
theorem onGate_onGate {φ ψ χ : Gate → Gate} (h : ∀ y, φ (ψ y) = χ y) (s : State) (g : Nat) :
    (s.onGate g ψ).onGate g φ = s.onGate g χ := by
  have hgates : Tbl.adjust g φ (Tbl.adjust g ψ s.gates) = Tbl.adjust g χ s.gates := by
    unfold Tbl.adjust
    rw [List.map_map]
    refine List.map_congr_left fun p _ => ?_
    by_cases hp : p.1 = g <;> simp [hp, h]
  change { s with gates := Tbl.adjust g φ (Tbl.adjust g ψ s.gates) } = { s with gates := Tbl.adjust g χ s.gates }
  rw [hgates]

/-- One reader link of a gate: where its receiver's bytes are held, how they are changed, and what the eight bytes of a frame do. -/
structure ReaderLink where
  held : Gate → Option (List Byte)
  hold : Option (List Byte) → Gate → Gate
  take : Nat → List Byte → State → State

/-- The receiver's bytes are one field of the gate. -/
structure ReaderLink.Lawful (k : ReaderLink) : Prop where
  held_hold : ∀ r y, k.held (k.hold r y) = r
  hold_hold : ∀ r r' y, k.hold r (k.hold r' y) = k.hold r y

/-- One byte on a link. -/
def ReaderLink.byte (k : ReaderLink) (g : Nat) (s : State) (b : Byte) : State :=
  match Tbl.find g s.gates with
  | none => s
  | some x =>
    let out := readerByte (k.held x) b
    let s := s.onGate g (k.hold out.1)
    match out.2 with
    | some l => k.take g l s
    | none => s

/-- The inbound link (R104, R108, R110). -/
def inboundLink : ReaderLink where
  held := Gate.rxIn
  hold bytes x := { x with rxIn := bytes }
  take g l s := match readerFrame false l with | some f => s.takeInbound g f | none => s

/-- The outbound link (R104, R120). -/
def outboundLink : ReaderLink where
  held := Gate.rxOut
  hold bytes x := { x with rxOut := bytes }
  take g l s := match readerFrame true l with | some f => s.takeOutbound g f | none => s

theorem inboundLink_lawful : inboundLink.Lawful := ⟨fun _ _ => rfl, fun _ _ _ => rfl⟩

theorem outboundLink_lawful : outboundLink.Lawful := ⟨fun _ _ => rfl, fun _ _ _ => rfl⟩

theorem inboundByte_eq (g : Nat) : State.inboundByte g = inboundLink.byte g := by
  funext s b
  unfold State.inboundByte ReaderLink.byte inboundLink
  cases Tbl.find g s.gates with
  | none => rfl
  | some x => dsimp only; cases (readerByte x.rxIn b).2 <;> rfl

theorem outboundByte_eq (g : Nat) : State.outboundByte g = outboundLink.byte g := by
  funext s b
  unfold State.outboundByte ReaderLink.byte outboundLink
  cases Tbl.find g s.gates with
  | none => rfl
  | some x => dsimp only; cases (readerByte x.rxOut b).2 <;> rfl

theorem exec_inboundFrame (g : Nat) (l : List Byte) (s : State) :
    exec (.inboundFrame g l) s = .next (l.foldl (inboundLink.byte g) s).settle := by
  rw [← inboundByte_eq]
  rfl

theorem exec_outboundFrame (g : Nat) (l : List Byte) (s : State) :
    exec (.outboundFrame g l) s = .next (l.foldl (outboundLink.byte g) s).settle := by
  rw [← outboundByte_eq]
  rfl

section

variable {k : ReaderLink}

/-- A byte that ends no frame changes what is held. -/
theorem ReaderLink.byte_holds {b : Byte} {r : Option (List Byte)} (hx : Tbl.find g s.gates = some x)
    (h : readerByte (k.held x) b = (r, none)) : k.byte g s b = s.onGate g (k.hold r) := by
  unfold ReaderLink.byte
  rw [hx]
  dsimp only
  rw [h]

/-- The eighth byte of a frame. -/
theorem ReaderLink.byte_ends {got : List Byte} (hx : Tbl.find g s.gates = some x) (hheld : k.held x = some got)
    (hlen : got.length = 7) (b : Byte) : k.byte g s b = k.take g (got ++ [b]) (s.onGate g (k.hold none)) := by
  have h : readerByte (k.held x) b = (none, some (got ++ [b])) := by rw [hheld]; exact if_pos hlen
  unfold ReaderLink.byte
  rw [hx]
  dsimp only
  rw [h]

theorem find_hold (k : ReaderLink) (r : Option (List Byte)) (hx : Tbl.find g s.gates = some x) :
    Tbl.find g (s.onGate g (k.hold r)).gates = some (k.hold r x) := by
  rw [State.onGate_gates, Tbl.find_adjust, hx]
  simp

/-- The bytes of a frame that has begun, up to the seventh. -/
theorem ReaderLink.bytes_held (hk : k.Lawful) {got l : List Byte} (hx : Tbl.find g s.gates = some x) (hlen : got.length + l.length ≤ 7) :
    l.foldl (k.byte g) (s.onGate g (k.hold (some got))) = s.onGate g (k.hold (some (got ++ l))) := by
  induction l generalizing got with
  | nil => simp
  | cons b l ih =>
    rw [List.length_cons] at hlen
    have hne : got.length ≠ 7 := by omega
    have hheld : readerByte (k.held (k.hold (some got) x)) b = (some (got ++ [b]), none) := by
      rw [hk.held_hold]
      exact if_neg hne
    rw [List.foldl_cons, ReaderLink.byte_holds (find_hold k _ hx) hheld, onGate_onGate (hk.hold_hold _ _),
      ih (by rw [List.length_append, List.length_singleton]; omega), List.append_assoc]
    rfl

/-- 09 section 9.7: the nine bytes of a frame, with none being assembled. -/
theorem ReaderLink.frame_taken (hk : k.Lawful) {l : List Byte} (hx : Tbl.find g s.gates = some x) (hheld : k.held x = none)
    (hlen : l.length = 8) : (0x5A :: l).foldl (k.byte g) s = k.take g l (s.onGate g (k.hold none)) := by
  have hbegin : readerByte (k.held x) 0x5A = (some [], none) := by rw [hheld]; rfl
  obtain ⟨l, b, rfl⟩ : ∃ l' b, l = l' ++ [b] := ⟨_, _, (List.dropLast_append_getLast (List.ne_nil_of_length_pos (by omega))).symm⟩
  rw [List.length_append, List.length_singleton] at hlen
  rw [List.foldl_cons, ReaderLink.byte_holds hx hbegin, List.foldl_append,
    ReaderLink.bytes_held hk hx (by rw [List.length_nil]; omega), List.nil_append, List.foldl_cons, List.foldl_nil,
    ReaderLink.byte_ends (find_hold k _ hx) (hk.held_hold _ _) (by omega), onGate_onGate (hk.hold_hold _ _)]

/-- 09 section 9.7, R104: the bytes of a link make frames. -/
theorem ReaderLink.bytesMakeFrames (hk : k.Lawful) {c : List Byte → Instr}
    (hexec : ∀ l s, exec (c l) s = .next (l.foldl (k.byte g) s).settle) : BytesMakeFrames g c k.held k.hold := by
  intro x s hx
  refine ⟨fun as bs => ⟨as.foldl (k.byte g) s, hexec as s, ?_⟩, fun b => ?_⟩
  · rw [hexec, hexec, List.foldl_append]
  have hholds {r : Option (List Byte)} (h : readerByte (k.held x) b = (r, none)) : ∃ u, exec (c [b]) s = .next u.settle ∧
      Effect [.gates] s.claims id none s u ∧ Put g (k.hold r x) s.gates u.gates :=
    ⟨s.onGate g (k.hold r), by rw [hexec, List.foldl_cons, List.foldl_nil, ReaderLink.byte_holds hx h],
      ((gateTaken_found hx).onGate (k.hold r)).unsent⟩
  refine ⟨fun hheld => hholds (by rw [hheld]; rfl), fun got hheld => ⟨fun hlen => hholds ?_, fun hlen => ?_⟩⟩
  · rw [hheld]
    exact if_neg hlen.ne
  · obtain ⟨heffect, hput⟩ := ((gateTaken_found hx).onGate (k.hold none)).unsent
    refine ⟨s.onGate g (k.hold none), heffect, hput, ?_⟩
    rw [hexec, hexec, List.foldl_cons, List.foldl_nil, ReaderLink.byte_ends hx hheld hlen,
      ReaderLink.frame_taken hk (find_hold k none hx) (hk.held_hold _ _) (by simp [hlen]), onGate_onGate (hk.hold_hold _ _)]

end

/-! ## The nine bytes of a frame (R104) -/

/-- R168: the CRC bytes, high byte first. -/
theorem crcBytes_eq_iff (l : List Byte) (high low : Byte) : crcBytes l = [high, low] ↔ crc16 l = high ++ low := by
  have hjoin : (high ++ low).toNat = high.toNat * 256 + low.toNat := by
    rw [BitVec.toNat_append, ← Nat.shiftLeft_add_eq_or_of_lt low.isLt, Nat.shiftLeft_eq]
  have hhigh := high.isLt
  have hlow := low.isLt
  have hc := (crc16 l).isLt
  simp only [crcBytes, List.cons.injEq, and_true, ← BitVec.toNat_inj, hjoin, BitVec.truncate_eq_setWidth, BitVec.toNat_setWidth,
    BitVec.toNat_ushiftRight, Nat.shiftRight_eq_div_pow]
  omega

theorem readerFrame_valid {outbound : Bool} {b : TagBytes} (h : b.valid outbound) : readerFrame outbound b.bytes = some b.frame := by
  obtain ⟨hcrc, hside, hrange⟩ := h
  exact if_pos ⟨(crcBytes_eq_iff _ _ _).mpr hcrc, hside, hrange⟩

theorem readerFrame_invalid {outbound : Bool} {b : TagBytes} (h : ¬b.valid outbound) : readerFrame outbound b.bytes = none :=
  if_neg fun ⟨hcrc, hrest⟩ => h ⟨(crcBytes_eq_iff _ _ _).mp hcrc, hrest⟩

end

end Sys2Proof.Machine

/-! # Inbound frames and the pass window (06 sections 6.3, 6.4) -/

namespace Sys2Proof.Machine

section

variable {s t : State} {parts : List Part} {sent : List Instr} {f : State → State} {g : Nat} {x : Gate} {d : GateDef} {fr : ReaderFrame}

/-! ## A frame in an open window (R105, R107, R108) -/

theorem takeInWindow_repeated (h : x.inToggle = some fr.toggle) (t : State) : t.takeInWindow g x d fr = t := if_pos h

/-- R105: a first frame in the window. -/
theorem takeInWindow_first (hanew : x.inToggle ≠ some fr.toggle) (hw : x.window = .wait ∨ x.window = .untimed) (t : State) :
    t.takeInWindow g x d fr = (t.onGate g (fun x => { x with inToggle := some fr.toggle })).createRecord g x fr := by
  unfold State.takeInWindow
  rw [if_neg hanew]
  rcases hw with hw | hw <;> rw [hw]

/-- R108: a second tag of the pass. -/
theorem takeInWindow_second (hanew : x.inToggle ≠ some fr.toggle) (hw : x.window = .read) (t : State) :
    t.takeInWindow g x d fr =
      (t.onGate g (fun x => { x with inToggle := some fr.toggle })).onSection d.reader (fun r => { r with noise := true }) := by
  unfold State.takeInWindow
  rw [if_neg hanew, hw]

/-- R107: a frame of a pass that is an overrun. -/
theorem takeInWindow_overrun (hanew : x.inToggle ≠ some fr.toggle) (hw : x.window = .overrun) (t : State) :
    t.takeInWindow g x d fr = t.onGate g (fun x => { x with inToggle := some fr.toggle }) := by
  unfold State.takeInWindow
  rw [if_neg hanew, hw]

/-- R108: a late frame. -/
theorem takeInWindow_late (hanew : x.inToggle ≠ some fr.toggle) (hw : x.window = .unread) (t : State) :
    t.takeInWindow g x d fr = (t.onGate g (fun x => { x with inToggle := some fr.toggle, window := .read })).fillRecord g x fr := by
  unfold State.takeInWindow
  rw [if_neg hanew, hw]
  exact congrArg (State.fillRecord g x fr) (onGate_onGate (fun _ => rfl) t g)

/-- R107: with 4 records queued a first frame makes an overrun. -/
theorem createRecord_full {y : Gate} (h : GateTaken parts sent f s g x t) (hy : y.queue = x.queue) (hfull : x.queue.length = 4) :
    GateTaken parts (sent ++ [.alarmRaise (.gateOverrun g)]) f s g
      { x with window := .overrun, waitTimer := none, held := { x.held with overrun := true } } (t.createRecord g y fr) := by
  have hover : t.createRecord g y fr = t.overrun g := if_pos (by rw [hy]; exact hfull)
  rw [hover]
  exact h.overrun

/-- R105: with fewer records a first frame makes one at the tail, and a new head is processed. -/
theorem createRecord_room {y : Gate} (h : GateTaken parts sent f s g x t) (hy : y.queue = x.queue) (hroom : x.queue.length ≠ 4)
    (hid : t.identify fr = s.identify fr) : ∃ v, t.createRecord g y fr = headIf (decide (x.queue = [])) g v ∧
      GateTaken parts sent
        (fun v => queueNotice g (x.queue.length + 1) (readRecord s fr blankRecord) [.u8 1] (f v)) s g
        { x with
          window := .read, waitTimer := none, queue := x.queue ++ [readRecord s fr blankRecord]
          placeNone := if x.queue = [] then none else x.placeNone
          held := heldAfter s.param.queueHighMark true x.held (x.queue ++ [readRecord s fr blankRecord]) } v := by
  have hwindow := h.onGate (fun x => { x with window := .read, waitTimer := none })
  have hcreate : t.createRecord g y fr = (t.onGate g (fun x => { x with window := .read, waitTimer := none })).joinQueue g
      (readRecord s fr blankRecord) .read := by
    have hrecord : (t.onGate g (fun x => { x with window := .read, waitTimer := none })).identify fr (Arrival.blank t.minute) =
        readRecord s fr blankRecord := by
      rw [identify_onGate, hid, identify_eq]
      · rfl
      · exact fun _ => rfl
    refine (if_neg (by rw [hy]; exact hroom)).trans ?_
    exact congrArg (fun a => State.joinQueue g a .read _) hrecord
  rw [hcreate]
  exact hwindow.joinQueue _ _

/-- R108: a late frame fills the window record, if it still stands with mark UNREAD. -/
theorem fillRecord_none {y : Gate} (h : y.queue.findIdx? (fun a => a.isWindow && a.mark = .unread) = none) (t : State) :
    t.fillRecord g y fr = t := by
  unfold State.fillRecord
  rw [h]

theorem fillRecord_some {y : Gate} {i : Nat} {a : Arrival} (h : GateTaken parts sent f s g x t) (hy : y.queue = x.queue)
    (hi : x.queue.findIdx? (fun a => a.isWindow && a.mark = .unread) = some i) (ha : x.queue[i]? = some a)
    (hid : t.identify fr = s.identify fr) :
    ∃ v, t.fillRecord g y fr = headIf (decide (i = 0)) g v ∧
      GateTaken parts sent (fun v => queueNotice g (i + 1) (readRecord s fr a) [.u8 3] (f v)) s g
        { x with
          queue := x.queue.set i (readRecord s fr a)
          held := heldAfter s.param.queueHighMark false x.held (x.queue.set i (readRecord s fr a)) } v := by
  have hlen := (List.getElem?_eq_some_iff.mp ha).1
  have hfilled := h.onArrival ha (t.identify fr)
  rw [hid, identify_eq, ← hid] at hfilled
  have hnoted := (hfilled.postQueue (i := i) (a := readRecord s fr a) (by simp [hlen]) .filled).queueChanged false
  refine ⟨_, ?_, hnoted⟩
  unfold State.fillRecord headIf
  rw [hy, hi]
  by_cases hzero : i = 0 <;> simp [hzero]

/-! ## Inbound frames (R104, R110) -/

theorem takeInbound_open (hd : Tbl.find g t.desc.gates = some d) (hx : Tbl.find g t.gates = some x) (hw : x.window ≠ .closed) :
    t.takeInbound g fr = t.takeInWindow g x d fr := by
  unfold State.takeInbound
  rw [hx, hd]
  exact if_neg hw

/-- R110: a frame while the window is CLOSED waits in the early-read slot. -/
theorem takeInbound_closed (hd : Tbl.find g t.desc.gates = some d) (hx : Tbl.find g t.gates = some x) (hw : x.window = .closed) :
    t.takeInbound g fr = if x.early.isSome then t
      else t.onGate g (fun x => { x with early := some ⟨fr, t.param.readerWait * 1000⟩ }) := by
  unfold State.takeInbound
  rw [hx, hd]
  exact if_pos hw

variable {b : TagBytes}

/-- The nine bytes of a frame at a gate that is assembling none. -/
theorem inboundFrame_taken (hat : GateAt g d x s) (hrx : x.rxIn = none) (b : TagBytes) :
    exec (.inboundFrame g (0x5A :: b.bytes)) s = .next (inboundLink.take g b.bytes (s.onGate g (inboundLink.hold none))).settle ∧
      GateTaken [.gates] [] id s g x (s.onGate g (inboundLink.hold none)) := by
  refine ⟨?_, ?_⟩
  · rw [exec_inboundFrame, ReaderLink.frame_taken inboundLink_lawful hat.2 hrx rfl]
  · have hhold : inboundLink.hold none x = x := by
      rw [← hrx]
      rfl
    have hheld := (gateTaken_found hat.2).onGate (inboundLink.hold none)
    rwa [hhold] at hheld

/-- A valid inbound frame at a gate that is assembling none. -/
theorem inboundFrame_valid (hat : GateAt g d x s) (hrx : x.rxIn = none) (hb : b.valid false) : ∃ t,
    exec (.inboundFrame g (0x5A :: b.bytes)) s = .next (t.takeInbound g b.frame).settle ∧
      GateTaken [.gates] [] id s g x t ∧ Tbl.find g t.desc.gates = some d ∧ t.param = s.param ∧
      t.identify b.frame = s.identify b.frame := by
  obtain ⟨hexec, htaken⟩ := inboundFrame_taken hat hrx b
  refine ⟨_, hexec.trans ?_, htaken, hat.1, rfl, identify_onGate (φ := inboundLink.hold none) (fun _ => rfl) s g _⟩
  have htake : inboundLink.take g b.bytes = State.takeInbound g b.frame := by
    funext v
    change (match readerFrame false b.bytes with | some f => v.takeInbound g f | none => v) = _
    rw [readerFrame_valid hb]
  rw [htake]

/-- R107, R108: of a repeated frame, or one of an overrun, the toggle alone is taken. -/
theorem GateTaken.toggleTaken (h : GateTaken parts sent f s g x t) (hw : x.window = .overrun ∨ x.inToggle = some fr.toggle) :
    GateTaken parts sent f s g { x with inToggle := some fr.toggle } (t.takeInWindow g x d fr) := by
  by_cases htoggle : x.inToggle = some fr.toggle
  · have hsame : { x with inToggle := some fr.toggle } = x := by rw [← htoggle]
    rw [takeInWindow_repeated htoggle, hsame]
    exact h
  · rw [takeInWindow_overrun htoggle (hw.resolve_right htoggle)]
    exact h.onGate (fun x => { x with inToggle := some fr.toggle })

theorem takeInWindow_sections (hw : x.window = .overrun ∨ x.inToggle = some fr.toggle) (t : State) :
    (t.takeInWindow g x d fr).sections = t.sections := by
  by_cases htoggle : x.inToggle = some fr.toggle
  · rw [takeInWindow_repeated htoggle]
  · rw [takeInWindow_overrun htoggle (hw.resolve_right htoggle), State.onGate_sections]

/-- R108: a frame that makes no record in an open window: a repeated one, a second one, or one of an overrun. -/
theorem takeInWindow_noRecord (hw : x.window ∉ [.closed, .wait, .untimed, .unread] ∨ x.inToggle = some fr.toggle)
    (h : GateTaken [.gates] [] f s g x t) :
    GateTaken [.gates, .sections] [] f s g { x with inToggle := some fr.toggle } (t.takeInWindow g x d fr) ∧
      ∀ m, Tbl.find m (t.takeInWindow g x d fr).sections = (Tbl.find m s.sections).map (fun r =>
        if m = d.reader ∧ x.inToggle ≠ some fr.toggle ∧ x.window = .read then { r with noise := true } else r) := by
  have hsections := h.acts.sections
  have hboth := h.mono (parts' := [.gates, .sections]) (by simp)
  by_cases hsilent : x.window = .overrun ∨ x.inToggle = some fr.toggle
  · refine ⟨hboth.toggleTaken hsilent, fun m => ?_⟩
    have hno : ¬(m = d.reader ∧ x.inToggle ≠ some fr.toggle ∧ x.window = .read) := by
      rintro ⟨-, hanew, hread⟩
      simp [hanew, hread] at hsilent
    simp [takeInWindow_sections hsilent, hsections, if_neg hno]
  · obtain ⟨hover, htoggle⟩ := not_or.mp hsilent
    have hread : x.window = .read := by
      cases hwindow : x.window <;> simp [hwindow, htoggle] at hw hover ⊢
    rw [takeInWindow_second htoggle hread]
    refine ⟨(hboth.onGate (fun x => { x with inToggle := some fr.toggle })).update (does_onSection _ _ _).acts, fun m => ?_⟩
    rw [State.onSection_sections, Tbl.find_adjust, State.onGate_sections, hsections]
    by_cases hm : m = d.reader <;> simp [hm, htoggle, hread]

theorem inboundFrame_withoutARecord : inboundFrameWithoutARecord := by
  intro g b d x s hat hrx
  refine ⟨fun hb => ?_, ?_⟩
  · obtain ⟨hexec, htaken⟩ := inboundFrame_taken hat hrx b
    have htake (v : State) : inboundLink.take g b.bytes v = v := by
      change (match readerFrame false b.bytes with | some f => v.takeInbound g f | none => v) = v
      rw [readerFrame_invalid hb]
    rw [htake] at hexec
    exact ⟨_, hexec, htaken.unsent⟩
  · intro hb hno early anew
    obtain ⟨t, hexec, htaken, hd, hparam, -⟩ := inboundFrame_valid hat hrx hb
    by_cases hclosed : x.window = .closed
    · have hearly : early = true := decide_eq_true hclosed
      have hanew : anew = false := by simp [anew, hearly]
      rw [takeInbound_closed hd htaken.find hclosed] at hexec
      have hsections := htaken.acts.sections
      have hboth := htaken.mono (parts' := [.gates, .sections]) (by simp)
      by_cases hslot : x.early = none
      · simp only [hslot, Option.isSome_none, Bool.false_eq_true, if_false, hparam] at hexec
        have hset := hboth.onGate (fun x => { x with early := some ⟨b.frame, s.param.readerWait * 1000⟩ })
        refine ⟨_, hexec, hset.unsent.1, ?_, by simp [hsections, hanew]⟩
        simpa [hearly, hanew, hslot] using hset.put
      · rw [if_pos (Option.isSome_iff_ne_none.mpr hslot)] at hexec
        exact ⟨_, hexec, hboth.unsent.1, by simpa [hslot, hanew] using hboth.put, by simp [hsections, hanew]⟩
    · have hanew : anew = decide (x.inToggle ≠ some b.frame.toggle) := by simp [anew, early, hclosed]
      rw [takeInbound_open hd htaken.find hclosed] at hexec
      obtain ⟨hset, hsections⟩ := takeInWindow_noRecord (d := d) (fr := b.frame) (by simpa [hclosed] using hno) htaken
      refine ⟨_, hexec, hset.unsent.1, ?_, by simpa [hanew] using hsections⟩
      have htoggle : (if anew then some b.frame.toggle else x.inToggle) = some b.frame.toggle := by
        by_cases h : x.inToggle = some b.frame.toggle <;> simp [hanew, h]
      simpa [early, hclosed, htoggle] using hset.put

/-- R105: a first frame in an open window, once the toggle is taken. -/
theorem inboundFrame_first (hat : GateAt g d x s) (hrx : x.rxIn = none) (hb : b.valid false)
    (hw : x.window = .wait ∨ x.window = .untimed) (hanew : x.inToggle ≠ some b.frame.toggle) : ∃ t,
    exec (.inboundFrame g (0x5A :: b.bytes)) s = .next (t.createRecord g x b.frame).settle ∧
      GateTaken [.gates] [] id s g { x with inToggle := some b.frame.toggle } t ∧ t.identify b.frame = s.identify b.frame := by
  obtain ⟨t, hexec, htaken, hd, -, hid⟩ := inboundFrame_valid hat hrx hb
  have hopen : x.window ≠ .closed := by rcases hw with hw | hw <;> simp [hw]
  rw [takeInbound_open hd htaken.find hopen, takeInWindow_first hanew hw] at hexec
  refine ⟨_, hexec, htaken.onGate (fun x => { x with inToggle := some b.frame.toggle }), ?_⟩
  rw [identify_onGate, hid]
  exact fun _ => rfl

/-- R105, R117: the held reasons once a record has joined a queue that was not empty. -/
theorem heldAfter_joined (highMark : Nat) (h : Held) (l : List Arrival) (a : Arrival) : heldAfter highMark true h (l ++ [a]) =
    { h with
      unresolved := (l ++ [a]).any (fun y => y.mark ≠ .none)
      queueHigh := h.queueHigh || decide (highMark ≤ l.length + 1) } := by
  simp [heldAfter]

theorem inboundFrame_makesARecord : inboundFrameMakesARecord := by
  intro g b d x s hat hrx hb hw hanew
  obtain ⟨t, hexec, htaken, hid⟩ := inboundFrame_first hat hrx hb hw hanew
  refine ⟨fun hfull => ?_, ?_⟩
  · have hover := createRecord_full (y := x) (fr := b.frame) htaken rfl hfull
    exact ⟨_, hexec, by simpa using hover.acts.effect, hover.put⟩
  · intro hsome hroom here a
    obtain ⟨v, hcreate, hjoined⟩ := createRecord_room (y := x) htaken rfl hroom.ne hid
    have hmore : x.queue ≠ [] := List.ne_nil_of_length_pos hsome
    rw [hcreate] at hexec
    simp only [hmore, decide_false, if_false, heldAfter_joined] at hexec hjoined
    exact ⟨v, hexec, hjoined.unsent⟩

theorem inboundFrame_atTheHead : inboundFrameAtTheHead := by
  intro g b d x s hat hrx hb hanew mark
  refine ⟨fun hw hempty => ?_, fun hw => ?_⟩
  · obtain ⟨t, hexec, htaken, hid⟩ := inboundFrame_first hat hrx hb hw hanew
    obtain ⟨v, hcreate, hjoined⟩ := createRecord_room (y := x) htaken rfl (by simp [hempty]) hid
    rw [hcreate] at hexec
    simp only [hempty, decide_true, if_true, List.nil_append, List.length_nil, Nat.zero_add] at hexec hjoined
    exact ⟨v, hexec, hjoined.unsent⟩
  · obtain ⟨t, hexec, htaken, hd, -, hid⟩ := inboundFrame_valid hat hrx hb
    have hset := htaken.onGate (fun x => { x with inToggle := some b.frame.toggle, window := .read })
    rw [takeInbound_open hd htaken.find (by simp [hw]), takeInWindow_late hanew hw] at hexec
    split
    · rename_i hnone
      rw [fillRecord_none hnone] at hexec
      exact ⟨_, hexec, hset.unsent⟩
    · rename_i i hi
      intro a ha q
      obtain ⟨v, hfill, hfilled⟩ := fillRecord_some (y := x) hset rfl hi ha (by rw [identify_onGate, hid]; exact fun _ => rfl)
      rw [hfill] at hexec
      exact ⟨v, hexec, hfilled.unsent⟩

/-- Settles O17: the bytes of the link (`ReaderLink.bytesMakeFrames`), and a frame by what it makes of the pass. -/
theorem inboundFrames : Obligations.InboundFrames :=
  ⟨fun g => ReaderLink.bytesMakeFrames inboundLink_lawful (exec_inboundFrame g), inboundFrame_withoutARecord,
    inboundFrame_makesARecord, inboundFrame_atTheHead⟩

end

end Sys2Proof.Machine

/-! # Outbound frames (06 section 6.7) -/

namespace Sys2Proof.Machine

section

variable {s t : State} {g : Nat} {x : Gate} {d : GateDef} {b : TagBytes} {parts : List Part} {sent : List Instr}
  {f : State → State}

/-- The nine bytes of a frame at a gate that is assembling none. -/
theorem outboundFrame_taken (hat : GateAt g d x s) (hrx : x.rxOut = none) (b : TagBytes) :
    exec (.outboundFrame g (0x5A :: b.bytes)) s = .next (outboundLink.take g b.bytes (s.onGate g (outboundLink.hold none))).settle ∧
      GateTaken [.gates] [] id s g x (s.onGate g (outboundLink.hold none)) := by
  refine ⟨?_, ?_⟩
  · rw [exec_outboundFrame, ReaderLink.frame_taken outboundLink_lawful hat.2 hrx rfl]
  · have hhold : outboundLink.hold none x = x := by
      rw [← hrx]
      rfl
    have hheld := (gateTaken_found hat.2).onGate (outboundLink.hold none)
    rwa [hhold] at hheld

theorem outboundLink_take (g : Nat) (l : List Byte) (s : State) :
    outboundLink.take g l s = match readerFrame true l with | some f => s.takeOutbound g f | none => s := rfl

/-- R120: the route whose departing tram an outbound frame reads: that of the DEPARTURE entry on a section that is OCCUPIED. -/
def State.departing (s : State) (n : Nat) : Option Nat :=
  match s.reservedBy n with
  | some slot => match Tbl.find slot s.route.table with
    | some e => if e.kind = .departure ∧ s.isOccupied n then some e.route else none
    | none => none
  | none => none

theorem departing_eq (s : State) (n : Nat) : s.departing n = if s.isOccupied n then s.departureOn n else none := by
  unfold State.departing State.departureOn
  cases s.isOccupied n <;> cases s.reservedBy n with
  | none => rfl
  | some slot => cases he : Tbl.find slot s.route.table <;> simp [he]

/-- R120: a repeated outbound frame. -/
theorem takeOutbound_repeated {fr : ReaderFrame} (hx : Tbl.find g t.gates = some x) (htoggle : x.outToggle = some fr.toggle) :
    t.takeOutbound g fr = t := by
  unfold State.takeOutbound
  rw [hx]
  split
  · rename_i heq _
    cases heq
    exact if_pos htoggle
  · rfl

/-- R120: what is kept of a frame with a new toggle, by the departing route and by what was kept before. -/
def keptRead (fr : ReaderFrame) (now : Option Nat) (kept : Option OutRead) : Option Nat → Option OutRead
  | some n => if kept.all (fun o => o.route ≠ n) then some ⟨fr.fleet, n, now⟩ else kept
  | none => kept

/-- R120: an outbound frame with a new toggle. -/
theorem GateTaken.takeOutbound {fr : ReaderFrame} (h : GateTaken parts sent f s g x t) (hd : Tbl.find g t.desc.gates = some d)
    (htoggle : x.outToggle ≠ some fr.toggle) : GateTaken parts sent f s g
      { x with
        outToggle := some fr.toggle
        outRead := keptRead fr s.minute x.outRead (t.departing d.gateOut) } (t.takeOutbound g fr) := by
  have hset := h.onGate (fun x => { x with outToggle := some fr.toggle })
  have hdeparture (φ : Gate → Gate) : (t.onGate g φ).departureOn d.gateOut = t.departureOn d.gateOut := rfl
  have hoccupied (φ : Gate → Gate) : (t.onGate g φ).isOccupied d.gateOut = t.isOccupied d.gateOut := rfl
  unfold State.takeOutbound
  rw [h.find, hd, departing_eq]
  simp only [if_neg htoggle, hdeparture, hoccupied]
  cases t.departureOn d.gateOut with
  | none => rwa [ite_self]
  | some route =>
    dsimp only
    by_cases hread : t.isOccupied d.gateOut ∧ x.outRead.all (fun o => o.route ≠ route)
    · rw [if_pos hread, if_pos hread.1, keptRead, if_pos hread.2, ← h.acts.minute]
      exact hset.onGate (fun x => { x with outRead := some ⟨fr.fleet, route, t.minute⟩ })
    · rw [if_neg hread]
      have hkept : keptRead fr s.minute x.outRead (if t.isOccupied d.gateOut then some route else none) = x.outRead := by
        by_cases hocc : t.isOccupied d.gateOut = true
        · rw [if_pos hocc]
          exact if_neg (fun hall => hread ⟨hocc, hall⟩)
        · rw [if_neg hocc]
          rfl
      rwa [hkept]

/-- R104: an outbound frame that is not valid changes nothing. -/
theorem outboundFrame_invalid (hat : GateAt g d x s) (hrx : x.rxOut = none) (hb : ¬b.valid true) :
    ∃ u, exec (.outboundFrame g (0x5A :: b.bytes)) s = .next u.settle ∧ Effect [.gates] s.claims id none s u ∧
      Put g x s.gates u.gates := by
  obtain ⟨hexec, htaken⟩ := outboundFrame_taken hat hrx b
  rw [outboundLink_take, readerFrame_invalid hb] at hexec
  exact ⟨_, hexec, htaken.unsent⟩

/-- Settles O18: the bytes of the link (`ReaderLink.bytesMakeFrames`), and a frame by its toggle and the departing route. -/
theorem outboundFrameIsKept : Obligations.OutboundFrameIsKept := by
  refine ⟨⟨fun g => ReaderLink.bytesMakeFrames outboundLink_lawful (exec_outboundFrame g),
    fun g b d x s hat hrx hb => outboundFrame_invalid hat hrx hb⟩, ?_⟩
  intro g b d x s hat hrx hb anew route
  obtain ⟨hexec, htaken⟩ := outboundFrame_taken hat hrx b
  simp only [outboundLink_take, readerFrame_valid hb] at hexec
  obtain ⟨r, hr⟩ : ∃ r, route = r := ⟨_, rfl⟩
  have hdeparting : (s.onGate g (outboundLink.hold none)).departing d.gateOut = r := hr
  rw [hr]
  by_cases htoggle : x.outToggle = some b.frame.toggle
  · have hanew : anew = false := by simp [anew, htoggle]
    rw [takeOutbound_repeated htaken.find htoggle] at hexec
    refine ⟨_, hexec, ?_⟩
    cases r <;> simpa [hanew] using htaken.unsent
  · have hanew : anew = true := by simp [anew, htoggle]
    have hkept := htaken.takeOutbound hat.1 htoggle
    rw [hdeparting] at hkept
    refine ⟨_, hexec, ?_⟩
    cases r <;> simpa [hanew, keptRead, TagBytes.frame] using hkept.unsent

end

end Sys2Proof.Machine

/-! # The pass window (06 sections 6.3, 6.4) -/

namespace Sys2Proof.Machine

section

variable {s t : State} {parts : List Part} {sent : List Instr} {f : State → State} {g : Nat} {x : Gate} {d : GateDef}

/-! ## An unread tram (R109) -/

/-- R109: the record of a tram that was not read. -/
def unreadRecord (now : Option Nat) (window : Bool) : Arrival := { Arrival.blank now with isWindow := window }

/-- The record with which an unread tram joins the queue in hand. -/
def Gate.unreadJoined (mark : Nat) (now : Option Nat) (x : Gate) : Gate := { x with
  window := .unread, waitTimer := none, queue := x.queue ++ [unreadRecord now true]
  placeNone := if x.queue = [] then none else x.placeNone
  held := { x.held with unresolved := true, queueHigh := x.held.queueHigh || decide (mark ≤ x.queue.length + 1) } }

theorem appendUnread_full {y : Gate} (h : GateTaken parts sent f s g x t) (hy : y.queue = x.queue) (hfull : x.queue.length = 4) :
    GateTaken parts (sent ++ [.alarmRaise (.gateOverrun g)]) f s g
      { x with window := .overrun, waitTimer := none, held := { x.held with overrun := true } } (t.appendUnread g y) := by
  have hover : t.appendUnread g y = t.overrun g := if_pos (by rw [hy]; exact hfull)
  rw [hover]
  exact h.overrun

/-- R109, R114: an unread record joins the tail; one that is the new head has no fleet to find a place for. -/
theorem appendUnread_room {y : Gate} (h : GateTaken parts sent f s g x t) (hy : y.queue = x.queue) (hroom : x.queue.length < 4) :
    GateTaken parts sent (fun v => queueNotice g (x.queue.length + 1) (unreadRecord s.minute true) [.u8 2] (f v)) s g
      (x.unreadJoined s.param.queueHighMark s.minute) (t.appendUnread g y) := by
  obtain ⟨v, hjoin, hjoined⟩ :=
    (h.onGate (fun x => { x with window := .unread, waitTimer := none })).joinQueue (unreadRecord s.minute true) .unread
  have happend : t.appendUnread g y = headIf (decide (x.queue = [])) g v := by
    rw [← hjoin, ← h.acts.minute]
    exact if_neg (by rw [hy]; exact hroom.ne)
  have hheld : heldAfter s.param.queueHighMark true x.held (x.queue ++ [unreadRecord s.minute true]) =
      { x.held with
        unresolved := true, queueHigh := x.held.queueHigh || decide (s.param.queueHighMark ≤ x.queue.length + 1) } := by
    rw [heldAfter_joined]
    simp [unreadRecord, Arrival.blank]
  have hidle : headIf (decide (x.queue = [])) g v = v := by
    by_cases hempty : x.queue = []
    · rw [headIf, if_pos (decide_eq_true hempty)]
      exact processHead_idle hjoined.find (by simp [hempty, unreadRecord, Arrival.blank])
    · rw [headIf, decide_eq_false hempty]
      rfl
  rw [happend, hidle]
  unfold Gate.unreadJoined
  rw [← hheld]
  exact hjoined

theorem headIf_false (g : Nat) (t : State) : headIf false g t = t := rfl

/-! ## The window opens, runs out and closes (R106, R107, R109, R110) -/

theorem exec_readerOccupyEdge_open {c : EdgeCause} (hat : GateAt g d x s) (hw : x.window ≠ .closed) :
    exec (.readerOccupyEdge g c) s = .next (s.take (.readerOccupyEdge g c)).settle := by
  obtain ⟨hd, hx⟩ := hat
  change execReaderOccupyEdge g c s = _
  unfold execReaderOccupyEdge
  simp only [State.take_gates, State.take_desc, hx, hd, if_neg hw]
  rfl

theorem exec_readerOccupyEdge_closed {c : EdgeCause} (hat : GateAt g d x s) (hw : x.window = .closed) :
    exec (.readerOccupyEdge g c) s = .next ((s.take (.readerOccupyEdge g c)).openWindow g x d).settle := by
  obtain ⟨hd, hx⟩ := hat
  change execReaderOccupyEdge g c s = _
  unfold execReaderOccupyEdge
  simp only [State.take_gates, State.take_desc, hx, hd, if_pos hw]
  rfl

/-- R109: a window that has closed. -/
def Gate.closed (x : Gate) : Gate :=
  { x with window := .closed, waitTimer := none, queue := x.queue.map (fun a => { a with isWindow := false }) }

theorem exec_readerClearEdge {c : EdgeCause} (hat : GateAt g d x s) : exec (.readerClearEdge g c) s =
    .next ((if x.window = .wait then (s.take (.readerClearEdge g c)).appendUnread g x else s.take (.readerClearEdge g c)).onGate g
      Gate.closed).settle := by
  change execReaderClearEdge g c s = _
  unfold execReaderClearEdge
  simp only [State.take_gates, hat.2]
  rfl

theorem exec_readerWaitExpiry (hat : GateAt g d x s) (hw : x.window = .wait) :
    exec (.readerWaitExpiry g) s = .next (s.appendUnread g x).settle := by
  change execReaderWaitExpiry g s = _
  unfold execReaderWaitExpiry
  rw [hat.2]
  exact if_pos hw

/-- R106, R107: the pass at the opening of the window, before an early read. -/
def Gate.opened (wait : Nat) (x : Gate) : Gate :=
  if x.queue.length = 4 then { x with window := .overrun, waitTimer := none, held := { x.held with overrun := true } }
  else { x with window := .wait, waitTimer := some (wait * 1000) }

theorem Gate.opened_full {wait : Nat} (h : x.queue.length = 4) :
    x.opened wait = { x with window := .overrun, waitTimer := none, held := { x.held with overrun := true } } := if_pos h

theorem Gate.opened_room {wait : Nat} (h : x.queue.length ≠ 4) :
    x.opened wait = { x with window := .wait, waitTimer := some (wait * 1000) } := if_neg h

/-- R106, R107: with 4 records queued the opening is an overrun. -/
def State.beginPass (g : Nat) (x : Gate) (s : State) : State :=
  if x.queue.length = Config.queueSize then s.overrun g
  else s.onGate g (fun y => { y with window := .wait, waitTimer := some (s.param.readerWait * 1000) })

theorem GateTaken.beginPass (h : GateTaken parts sent f s g x t) :
    GateTaken parts (sent ++ if x.queue.length = 4 then [.alarmRaise (.gateOverrun g)] else []) f s g
      (x.opened s.param.readerWait) (t.beginPass g x) := by
  by_cases hfull : x.queue.length = 4
  · have hover : t.beginPass g x = t.overrun g := if_pos hfull
    rw [hover, if_pos hfull, Gate.opened_full hfull]
    exact h.overrun
  · have hwait : t.beginPass g x =
        t.onGate g (fun y => { y with window := .wait, waitTimer := some (t.param.readerWait * 1000) }) := if_neg hfull
    rw [hwait, if_neg hfull, List.append_nil, Gate.opened_room hfull, ← h.acts.param]
    exact h.onGate (fun x => { x with window := .wait, waitTimer := some (t.param.readerWait * 1000) })

theorem identify_beginPass (t : State) (x : Gate) (fr : ReaderFrame) : (t.beginPass g x).identify fr = t.identify fr := by
  unfold State.beginPass
  split
  · exact identify_onGate (φ := fun x => { x with window := .overrun, waitTimer := none, held := { x.held with overrun := true } })
      (fun _ => rfl) t g fr
  · exact identify_onGate (φ := fun y => { y with window := .wait, waitTimer := some (t.param.readerWait * 1000) })
      (fun _ => rfl) t g fr

/-- What an early read is identified by is not a matter of the window. -/
theorem identify_earlyTaken (t : State) (x : Gate) (fr : ReaderFrame) :
    (((t.beginPass g x).onGate g (fun x => { x with early := none })).onGate g (fun x => { x with inToggle := some fr.toggle })).identify
      fr = t.identify fr := by
  rw [identify_onGate, identify_onGate, identify_beginPass]
  · exact fun _ => rfl
  · exact fun _ => rfl

theorem openWindow_noRead (h : x.early = none) (t : State) : t.openWindow g x d = t.beginPass g x := by
  unfold State.openWindow State.beginPass
  simp only [h]

/-- R110: the early read is the first frame of the window. -/
theorem openWindow_read {e : EarlyRead} {y : Gate} (h : x.early = some e) (hy : Tbl.find g (t.beginPass g x).gates = some y) :
    t.openWindow g x d = ((t.beginPass g x).onGate g (fun x => { x with early := none })).takeInWindow g { y with early := none } d
      e.frame := by
  unfold State.openWindow
  change (match x.early, Tbl.find g (t.beginPass g x).gates with | some e, some y => _ | _, _ => _) = _
  rw [h, hy]
  rfl

theorem passWindow_opensAndCloses : passWindowOpensAndCloses := by
  intro g c d x s hat
  have htaken (c : Instr) : GateTaken [.gates] [] id (s.take c) g x (s.take c) := gateTaken_found hat.2
  refine ⟨?_, fun hw => exec_readerOccupyEdge_open hat hw, fun hw => ?_, fun hw hfull => ?_, ?_⟩
  · intro hw hearly full
    have hbegin := (htaken (.readerOccupyEdge g c)).beginPass
    refine ⟨_, exec_readerOccupyEdge_closed hat hw, ?_⟩
    rw [openWindow_noRead hearly]
    by_cases hfull : x.queue.length = 4
    · have hfull' : full = true := decide_eq_true hfull
      rw [Gate.opened_full hfull, if_pos hfull] at hbegin
      simp only [hfull', if_true]
      exact hbegin.taken
    · have hroom : full = false := decide_eq_false hfull
      rw [Gate.opened_room hfull, if_neg hfull] at hbegin
      simp only [hroom, Bool.false_eq_true, if_false]
      exact hbegin.taken
  · have hexec := exec_readerClearEdge (c := c) hat
    rw [if_neg hw] at hexec
    exact ⟨_, hexec, ((htaken (.readerClearEdge g c)).onGate Gate.closed).takenUnsent⟩
  · have hover := appendUnread_full (gateTaken_found hat.2) rfl hfull
    exact ⟨_, exec_readerWaitExpiry hat hw, by simpa using hover.acts.effect, hover.put⟩
  · exact ⟨_, rfl, ((gateTaken_found hat.2).onGate (fun x => { x with early := none })).unsent⟩

theorem unreadRecord_joins : unreadRecordJoins := by
  intro g c d x s hat hw hroom unread joined notice
  have hexpiry := appendUnread_room (gateTaken_found hat.2) rfl hroom
  have hclear := (appendUnread_room (gateTaken_found (s := s.take (.readerClearEdge g c)) hat.2) rfl hroom).onGate Gate.closed
  refine ⟨⟨_, exec_readerWaitExpiry hat hw, hexpiry.unsent⟩, ?_⟩
  have hexec := exec_readerClearEdge (c := c) hat
  rw [if_pos hw] at hexec
  exact ⟨_, hexec, hclear.takenUnsent⟩

theorem earlyRead_atTheOpening : earlyReadAtTheOpening := by
  intro g c d x s hat
  have htaken (c : Instr) : GateTaken [.gates] [] id (s.take c) g x (s.take c) := gateTaken_found hat.2
  refine ⟨?_, fun hw hfull => ?_⟩
  · intro fr k hw hearly anew y a
    have hbegin := (htaken (.readerOccupyEdge g c)).beginPass
    have hexec := exec_readerOccupyEdge_closed (c := c) hat hw
    rw [openWindow_read hearly hbegin.find] at hexec
    have hemptied := hbegin.onGate (fun x => { x with early := none })
    by_cases hfull : x.queue.length = 4
    · have hnoHead : (anew && x.queue.isEmpty) = false := by
        cases hqueue : x.queue <;> simp [hqueue] at hfull ⊢
      rw [Gate.opened_full hfull] at hexec hemptied
      have hread := hemptied.toggleTaken (d := d) (fr := fr) (.inl rfl)
      refine ⟨_, by rw [hnoHead, headIf_false]; exact hexec, ?_⟩
      rw [if_pos hfull] at hread
      simp only [hfull, ne_eq, not_true_eq_false, and_false, if_false, if_true]
      exact hread.taken
    · rw [Gate.opened_room hfull] at hexec hemptied
      by_cases htoggle : x.inToggle = some fr.toggle
      · have hanew : anew = false := by simp [anew, htoggle]
        have hread := hemptied.toggleTaken (d := d) (fr := fr) (.inr htoggle)
        refine ⟨_, by rw [hanew, Bool.false_and, headIf_false]; exact hexec, ?_⟩
        rw [if_neg hfull] at hread
        simp only [hfull, hanew, Bool.false_eq_true, false_and, if_false]
        exact hread.taken
      · have hanew : anew = true := by simp [anew, htoggle]
        have hfirst := takeInWindow_first (x := { x with window := .wait, waitTimer := some (s.param.readerWait * 1000), early := none })
          (d := d) (g := g) htoggle (.inl rfl)
        obtain ⟨v, hcreate, hjoined⟩ := createRecord_room (fr := fr) (hemptied.onGate (fun x => { x with inToggle := some fr.toggle }))
          rfl hfull (identify_earlyTaken (s.take (.readerOccupyEdge g c)) x fr)
        have hhead : decide (x.queue = []) = (anew && x.queue.isEmpty) := by cases x.queue <;> simp [hanew]
        have hread := (hfirst _).trans hcreate
        rw [hhead] at hread
        refine ⟨v, hexec.trans (congrArg (fun v => Host.Outcome.next (State.settle v)) hread), ?_⟩
        rw [if_neg hfull] at hjoined
        simp only [hfull, hanew, ne_eq, not_false_eq_true, and_self, if_true, if_false]
        exact hjoined.taken
  · have hclear := (appendUnread_full (htaken (.readerClearEdge g c)) rfl hfull).onGate Gate.closed
    have hexec := exec_readerClearEdge (c := c) hat
    rw [if_pos hw] at hexec
    exact ⟨_, hexec, by simpa using hclear.taken.1, hclear.put⟩

/-- Settles O19: the window by its state and the queue (`GateTaken.beginPass`, `appendUnread_room`), and the early read. -/
theorem passWindow : Obligations.PassWindow := ⟨passWindow_opensAndCloses, unreadRecord_joins, earlyRead_atTheOpening⟩

end

end Sys2Proof.Machine

/-! # Route events at a gate (06 sections 6.5, 6.7) -/

namespace Sys2Proof.Machine

section

variable {s t : State} {parts : List Part} {sent : List Instr} {f : State → State} {g i : Nat} {x : Gate} {a : Arrival} {ev : RouteEvent}

/-! ## What goes on to head processing (R114) -/

/-- The gate that head processing leaves, where a taking goes on to it. -/
theorem find_headIf (occasion : Bool) (hx : Tbl.find g t.gates = some x) :
    ∃ y, Tbl.find g (headIf occasion g t).gates = some y ∧ y.lasting = x.lasting := by
  cases occasion with
  | false => exact ⟨x, hx, rfl⟩
  | true => exact find_processHead hx g

theorem touches_headIf (occasion : Bool) (g : Nat) (t : State) : Touches depotParts t (headIf occasion g t) := by
  cases occasion with
  | false => exact touches_none t _
  | true => exact (processes_processHead t g).1

/-- A taking that goes on to head processing: no answer, and the gate but for what head processing writes. -/
theorem GateTaken.processed {c : Instr} (h : GateTaken parts sent f (s.take c) g x t) (occasion : Bool) :
    Answered none s (headIf occasion g t) ∧
      ∃ y, Tbl.find g (headIf occasion g t).gates = some y ∧ y.lasting = x.lasting :=
  ⟨((h.acts.touches.mono h.acts.depot).next (touches_headIf occasion g t)).answered, find_headIf occasion h.find⟩

/-! ## Arrival routes (R116) -/

/-- R116: an event of an arrival route is about the record of its fleet. -/
theorem exec_gateArrivalEvent (hx : Tbl.find g s.gates = some x) {g' fleet : Nat} (hp : ev.purpose = .gateArrival g' fleet)
    (hi : x.queue.findIdx? (fun y => y.fleet = some fleet) = some i) (ha : x.queue[i]? = some a) :
    exec (.gateArrivalEvent g ev) s = .next ((s.take (.gateArrivalEvent g ev)).takeArrivalEvent g (i + 1) a ev).settle := by
  change execGateArrivalEvent g ev s = _
  unfold execGateArrivalEvent
  simp only [State.take_gates, hx, arrivalFleet, hp, Option.bind_some, hi, ha]
  rfl

/-- R116: an event whose fleet no record holds. -/
theorem exec_gateArrivalEvent_other (hx : Tbl.find g s.gates = some x) {g' fleet : Nat} (hp : ev.purpose = .gateArrival g' fleet)
    (hi : x.queue.findIdx? (fun y => y.fleet = some fleet) = none) :
    exec (.gateArrivalEvent g ev) s = .next (s.take (.gateArrivalEvent g ev)).settle := by
  change execGateArrivalEvent g ev s = _
  unfold execGateArrivalEvent
  simp only [State.take_gates, hx, arrivalFleet, hp, Option.bind_some, hi]
  rfl

/-- A record of the queue in hand changed, with its notice. -/
theorem GateTaken.noted (h : GateTaken parts sent f s g x t) (ha : x.queue[i]? = some a) (φ : Arrival → Arrival) (c : QueueCause) :
    GateTaken parts sent (fun v => queueNotice g (i + 1) (φ a) c.fields (f v)) s g { x with queue := x.queue.set i (φ a) }
      ((t.onArrival g (i + 1) φ).postQueue g (i + 1) c) := by
  have hlen := (List.getElem?_eq_some_iff.mp ha).1
  exact (h.onArrival ha φ).postQueue (by simp [hlen]) c

theorem takeArrivalEvent_proceed (hev : ev.event = .proceed) (ha : a.state = .allocated) (t : State) : t.takeArrivalEvent g (i + 1) a ev =
    (t.onArrival g (i + 1) (fun a => { a with state := .routed, slot := ev.slot })).postQueue g (i + 1) .routed := by
  unfold State.takeArrivalEvent
  rw [hev]
  exact if_pos ha

theorem takeArrivalEvent_cancelled (hev : ev.event = .cancelled) (ha : a.state ≠ .waiting) (t : State) :
    t.takeArrivalEvent g (i + 1) a ev =
      (t.onArrival g (i + 1) (fun a => { a.returned with paused := true })).postQueue g (i + 1) .paused := by
  unfold State.takeArrivalEvent
  rw [hev]
  exact if_neg ha

theorem takeArrivalEvent_returned (hev : ev.event = .expired ∨ ∃ why, ev.event = .failed why) (ha : a.state ≠ .waiting) (t : State) :
    t.takeArrivalEvent g (i + 1) a ev =
      headIf (i = 0) g ((t.onArrival g (i + 1) Arrival.returned).postQueue g (i + 1) (.returned ev.event)) := by
  unfold State.takeArrivalEvent headIf
  rcases hev with hev | ⟨why, hev⟩
  all_goals
    rw [hev]
    simp [ha]

theorem takeArrivalEvent_waiting (hev : ev.event = .expired ∨ ev.event = .cancelled ∨ ∃ why, ev.event = .failed why)
    (ha : a.state = .waiting) (t : State) : t.takeArrivalEvent g (i + 1) a ev = t := by
  unfold State.takeArrivalEvent
  rcases hev with hev | hev | ⟨why, hev⟩
  all_goals
    rw [hev]
    exact if_pos ha

theorem takeArrivalEvent_notAllocated (hev : ev.event = .proceed) (ha : a.state ≠ .allocated) (t : State) :
    t.takeArrivalEvent g (i + 1) a ev = t := by
  unfold State.takeArrivalEvent
  rw [hev]
  exact if_neg ha

/-- R116: the events that change nothing at a gate. -/
theorem takeArrivalEvent_other (hproceed : ev.event ≠ .proceed) (hentered : ev.event ≠ .firstEntered) (hexpired : ev.event ≠ .expired)
    (hcancelled : ev.event ≠ .cancelled) (hfailed : ∀ why, ev.event ≠ .failed why) (t : State) :
    t.takeArrivalEvent g (i + 1) a ev = t := by
  unfold State.takeArrivalEvent
  cases hev : ev.event with
  | complete | elementReleased | forceReleased => rfl
  | proceed => exact absurd hev hproceed
  | firstEntered => exact absurd hev hentered
  | expired => exact absurd hev hexpired
  | cancelled => exact absurd hev hcancelled
  | failed why => exact absurd hev (hfailed why)

/-- R116: the tram has entered the yard, and its record leaves the queue. -/
theorem GateTaken.entered (h : GateTaken parts sent f s g x t) (hev : ev.event = .firstEntered) (a : Arrival) :
    ∃ v, t.takeArrivalEvent g (i + 1) a ev = headIf (i = 0) g v ∧
      GateTaken parts sent
        (fun v => (f v).post .gate 2 [.u8 g, .u16 (a.fleet.getD 65535), .u8 (a.siding.getD 0), .u8 (ev.slot.getD 0)]) s g
        { x with
          queue := x.queue.eraseIdx i, held := heldAfter s.param.queueHighMark false x.held (x.queue.eraseIdx i)
          placeNone := if i = 0 then none else x.placeNone } v := by
  have hleft := ((h.onGate (fun x => { x with queue := x.queue.eraseIdx i })).post .gate 2
    [.u8 g, .u16 (a.fleet.getD 65535), .u8 (a.siding.getD 0), .u8 (ev.slot.getD 0)]).queueChanged false
  unfold State.takeArrivalEvent
  rw [hev]
  by_cases hzero : i = 0
  · simp only [hzero, if_true, Nat.zero_add] at hleft ⊢
    exact ⟨_, rfl, hleft.onGate (fun x => { x with placeNone := none })⟩
  · simp only [hzero, if_false, Nat.add_eq_right]
    exact ⟨_, rfl, hleft⟩

/-- R116: the fleets of a queue once a record of it is back in WAITING. -/
theorem fleets_set_returned (ha : x.queue[i]? = some a) :
    (x.queue.set i a.returned).map Arrival.fleet = x.queue.map Arrival.fleet := by
  apply List.ext_getElem?
  intro j
  rw [List.map_set, List.getElem?_set, List.getElem?_map, List.length_map]
  have hlen := (List.getElem?_eq_some_iff.mp ha).1
  by_cases hj : i = j
  · subst hj
    rw [if_pos rfl, if_pos hlen, ha]
    rfl
  · rw [if_neg hj]

theorem arrivalRouteEvents_atTheGate : arrivalRouteEventsAtTheGate := by
  intro g g' i fleet ev a x s hx hp hi ha left returned
  have hexec := exec_gateArrivalEvent hx hp hi ha
  have htaken : GateTaken [.gates] [] id (s.take (.gateArrivalEvent g ev)) g x (s.take (.gateArrivalEvent g ev)) := gateTaken_found hx
  refine ⟨fun hev hstate => ?_, fun hev => ?_, fun hev hstate hi => ?_, fun hev => ?_, fun hev hstate => ?_⟩
  · rw [takeArrivalEvent_proceed hev hstate] at hexec
    exact ⟨_, hexec, (htaken.noted ha _ .routed).takenUnsent⟩
  · obtain ⟨v, hentered, hleft⟩ := htaken.entered (i := i) hev a
    rw [hentered] at hexec
    obtain ⟨hanswered, y, hy, hlasting⟩ := hleft.processed (decide (i = 0))
    exact ⟨_, y, hexec, hanswered, hy, by rw [lasting_fleets hlasting, List.eraseIdx_map]⟩
  · rw [takeArrivalEvent_returned hev hstate, decide_eq_false hi, headIf_false] at hexec
    have hnoted := htaken.noted ha Arrival.returned (.returned ev.event)
    have hcode : (if ev.event = .expired then 6 else 5) = ev.event.code := by
      rcases hev with hev | ⟨why, hev⟩ <;> simp [hev, Progress.code]
    rw [hcode]
    exact ⟨_, hexec, hnoted.takenUnsent⟩
  · by_cases hstate : a.state = .waiting
    · rw [takeArrivalEvent_waiting (hev.imp_right .inr) hstate] at hexec
      exact ⟨_, x, hexec, htaken.acts.answered, hx, rfl⟩
    · rw [takeArrivalEvent_returned hev hstate] at hexec
      obtain ⟨hanswered, y, hy, hlasting⟩ := (htaken.noted ha Arrival.returned (.returned ev.event)).processed (decide (i = 0))
      exact ⟨_, y, hexec, hanswered, hy, by rw [lasting_fleets hlasting, fleets_set_returned ha]⟩
  · rw [takeArrivalEvent_cancelled hev hstate] at hexec
    exact ⟨_, hexec, (htaken.noted ha _ .paused).takenUnsent⟩

theorem arrivalRouteEvents_processTheHead : arrivalRouteEventsProcessTheHead := by
  intro g g' fleet ev x s hx hp left nothing
  split
  · rename_i hi
    exact exec_gateArrivalEvent_other hx hp hi
  · rename_i i hi
    intro a ha back leaves
    have hexec := exec_gateArrivalEvent hx hp hi ha
    have htaken : GateTaken [.gates] [] id (s.take (.gateArrivalEvent g ev)) g x (s.take (.gateArrivalEvent g ev)) := gateTaken_found hx
    have hwaiting (hev : ev.event = .expired ∨ ev.event = .cancelled ∨ ∃ why, ev.event = .failed why) (hstate : a.state = .waiting) :
        nothing := by
      rwa [takeArrivalEvent_waiting hev hstate] at hexec
    have hreturned (hev : ev.event = .expired ∨ ∃ why, ev.event = .failed why) (hstate : a.state ≠ .waiting) :
        leaves { x with queue := x.queue.set i back } (queueNotice g (i + 1) back [.u8 10, .u8 ev.event.code]) := by
      rw [takeArrivalEvent_returned hev hstate] at hexec
      exact ⟨_, hexec, (htaken.noted ha Arrival.returned (.returned ev.event)).takenUnsent⟩
    split
    · rename_i hev
      obtain ⟨v, hentered, hleft⟩ := htaken.entered (i := i) hev a
      rw [hentered] at hexec
      exact ⟨v, hexec, hleft.takenUnsent⟩
    · rename_i why hev
      split_ifs with hstate
      · exact hwaiting (.inr (.inr ⟨why, hev⟩)) hstate
      · have hleaves := hreturned (.inr ⟨why, hev⟩) hstate
        rwa [hev] at hleaves
    · rename_i hev
      split_ifs with hstate
      · exact hwaiting (.inl hev) hstate
      · have hleaves := hreturned (.inl hev) hstate
        rwa [hev] at hleaves
    · rename_i hev
      intro hstate
      rwa [takeArrivalEvent_notAllocated hev hstate] at hexec
    · rename_i hev
      exact hwaiting (.inr (.inl hev))
    · rename_i hentered hfailed hexpired hproceed hcancelled
      rwa [takeArrivalEvent_other hproceed hentered hexpired hcancelled hfailed] at hexec

/-! ## The tram read is not the tram of the route (R121, R137) -/

/-- R137: what a doubt claim leaves of the sidings. -/
theorem doubtClaim_sidings (s : State) (n : Nat) (c : StackCause) : (s.doubtClaim n c).stab.sidings =
    if (Tbl.find n s.stab.sidings).any (fun r => r.census = .known) then
      Tbl.adjust n (fun r => { r with census := .doubt }) s.stab.sidings
    else s.stab.sidings := by
  unfold State.doubtClaim
  cases hr : Tbl.find n s.stab.sidings with
  | none => rfl
  | some r =>
    dsimp only [Option.any_some]
    by_cases hknown : r.census = .known
    · have hset : (s.setDoubt n c).stab = (s.onSiding n (fun r => { r with census := .doubt })).stab := by
        unfold State.setDoubt State.postSiding
        rw [hr]
        dsimp only
        rw [if_pos hknown]
        split <;> rfl
      rw [if_pos hknown, if_pos (decide_eq_true hknown), (touches_report _ c none).stab, hset]
      rfl
    · rw [if_neg hknown, if_neg (by simpa using hknown)]

/-- R137: a siding is in doubt after a doubt claim for it, and where it was in doubt before one. -/
theorem doubtClaim_census {n m : Nat} {c : StackCause} {r : SidingRec} (hr : Tbl.find m (s.doubtClaim n c).stab.sidings = some r)
    (h : m = n ∨ ∀ r, Tbl.find m s.stab.sidings = some r → r.census = .doubt) : r.census = .doubt := by
  rw [doubtClaim_sidings] at hr
  split at hr
  · rw [Tbl.find_adjust] at hr
    split at hr
    · obtain ⟨_, -, rfl⟩ := Option.map_eq_some_iff.mp hr
      rfl
    · rename_i hm
      exact (h.resolve_left hm) r hr
  · rename_i hknown
    rcases h with rfl | h
    · rw [hr] at hknown
      cases hcensus : r.census with
      | doubt => rfl
      | known => simp [hcensus] at hknown
    · exact h r hr

/-- Where a fleet stands is not a matter of the census. -/
theorem findTram_doubtClaim (s : State) (n fleet : Nat) (c : StackCause) :
    ((s.doubtClaim n c).findTram fleet).map Prod.fst = (s.findTram fleet).map Prod.fst := by
  rw [findTram_eq, findTram_eq, doubtClaim_sidings]
  split
  · rw [Tbl.adjust, List.findSome?_map, List.map_findSome?, List.map_findSome?]
    congr 1
    funext p
    by_cases hp : p.1 = n <;> simp [tramIn, hp, Function.comp_def]
  · rfl

/-- A doubt claim for a siding, where there is one. -/
def State.doubtAt (n : Option Nat) (s : State) : State :=
  match n with
  | some n => s.doubtClaim n .doubtClaim
  | none => s

theorem touches_doubtAt (s : State) (n : Option Nat) : Touches [.stabling] s (s.doubtAt n) := by
  cases n with
  | none => exact touches_none s _
  | some n => exact touches_doubtClaim s n _

theorem findTram_doubtAt (s : State) (n : Option Nat) (fleet : Nat) :
    ((s.doubtAt n).findTram fleet).map Prod.fst = (s.findTram fleet).map Prod.fst := by
  cases n with
  | none => rfl
  | some n => exact findTram_doubtClaim s n fleet _

/-- R121: the alarm and the two doubt claims. -/
theorem wrongTram_eq (ev : RouteEvent) (read : Nat) (s : State) : s.wrongTram ev read =
    ((s.raise (.wrongTramOut (ev.tram.getD 0))).doubtAt ((s.routeDef ev.route).bind RouteDef.fromObj)).doubtAt
      ((s.findTram read).map Prod.fst) := by
  have hfound := findTram_doubtAt (s.raise (.wrongTramOut (ev.tram.getD 0))) ((s.routeDef ev.route).bind RouteDef.fromObj) read
  change _ = (s.findTram read).map Prod.fst at hfound
  rw [← hfound]
  change (match ((s.raise (.wrongTramOut (ev.tram.getD 0))).doubtAt ((s.routeDef ev.route).bind RouteDef.fromObj)).identity read with
    | .present (some n) => _
    | _ => _) = _
  unfold State.identity
  cases State.findTram _ read with
  | some p => rfl
  | none => dsimp only; cases List.any _ _ <;> rfl

/-- What follows the alarm. -/
theorem touches_wrongTram (ev : RouteEvent) (read : Nat) (s : State) :
    Touches [.stabling] (s.raise (.wrongTramOut (ev.tram.getD 0))) (s.wrongTram ev read) := by
  rw [wrongTram_eq]
  exact (touches_doubtAt _ _).next (touches_doubtAt _ _)

theorem census_doubtAt {n : Nat} {m : Option Nat} {r : SidingRec}
    (hr : Tbl.find n ((s.doubtAt (some n)).doubtAt m).stab.sidings = some r) : r.census = .doubt := by
  have hfirst (r : SidingRec) (hr : Tbl.find n (s.doubtAt (some n)).stab.sidings = some r) : r.census = .doubt :=
    doubtClaim_census hr (.inl rfl)
  cases m with
  | none => exact hfirst r hr
  | some m => exact doubtClaim_census hr (.inr hfirst)

/-! ## Departure routes (R121) -/

/-- R121: what was read of the route's tram. -/
def Gate.readOf (x : Gate) (route : Nat) : Option OutRead := if x.outRead.any (fun o => o.route = route) then x.outRead else none

theorem readOf_eq_some {route : Nat} {o : OutRead} : x.readOf route = some o ↔ x.outRead = some o ∧ o.route = route := by
  unfold Gate.readOf
  cases x.outRead with
  | none => simp
  | some o' =>
    by_cases ho : o'.route = route
    · simp only [Option.any_some, ho, decide_true, if_true, Option.some.injEq]
      exact ⟨fun h => ⟨h, h ▸ ho⟩, And.left⟩
    · simp only [Option.any_some, ho, decide_false, Bool.false_eq_true, if_false, Option.some.injEq]
      exact ⟨nofun, fun ⟨h, hroute⟩ => absurd (h ▸ hroute) ho⟩

theorem readOf_eq_none {route : Nat} : x.readOf route = none ↔ ∀ o, x.outRead = some o → o.route ≠ route := by
  simp only [Option.eq_none_iff_forall_ne_some, ne_eq, readOf_eq_some, not_and]

/-- R121: the departure is reported where the tram read is the tram of the route, or none was read. -/
theorem compareOutbound_departed (h : (x.readOf ev.route).all (fun o => ev.tram = some o.fleet)) (t : State) :
    t.compareOutbound g x ev = (t.post .gate 6 [.u8 g, .u8 ev.route, f16 ev.tram, f16 ((x.readOf ev.route).map OutRead.fleet)]).onGate g
      (fun x => { x with outRead := none }) := by
  unfold State.compareOutbound
  cases hread : x.readOf ev.route with
  | none =>
    have hnone := readOf_eq_none.mp hread
    cases ho : x.outRead with
    | none => rfl
    | some o =>
      dsimp only
      rw [if_neg (hnone o ho)]
      rfl
  | some o =>
    obtain ⟨ho, hroute⟩ := readOf_eq_some.mp hread
    have htram : ev.tram = some o.fleet := by simpa [hread] using h
    rw [ho]
    dsimp only
    rw [if_pos hroute, if_pos htram]
    rfl

theorem compareOutbound_wrong {o : OutRead} (ho : x.outRead = some o) (hroute : o.route = ev.route) (htram : ev.tram ≠ some o.fleet)
    (t : State) : t.compareOutbound g x ev = (t.wrongTram ev o.fleet).onGate g (fun x => { x with outRead := none }) := by
  unfold State.compareOutbound
  rw [ho]
  dsimp only
  rw [if_pos hroute, if_neg htram]

theorem exec_departureComplete (hx : Tbl.find g s.gates = some x) (hev : ev.event = .complete) :
    exec (.gateDepartureEvent g ev) s = .next ((s.take (.gateDepartureEvent g ev)).compareOutbound g x ev).settle := by
  change execGateDepartureEvent g ev s = _
  unfold execGateDepartureEvent
  simp only [State.take_gates, hx, hev]
  rfl

/-- R121: the other ends of a departure route. -/
theorem exec_departureEnded (hx : Tbl.find g s.gates = some x)
    (hev : ev.event ∈ [.expired, .cancelled, .forceReleased] ∨ ∃ why, ev.event = .failed why) :
    exec (.gateDepartureEvent g ev) s = .next (if x.outRead.any (fun o => o.route = ev.route) then
      (s.take (.gateDepartureEvent g ev)).onGate g (fun x => { x with outRead := none })
      else s.take (.gateDepartureEvent g ev)).settle := by
  change execGateDepartureEvent g ev s = _
  unfold execGateDepartureEvent
  simp only [List.mem_cons, List.not_mem_nil, or_false] at hev
  rcases hev with (hev | hev | hev) | ⟨why, hev⟩
  all_goals
    simp only [State.take_gates, hx, hev]
    rfl

/-- R121: the events that change nothing at a gate. -/
theorem exec_departureOther (hx : Tbl.find g s.gates = some x)
    (hev : ev.event ∈ [.proceed, .firstEntered] ∨ ∃ k, ev.event = .elementReleased k) :
    exec (.gateDepartureEvent g ev) s = .next (s.take (.gateDepartureEvent g ev)).settle := by
  change execGateDepartureEvent g ev s = _
  unfold execGateDepartureEvent
  simp only [List.mem_cons, List.not_mem_nil, or_false] at hev
  rcases hev with (hev | hev) | ⟨why, hev⟩
  all_goals
    simp only [State.take_gates, hx, hev]
    rfl

theorem departureRouteEvents_atTheGate : departureRouteEventsAtTheGate := by
  intro g ev x s hx left read
  have htaken : GateTaken [.gates] [] id (s.take (.gateDepartureEvent g ev)) g x (s.take (.gateDepartureEvent g ev)) := gateTaken_found hx
  have hread : read = x.readOf ev.route := rfl
  refine ⟨fun hev hall => ?_, fun hev hwrong => ?_, fun hev => ?_, exec_departureOther hx⟩
  · have hexec := exec_departureComplete hx hev
    rw [compareOutbound_departed hall] at hexec
    exact ⟨_, hexec, ((htaken.post _ _ _).onGate (fun x => { x with outRead := none })).takenUnsent⟩
  · obtain ⟨o, hsome, htram⟩ : ∃ o, read = some o ∧ ev.tram ≠ some o.fleet := by
      cases hsome : read with
      | none => simp [hsome] at hwrong
      | some o => exact ⟨o, rfl, by simpa [hsome] using hwrong⟩
    obtain ⟨ho, hroute⟩ := readOf_eq_some.mp hsome
    have hexec := exec_departureComplete hx hev
    rw [compareOutbound_wrong ho hroute htram] at hexec
    obtain ⟨rest, f, hacts⟩ := touches_wrongTram ev o.fleet (s.take (.gateDepartureEvent g ev))
    have hended := (((htaken.mono (parts' := [.gates, .stabling]) (by simp)).send _).next hacts).onGate
      (fun x => { x with outRead := none })
    obtain ⟨hkeeps, hclaims, -, hanswered⟩ := hended.taken.1
    refine ⟨_, rest, hexec, hanswered, hkeeps, by rw [hclaims]; simp [left], hended.put, fun n r hn hr => ?_⟩
    rw [State.onGate_stab, wrongTram_eq, State.take_routeDef, hn] at hr
    exact census_doubtAt hr
  · have hexec := exec_departureEnded hx hev
    have hsome : read.isSome = x.outRead.any (fun o => o.route = ev.route) := by
      rw [hread, Gate.readOf]
      cases x.outRead with
      | none => rfl
      | some o => by_cases ho : o.route = ev.route <;> simp [ho]
    rw [← hsome] at hexec
    refine ⟨_, hexec, ?_⟩
    cases read.isSome with
    | false => exact htaken.takenUnsent
    | true => exact (htaken.onGate (fun x => { x with outRead := none })).takenUnsent

theorem wrongTram_makesDoubtClaims : wrongTramMakesDoubtClaims := by
  intro g ev o x s hx hev ho hroute htram raised left both
  have hexec := exec_departureComplete hx hev
  rw [compareOutbound_wrong ho hroute htram] at hexec
  have hboth : both = (s.take (.gateDepartureEvent g ev)).wrongTram ev o.fleet := by
    rw [wrongTram_eq]
    change _ = State.doubtAt ((s.findTram o.fleet).map Prod.fst) left
    simp only [both]
    cases s.findTram o.fleet <;> rfl
  refine ⟨_, hexec, ?_⟩
  rw [hboth]
  refine ⟨rfl, rfl, fun p => ?_⟩
  rw [port_onGate]
  exact ⟨rfl, rfl⟩

/-- Settles O24: the events of an arrival route on its record, and those of a departure route on the outbound read. -/
theorem routeEventsAtTheGate : Obligations.RouteEventsAtTheGate :=
  ⟨arrivalRouteEvents_atTheGate, departureRouteEvents_atTheGate, arrivalRouteEvents_processTheHead, wrongTram_makesDoubtClaims⟩

end

end Sys2Proof.Machine

/-! # The desk's requests on the arrival queue (06 section 6.4) -/

namespace Sys2Proof.Machine

section

variable {s t : State} {parts : List Part} {sent : List Instr} {f : State → State} {g p i fleet length : Nat} {x : Gate} {d : GateDef}
  {a : Arrival} {ma wa : Byte} {q : Req}

/-! ## The arguments (R112, R113) -/

theorem needs_ofSetByte {b : Byte} (h : isSetByte b) : Needs.ofByte? b = some (Needs.ofLow b) := if_pos h

theorem setBytes_ok (hma : isSetByte ma) (hwa : isSetByte wa) : ((Needs.ofByte? ma).isSome && (Needs.ofByte? wa).isSome) = true := by
  rw [needs_ofSetByte hma, needs_ofSetByte hwa]
  rfl

theorem tramInRange_eq (fleet length : Nat) :
    tramInRange fleet length = decide (1 ≤ fleet ∧ fleet ≤ 4095 ∧ 10 ≤ length ∧ length ≤ 80) := by
  simp [tramInRange, Bool.decide_and, Bool.and_assoc]

/-- The record at a position that a request names. -/
def Gate.recordAt (x : Gate) (p : Nat) : Option Arrival := if p = 0 then none else x.queue[p - 1]?

theorem recordAt_succ (x : Gate) (i : Nat) : x.recordAt (i + 1) = x.queue[i]? := rfl

/-! ## What the requests are refused for -/

/-- A request that is refused changes nothing. -/
theorem request_refused {c : Instr} {k : Kind} {why : Reason} (h : exec c s = .next ((s.take c).reply k q (.refused why)).settle) :
    ∃ u, exec c s = .next u.settle ∧ Effect [] (s.claims.erase c) id (some (k, q, ⟨.refused, some why, []⟩)) s u :=
  ⟨_, h, effect_answer s c k q (.refused why) []⟩

theorem takeIdentify_noRecord (hx : Tbl.find g s.gates = some x) (h : x.recordAt p = none) :
    takeIdentify g p fleet length ma wa s = (s, .refused .badArgument) := by
  unfold takeIdentify
  split
  · rename_i heq _ _
    cases hx.symm.trans heq
    change (match x.recordAt p with | none => _ | some a => _) = _
    rw [h]
  · rfl

section

variable (hx : Tbl.find g s.gates = some x) (hma : isSetByte ma) (hwa : isSetByte wa)

include hx

theorem takeDiscard_noRecord (h : x.recordAt p = none) : takeDiscard g p s = (s, .refused .badArgument) := by
  unfold takeDiscard
  rw [hx]
  change (match x.recordAt p with | none => _ | some a => _) = _
  rw [h]

theorem takeDiscard_placed (h : x.recordAt p = some a) (ha : a.state ≠ .waiting) : takeDiscard g p s = (s, .refused .wrongState) := by
  unfold takeDiscard
  rw [hx]
  change (match x.recordAt p with | none => _ | some a => _) = _
  rw [h]
  exact if_pos ha

theorem takeArrivalResume_empty (h : x.queue = []) : takeArrivalResume g s = (s, .refused .wrongState) := by
  unfold takeArrivalResume
  simp [hx, h]

include hma hwa

/-- R112: ARRIVAL_IDENTIFY of a record that is there. -/
theorem takeIdentify_eq (h : x.recordAt p = some a) : takeIdentify g p fleet length ma wa s =
    if !tramInRange fleet length then (s, .refused .badArgument)
    else if a.mark = .none then (s, .refused .wrongState)
    else if s.identity fleet ≠ .free then (s, .refused .duplicate)
    else (headIf (p = 1) g (((s.onArrival g p (Arrival.known s.minute fleet length (Needs.ofLow ma) (Needs.ofLow wa))).postQueue g p
      .identified).queueChanged g false), .done) := by
  unfold takeIdentify
  rw [hx, needs_ofSetByte hma, needs_ofSetByte hwa]
  change (match x.recordAt p with | none => _ | some a => _) = _
  rw [h]
  dsimp only
  congr 2
  cases s.identity fleet with
  | present _ => simp
  | free => by_cases hone : p = 1 <;> simp [hone, headIf]

/-- R113: ARRIVAL_ADD. -/
theorem takeAdd_eq : takeAdd g fleet length ma wa s =
    if !tramInRange fleet length then (s, .refused .badArgument)
    else if x.queue.length = 4 then (s, .refused .full)
    else if s.identity fleet ≠ .free then (s, .refused .duplicate)
    else (s.joinQueue g ((Arrival.blank s.minute).known s.minute fleet length (Needs.ofLow ma) (Needs.ofLow wa)) .added,
      .done [.u8 (x.queue.length + 1)]) := by
  unfold takeAdd
  rw [hx, needs_ofSetByte hma, needs_ofSetByte hwa]
  dsimp only
  congr 2
  cases s.identity fleet <;> simp

end

/-- What the desk's arrival requests are refused for, at a defined gate in RUN. -/
theorem arrivalRequests_refused : arrivalRequestsRefused := by
  intro q g p fleet length ma wa d x s hat hq ho hma hwa record inRange here refused
  have hx := hat.2
  have hrange : inRange = tramInRange fleet length := (tramInRange_eq fleet length).symm
  have hidentify {why : Reason} (h : takeIdentify g p fleet length ma wa (s.take (.arrivalIdentify q g p fleet length ma wa)) =
      (s.take (.arrivalIdentify q g p fleet length ma wa), .refused why)) :
      refused (.arrivalIdentify q g p fleet length ma wa) .arrivalIdentify why :=
    request_refused (exec_gateRequest hat ho rfl (by rw [hq]; rfl) rfl rfl (setBytes_ok hma hwa) h)
  have hdiscard {why : Reason} (h : takeDiscard g p (s.take (.arrivalDiscard q g p)) = (s.take (.arrivalDiscard q g p), .refused why)) :
      refused (.arrivalDiscard q g p) .arrivalDiscard why :=
    request_refused (exec_gateRequest hat ho rfl (by rw [hq]; rfl) rfl rfl rfl h)
  have hadd {why : Reason} (h : takeAdd g fleet length ma wa (s.take (.arrivalAdd q g fleet length ma wa)) =
      (s.take (.arrivalAdd q g fleet length ma wa), .refused why)) : refused (.arrivalAdd q g fleet length ma wa) .arrivalAdd why :=
    request_refused (exec_gateRequest hat ho rfl (by rw [hq]; rfl) rfl rfl (setBytes_ok hma hwa) h)
  obtain ⟨r, hrecord⟩ : ∃ r, record = r := ⟨_, rfl⟩
  refine ⟨?_, ?_, ?_, fun hempty => ?_⟩
  · rw [hrecord]
    cases r with
    | none => exact hidentify (takeIdentify_noRecord (s := s.take _) hx hrecord)
    | some a =>
      have heq := takeIdentify_eq (s := s.take (.arrivalIdentify q g p fleet length ma wa)) (fleet := fleet) (length := length) hx hma hwa
        hrecord
      dsimp only
      rw [hrange]
      split_ifs with hout hmark
      · exact hidentify (heq.trans (if_pos hout))
      · exact hidentify (heq.trans ((if_neg hout).trans (if_pos hmark)))
      · intro hhere
        exact hidentify (heq.trans ((if_neg hout).trans ((if_neg hmark).trans (if_pos (of_decide_eq_true hhere)))))
  · rw [hrecord]
    cases r with
    | none => exact hdiscard (takeDiscard_noRecord (s := s.take _) hx hrecord)
    | some a => exact fun hstate => hdiscard (takeDiscard_placed (s := s.take _) hx hrecord hstate)
  · have heq := takeAdd_eq (s := s.take (.arrivalAdd q g fleet length ma wa)) (fleet := fleet) (length := length) hx hma hwa
    rw [hrange]
    split_ifs with hout hfull
    · exact hadd (heq.trans (if_pos hout))
    · exact hadd (heq.trans ((if_neg hout).trans (if_pos hfull)))
    · intro hhere
      exact hadd (heq.trans ((if_neg hout).trans ((if_neg hfull).trans (if_pos (of_decide_eq_true hhere)))))
  · exact request_refused (exec_gateRequest hat ho rfl (by rw [hq]; rfl) rfl rfl rfl
      (takeArrivalResume_empty (s := s.take (.arrivalResume q g)) hx hempty))

/-! ## The requests taken -/

/-- R112: ARRIVAL_IDENTIFY of a marked record. -/
theorem takeIdentify_done (hx : Tbl.find g s.gates = some x) (hma : isSetByte ma) (hwa : isSetByte wa) (ha : x.queue[i]? = some a)
    (hmark : a.mark ≠ .none) (hrange : tramInRange fleet length = true) (hfree : s.identity fleet = .free) :
    ∃ t, takeIdentify g (i + 1) fleet length ma wa s = (headIf (i + 1 = 1) g t, .done) ∧
      GateTaken [.gates] []
        (queueNotice g (i + 1) (a.known s.minute fleet length (Needs.ofLow ma) (Needs.ofLow wa)) [.u8 4]) s g
        { x with
          queue := x.queue.set i (a.known s.minute fleet length (Needs.ofLow ma) (Needs.ofLow wa))
          held := heldAfter s.param.queueHighMark false x.held
            (x.queue.set i (a.known s.minute fleet length (Needs.ofLow ma) (Needs.ofLow wa))) } t := by
  have hnoted := ((gateTaken_found hx).noted ha (Arrival.known s.minute fleet length (Needs.ofLow ma) (Needs.ofLow wa))
    .identified).queueChanged false
  refine ⟨_, ?_, hnoted⟩
  rw [takeIdentify_eq hx hma hwa (recordAt_succ x i ▸ ha), hrange, if_neg (by simp), if_neg hmark, if_neg (by simp [hfree])]

/-- R112: ARRIVAL_DISCARD of a WAITING record. -/
theorem takeDiscard_done (hx : Tbl.find g s.gates = some x) (ha : x.queue[i]? = some a) (hstate : a.state = .waiting) :
    ∃ t, takeDiscard g (i + 1) s = (headIf (i + 1 = 1) g t, .done) ∧
      GateTaken [.gates] [] (queueNotice g (i + 1) a [.u8 6]) s g
        { x with
          queue := x.queue.eraseIdx i, held := heldAfter s.param.queueHighMark false x.held (x.queue.eraseIdx i)
          placeNone := if i + 1 = 1 then none else x.placeNone } t := by
  have hleft := (((gateTaken_found hx).onGate (fun x => { x with queue := x.queue.eraseIdx i })).post .gate 1
    (.u8 g :: arrivalFields (i + 1) a ++ [.u8 6])).queueChanged false
  unfold takeDiscard headIf
  rw [hx]
  simp only [Nat.add_eq_zero_iff, Nat.one_ne_zero, and_false, if_false, Nat.add_sub_cancel, ha, hstate, ne_eq, not_true_eq_false]
  by_cases hone : i + 1 = 1
  · simp only [hone, if_true] at hleft ⊢
    exact ⟨_, rfl, hleft.onGate (fun x => { x with placeNone := none })⟩
  · simp only [hone, if_false]
    exact ⟨_, rfl, hleft⟩

/-- R113: ARRIVAL_ADD where there is room. -/
theorem takeAdd_done (hx : Tbl.find g s.gates = some x) (hma : isSetByte ma) (hwa : isSetByte wa) (hroom : x.queue.length < 4)
    (hrange : tramInRange fleet length = true) (hfree : s.identity fleet = .free) :
    ∃ t, takeAdd g fleet length ma wa s = (headIf (x.queue = []) g t, .done [.u8 (x.queue.length + 1)]) ∧
      GateTaken [.gates] []
        (queueNotice g (x.queue.length + 1) (blankRecord.known s.minute fleet length (Needs.ofLow ma) (Needs.ofLow wa)) [.u8 5]) s g
        { x with
          queue := x.queue ++ [blankRecord.known s.minute fleet length (Needs.ofLow ma) (Needs.ofLow wa)]
          held := heldAfter s.param.queueHighMark true x.held
            (x.queue ++ [blankRecord.known s.minute fleet length (Needs.ofLow ma) (Needs.ofLow wa)])
          placeNone := if x.queue = [] then none else x.placeNone } t := by
  obtain ⟨t, hjoin, hjoined⟩ := (gateTaken_found hx).joinQueue
    (blankRecord.known s.minute fleet length (Needs.ofLow ma) (Needs.ofLow wa)) .added
  refine ⟨t, ?_, hjoined⟩
  rw [takeAdd_eq hx hma hwa, hrange, if_neg (by simp), if_neg hroom.ne, if_neg (by simp [hfree]), ← hjoin]
  rfl

/-- R113: ARRIVAL_RESUME at a queue that is not empty. -/
theorem takeArrivalResume_done {b : Arrival} {rest : List Arrival} (hx : Tbl.find g s.gates = some x) (hqueue : x.queue = b :: rest) :
    ∃ t, takeArrivalResume g s = (t.processHead g, .done) ∧
      GateTaken [.gates] [] (fun s => if b.paused then queueNotice g 1 { b with paused := false } [.u8 12] s else s) s g
        { x with queue := { b with paused := false } :: rest } t := by
  have hb : x.queue[0]? = some b := by rw [hqueue]; rfl
  have hset : x.queue.set 0 { b with paused := false } = { b with paused := false } :: rest := by rw [hqueue]; rfl
  have hresumed := (gateTaken_found hx).onArrival hb (fun a => { a with paused := false })
  rw [hset] at hresumed
  have hnoted := hresumed.postQueue (i := 0) rfl .resumed
  unfold takeArrivalResume
  simp only [hx, hqueue, Option.bind_some, List.head?_cons]
  cases hpaused : b.paused with
  | false => exact ⟨_, rfl, hresumed⟩
  | true => exact ⟨_, rfl, hnoted⟩

/-- A request that goes on to head processing, and its answer. -/
theorem GateTaken.answered {c : Instr} (h : GateTaken parts [] f (s.take c) g x t) (occasion : Bool) (k : Kind) (q : Req) (a : Ans) :
    Effect [] (headIf occasion g t).claims id (some (k, q, a)) (headIf occasion g t) ((headIf occasion g t).reply k q a) ∧
      Answered (some (k, q, a)) s ((headIf occasion g t).reply k q a) ∧
      ∃ y, Tbl.find g ((headIf occasion g t).reply k q a).gates = some y ∧ y.lasting = x.lasting := by
  obtain ⟨sent', f', hacts⟩ := (h.acts.touches.mono h.acts.depot).next (touches_headIf occasion g t)
  obtain ⟨-, -, -, hanswered⟩ := effect_reply k q a hacts.afterTake
  refine ⟨effect_reply k q a (effect_none _ []), hanswered, ?_⟩
  rw [State.reply_gates]
  exact find_headIf occasion h.find

theorem arrivalRequests_processTheHead : arrivalRequestsProcessTheHead := by
  intro q g p fleet length ma wa a d x s hat hq ho hma hwa inRange known leaves
  have hx := hat.2
  have hknown : known = Arrival.known s.minute fleet length (Needs.ofLow ma) (Needs.ofLow wa) := rfl
  have hrange (h : inRange) : tramInRange fleet length = true := (tramInRange_eq fleet length).trans (decide_eq_true h)
  refine ⟨fun hin hfree hp ha hmark => ?_, fun hp ha hstate => ?_, fun hin hfree hroom => ?_, fun b rest hqueue => ?_⟩
  · obtain ⟨i, rfl⟩ : ∃ i, p = i + 1 := ⟨p - 1, by omega⟩
    obtain ⟨t, htake, htaken⟩ := takeIdentify_done (s := s.take (.arrivalIdentify q g (i + 1) fleet length ma wa)) hx hma hwa ha hmark
      (hrange hin) hfree
    refine ⟨t, _, exec_gateRequest hat ho rfl (by rw [hq]; rfl) rfl rfl (setBytes_ok hma hwa) htake, htaken.takenUnsent.1, ?_,
      (htaken.answered _ .arrivalIdentify q .done).1⟩
    simpa [hknown] using htaken.put
  · obtain ⟨i, rfl⟩ : ∃ i, p = i + 1 := ⟨p - 1, by omega⟩
    obtain ⟨t, htake, htaken⟩ := takeDiscard_done (s := s.take (.arrivalDiscard q g (i + 1))) hx ha hstate
    refine ⟨t, _, exec_gateRequest hat ho rfl (by rw [hq]; rfl) rfl rfl rfl htake, htaken.takenUnsent.1, ?_,
      (htaken.answered _ .arrivalDiscard q .done).1⟩
    simpa using htaken.put
  · obtain ⟨t, htake, htaken⟩ := takeAdd_done (s := s.take (.arrivalAdd q g fleet length ma wa)) hx hma hwa hroom (hrange hin) hfree
    refine ⟨t, _, exec_gateRequest hat ho rfl (by rw [hq]; rfl) rfl rfl (setBytes_ok hma hwa) htake, htaken.takenUnsent.1, ?_,
      (htaken.answered _ .arrivalAdd q (.done [.u8 (x.queue.length + 1)])).1⟩
    simpa [hknown] using htaken.put
  · obtain ⟨t, htake, htaken⟩ := takeArrivalResume_done (s := s.take (.arrivalResume q g)) hx hqueue
    exact ⟨t, _, exec_gateRequest hat ho rfl (by rw [hq]; rfl) rfl rfl rfl htake, htaken.takenUnsent.1, htaken.put,
      (htaken.answered true .arrivalResume q .done).1⟩

theorem arrivalRequests_taken : arrivalRequestsTaken := by
  intro q g p fleet length ma wa a d x s hat hq ho hma hwa hlow hhigh hshort hlong hfree
  have hx := hat.2
  have hrange : tramInRange fleet length = true := (tramInRange_eq fleet length).trans (decide_eq_true ⟨hlow, hhigh, hshort, hlong⟩)
  refine ⟨fun hp ha hmark => ?_, fun hp ha hstate => ?_, fun hroom => ?_, fun hsome => ?_⟩
  · obtain ⟨i, rfl⟩ : ∃ i, p = i + 1 := ⟨p - 1, by omega⟩
    obtain ⟨t, htake, htaken⟩ := takeIdentify_done (s := s.take (.arrivalIdentify q g (i + 1) fleet length ma wa)) hx hma hwa ha hmark
      hrange hfree
    obtain ⟨-, hanswered, y, hy, hlasting⟩ := htaken.answered (decide (i + 1 = 1)) .arrivalIdentify q .done
    have hlen := (List.getElem?_eq_some_iff.mp ha).1
    obtain ⟨b, hb, hreturned⟩ := lasting_record hlasting (i := i) (List.getElem?_set_self hlen)
    refine ⟨_, y, b, exec_gateRequest hat ho rfl (by rw [hq]; rfl) rfl rfl (setBytes_ok hma hwa) htake, hanswered, hy,
      by rw [lasting_fleets hlasting, List.map_set]; rfl, hb, ?_⟩
    have hpaused := congrArg Arrival.paused hreturned
    exact ⟨congrArg Arrival.claimed hreturned, congrArg Arrival.length hreturned, congrArg Arrival.mandatory hreturned,
      congrArg Arrival.wanted hreturned, congrArg Arrival.mark hreturned, hpaused,
      congrArg Arrival.readTime hreturned⟩
  · obtain ⟨i, rfl⟩ : ∃ i, p = i + 1 := ⟨p - 1, by omega⟩
    obtain ⟨t, htake, htaken⟩ := takeDiscard_done (s := s.take (.arrivalDiscard q g (i + 1))) hx ha hstate
    obtain ⟨-, hanswered, y, hy, hlasting⟩ := htaken.answered (decide (i + 1 = 1)) .arrivalDiscard q .done
    exact ⟨_, y, exec_gateRequest hat ho rfl (by rw [hq]; rfl) rfl rfl rfl htake, hanswered, hy,
      by rw [lasting_fleets hlasting, List.eraseIdx_map]⟩
  · obtain ⟨t, htake, htaken⟩ := takeAdd_done (s := s.take (.arrivalAdd q g fleet length ma wa)) hx hma hwa hroom hrange hfree
    obtain ⟨-, hanswered, y, hy, hlasting⟩ := htaken.answered (decide (x.queue = [])) .arrivalAdd q (.done [.u8 (x.queue.length + 1)])
    exact ⟨_, y, exec_gateRequest hat ho rfl (by rw [hq]; rfl) rfl rfl (setBytes_ok hma hwa) htake, hanswered, hy,
      by rw [lasting_fleets hlasting, List.map_append]; rfl⟩
  · obtain ⟨b, rest, hqueue⟩ := List.exists_cons_of_ne_nil hsome
    obtain ⟨t, htake, htaken⟩ := takeArrivalResume_done (s := s.take (.arrivalResume q g)) hx hqueue
    obtain ⟨-, hanswered, y, hy, hlasting⟩ := htaken.answered true .arrivalResume q .done
    obtain ⟨c, hc, hreturned⟩ := lasting_record hlasting (i := 0) rfl
    refine ⟨_, y, c, exec_gateRequest hat ho rfl (by rw [hq]; rfl) rfl rfl rfl htake, hanswered, hy,
      by rw [lasting_fleets hlasting, hqueue]; rfl, by rw [List.head?_eq_getElem?]; exact hc, ?_⟩
    exact congrArg Arrival.paused hreturned

/-- Settles O23: the refusals in order, and each request by what it leaves before head processing (`GateTaken.answered`). -/
theorem arrivalRequests : Obligations.ArrivalRequests :=
  ⟨arrivalRequests_refused, arrivalRequests_taken, arrivalRequests_processTheHead⟩

end

end Sys2Proof.Machine

/-! # Head processing and the arrival route's request (06 section 6.5; 04 sections 4.4, 4.5) -/

namespace Sys2Proof.Machine

section

variable {s t u v w : State} {parts : List Part} {sent : List Instr} {f : State → State} {kinds : List RouteKind} {q : RouteRequest}
  {d : RouteDef}

/-! ## What a route request reads -/

/-- Two states with the same yard: what a route request reads of one is what it reads of the other. -/
structure SameYard (s w : State) : Prop where
  sections : w.sections = s.sections
  points : w.points = s.points
  route : w.route = s.route
  desc : w.desc = s.desc
  inForce : w.inForce = s.inForce

/-- A state with another's yard. -/
def State.withYard (s w : State) : State :=
  { s with sections := w.sections, points := w.points, route := w.route, desc := w.desc, inForce := w.inForce }

theorem SameYard.withYard (h : SameYard s w) : s.withYard w = s := by
  unfold State.withYard
  rw [h.sections, h.points, h.route, h.desc, h.inForce]

theorem Acts.sameYard (h : Acts parts sent f s w) (hp : parts ⊆ [.gates, .stabling] := by simp) : SameYard s w := by
  have hnot (x : Part) (hx : x ∉ [Part.gates, .stabling]) : x ∉ parts := fun hm => hx (hp hm)
  exact ⟨h.sections (hnot _ (by simp)), h.points (hnot _ (by simp)), h.route (hnot _ (by simp)), h.desc, h.inForce⟩

theorem SameYard.trans (h : SameYard s t) (h' : SameYard t u) : SameYard s u :=
  ⟨h'.sections.trans h.sections, h'.points.trans h.points, h'.route.trans h.route, h'.desc.trans h.desc, h'.inForce.trans h.inForce⟩

theorem SameYard.symm (h : SameYard s w) : SameYard w s :=
  ⟨h.sections.symm, h.points.symm, h.route.symm, h.desc.symm, h.inForce.symm⟩

/-- A function that reads the yard alone. -/
theorem SameYard.congr {α : Type} {φ : State → α} (h : SameYard s w) (hφ : φ (s.withYard w) = φ w) : φ w = φ s := by
  rw [← hφ, h.withYard]

theorem requestRefusal_sameYard (h : SameYard s w) (k : Nat) (d : RouteDef) : requestRefusal k d w = requestRefusal k d s :=
  h.congr (φ := requestRefusal k d) rfl

theorem slotTaken_sameYard (h : SameYard s w) (d : RouteDef) : slotTaken d w = slotTaken d s := h.congr (φ := slotTaken d) rfl

theorem requestClaims_sameYard (h : SameYard s w) (k : Nat) (o : Owner) (p : Purpose) (tram : Option Nat) (d : RouteDef) :
    requestClaims k o p tram d w = requestClaims k o p tram d s := h.congr (φ := requestClaims k o p tram d) rfl

theorem requestNotices_sameYard (h : SameYard s w) (h' : SameYard u t) (k : Nat) (o : Owner) (p : Purpose) (tram : Option Nat)
    (d : RouteDef) : requestNotices k o p tram d w t = requestNotices k o p tram d s u :=
  (h.congr (φ := fun s => requestNotices k o p tram d s t) rfl).trans (h'.congr (φ := requestNotices k o p tram d s) rfl)

theorem requested_sameYard (h : SameYard s w) (h' : SameYard u t) (k : Nat) (o : Owner) (p : Purpose) (tram : Option Nat)
    (d : RouteDef) : Requested k o p tram d w t = Requested k o p tram d s u :=
  (h.congr (φ := fun s => Requested k o p tram d s t) rfl).trans (h'.congr (φ := Requested k o p tram d s) rfl)

/-- R127: a stacking report reads the stacks as well. -/
theorem freeCapacity_sameYard (h : SameYard s w) (hs : w.stab = s.stab) (g : Nat) : w.freeCapacity g = s.freeCapacity g := by
  have hsame : { s with stab := w.stab } = s := by rw [hs]
  exact (h.congr (φ := fun v => ({ v with stab := w.stab } : State).freeCapacity g) rfl).trans (congrArg (State.freeCapacity · g) hsame)

/-! ## What a route request comes to (R60–R66) -/

/-- R60, R61, R65: a request that is refused changes nothing. -/
theorem requestRoute_refusal {why : Reason} {fs : List Field} (hd : s.routeDef q.route = some d) (hk : kinds.contains d.kind = true)
    (h : requestRefusal q.route d s = some (why, fs)) : s.requestRoute kinds q = (s, .refused why fs) := by
  unfold requestRefusal at h
  split at h
  · rename_i hobject
    cases h
    exact requestRoute_unavailable hd hk hobject
  · rename_i hobject
    cases h
    exact requestRoute_unavailable hd hk hobject
  · rename_i hobject hslot
    cases h
    exact requestRoute_inTable hd hk hobject hslot
  · rename_i hobject hslot hstore
    cases h
    exact requestRoute_inStore hd hk hobject hslot hstore
  · rename_i hobject hslot hstore
    split_ifs at h with hfull
    cases h
    obtain ⟨hnone, hlen⟩ := hfull
    have hbusy : (!s.available d s.route.store || s.freeSlot.isNone) = true := by
      unfold slotTaken at hnone
      cases hav : s.available d s.route.store <;> simp_all
    rw [requestRoute_waits ⟨hd, hk, hobject, hslot, hstore⟩ hbusy]
    exact storeRequest_full (Nat.not_lt.mpr hlen) q

/-- R63, R65: what is answered to a request that is not refused. -/
def requestGranted (d : RouteDef) (s : State) : Granted :=
  match slotTaken d s with
  | some slot => .accepted slot
  | none => .stored (s.route.store.length + 1)

/-- R62–R66: a request that is not refused stands in its slot, or in the store. -/
theorem requestRoute_requested (hd : s.routeDef q.route = some d) (hk : kinds.contains d.kind = true)
    (h : requestRefusal q.route d s = none) (hnodup : (routePoints d).Nodup) :
    ∃ u, s.requestRoute kinds q = (u, requestGranted d s) ∧
      Does yardParts (requestClaims q.route q.owner q.purpose q.tram d s) (requestNotices q.route q.owner q.purpose q.tram d s u) s u ∧
      Requested q.route q.owner q.purpose q.tram d s u := by
  unfold requestRefusal at h
  split at h
  case h_5 hobject hslot hstore =>
    have hadmits : s.Admits kinds q d := ⟨hd, hk, hobject, hslot, hstore⟩
    unfold requestGranted requestClaims requestNotices Requested
    cases htaken : slotTaken d s with
    | some slot =>
      unfold slotTaken at htaken
      split_ifs at htaken with hav
      obtain ⟨u, hrequest, htable, hdoes⟩ := requestRoute_taken hadmits hnodup hav htaken
      exact ⟨u, hrequest, hdoes, htable⟩
    | none =>
      have hroom : s.route.store.length < 8 := by simpa [htaken] using h
      have hbusy : (!s.available d s.route.store || s.freeSlot.isNone) = true := by
        unfold slotTaken at htaken
        cases hav : s.available d s.route.store <;> simp_all
      obtain ⟨u, hstored, hdoes, hroute⟩ := storeRequest_stored hroom q
      exact ⟨u, (requestRoute_waits hadmits hbusy).trans hstored, hdoes.inYard, hdoes.acts.sections, hdoes.acts.points, hroute⟩
  all_goals cases h

/-! ## A stacking report at a gate (R117) -/

/-- R117: the gate once a stacking report has come; `own` where it is the report of its own reservation that was refused a route. -/
def Gate.reported (own : Bool) (g : Nat) (rep : StackReport) (reserve band : Nat) (x : Gate) : Gate :=
  let free := if g = 1 then rep.capacity1 else rep.capacity2
  { x with
    ownReport := if own then none else x.ownReport
    freeCapacity := some free
    held := { x.held with capacityLow := capacityLow x.held.capacityLow free reserve band } }

section

variable {g : Nat} {x : Gate} {rep : StackReport}

/-- R114, R117: the report's capacities are taken; it is an occasion for head processing but where it is of the gate's own doing. -/
theorem exec_stackingReport (hx : Tbl.find g s.gates = some x) : ∃ t, exec (.stackingReport g rep) s =
      .next (headIf (decide ¬(rep.releaseGate = some g ∨ x.ownReport = some rep)) g t).settle ∧
    GateTaken [.gates] [] id (s.take (.stackingReport g rep)) g
      (x.reported (x.ownReport = some rep) g rep s.param.capacityReserve s.param.capacityBand) t := by
  refine ⟨_, ?_, (gateTaken_found (s := s.take (.stackingReport g rep)) hx).onGate
    (Gate.reported (x.ownReport = some rep) g rep s.param.capacityReserve s.param.capacityBand)⟩
  have hown : (Tbl.find g (s.take (.stackingReport g rep)).gates).any (fun x => x.ownReport = some rep) =
      decide (x.ownReport = some rep) := by
    rw [State.take_gates, hx]
    rfl
  change execStackingReport g rep s = _
  unfold execStackingReport
  dsimp only
  rw [hown]
  have hoccasion (t : State) : (if rep.releaseGate = some g ∨ decide (x.ownReport = some rep) = true then t else t.processHead g) =
      headIf (decide ¬(rep.releaseGate = some g ∨ x.ownReport = some rep)) g t := by
    unfold headIf
    by_cases h : rep.releaseGate = some g ∨ x.ownReport = some rep <;> simp [h]
  exact congrArg (fun v => Host.Outcome.next (State.settle v)) (hoccasion _)

theorem stackingReport_setsCapacity : stackingReportSetsCapacity := by
  intro g rep x s hx free low
  obtain ⟨t, hexec, htaken⟩ := exec_stackingReport (rep := rep) hx
  obtain ⟨y, hy, hlasting⟩ := find_headIf (decide ¬(rep.releaseGate = some g ∨ x.ownReport = some rep)) htaken.find
  have hkept : (if decide (x.ownReport = some rep) then none else x.ownReport) = if x.ownReport = some rep then none else x.ownReport := by
    simp only [decide_eq_true_eq]
  have hput := htaken.put
  unfold Gate.reported at hput
  rw [hkept] at hput
  refine ⟨_, y, hexec, hy, congrArg Gate.freeCapacity hlasting, congrArg Gate.held hlasting, fun hown => ?_, fun hgate hreport => ?_⟩
  · rw [decide_eq_false (not_not_intro hown), headIf_false]
    exact ⟨htaken.takenUnsent.1, hput⟩
  · rw [if_neg hreport] at hput
    refine ⟨t, ?_, htaken.takenUnsent.1, hput⟩
    rw [decide_eq_true (not_or.mpr ⟨hgate, hreport⟩)]
    rfl

end

end

end Sys2Proof.Machine

/-! # The head of the queue finds a place (06 section 6.5; 07 section 7.3) -/

namespace Sys2Proof.Machine

section

variable {s t u v w : State} {g n fleet length k : Nat} {ma wa : Needs} {x : Gate} {a : Arrival} {rest : List Arrival} {d : RouteDef}
  {sent : List Instr} {f : State → State}

/-! ## The release of a fresh reservation (R126, R131) -/

/-- R126: what a stacking report carries is of the yard and the stacks. -/
theorem reports_congr (h : SameYard t u) (hs : u.stab = t.stab) (hk : Tbl.keys u.gates = Tbl.keys t.gates) (c : StackCause)
    (r : Option Nat) : reports u c r = reports t c r := by
  unfold reports
  rw [hk, freeCapacity_sameYard h hs, freeCapacity_sameYard h hs]

/-- R131: the release of a gate's own reservation. -/
theorem releaseClaim_acts {r : SidingRec} {i : Nat} {y : StackRec} (hfind : s.findTram fleet = some (n, r, i, y))
    (hy : y.state = .reserved ∧ y.purpose = some (.gateArrival g) ∧ y.entered = false) :
    Acts [.stabling] (reports (s.releaseClaim g fleet) .released (some g)) (State.postStack n fleet (i + 1) none .released) s
      (s.releaseClaim g fleet) := by
  rw [releaseClaim_reserved hfind hy]
  have hdropped : Acts [.stabling] [] (State.postStack n fleet (i + 1) none .released) s
      ((s.dropRecord n fleet).postStack n fleet (i + 1) none .released) :=
    (show Acts [.stabling] [] id s (s.dropRecord n fleet) from acts_onSiding s n _).update (acts_postStack _ n fleet (i + 1) none .released)
  have hreport := acts_report ((s.dropRecord n fleet).postStack n fleet (i + 1) none .released) .released (some g)
  have hall := hdropped.next hreport
  rw [List.nil_append, ← reports_congr hreport.sameYard hreport.stab (congrArg Tbl.keys hreport.gates)] at hall
  exact hall

/-! ## Head processing by what the allocation finds (R114) -/

/-- R114: a head that is WAITING, not marked, not paused and known. -/
structure Arrival.ToPlace (a : Arrival) (fleet length : Nat) (ma wa : Needs) : Prop where
  state : a.state = .waiting
  mark : a.mark = .none
  paused : a.paused = false
  fleet : a.fleet = some fleet
  length : a.length = some length
  mandatory : a.mandatory = some ma
  wanted : a.wanted = some wa

/-- R115: the state in which the arrival route is requested. -/
def State.headAllocated (g n : Nat) (v : State) : State :=
  (v.onArrival g 1 (fun a => { a with state := .allocated, siding := some n })).onGate g (fun x => { x with placeNone := none })

/-- R114, R115: what follows the answer to the allocation claim. -/
def State.placed (g fleet : Nat) : State × Allocation → State
  | (v, .siding n) => (v.headAllocated g n).requestArrival g fleet n
  | (v, .noPlace why) => v.noPlace g fleet why
  | (v, .duplicate) => v

theorem processHead_toPlace (hx : Tbl.find g s.gates = some x) (hqueue : x.queue = a :: rest) (ha : a.ToPlace fleet length ma wa) :
    s.processHead g = State.placed g fleet (s.allocate g fleet length ma wa) := by
  unfold State.processHead State.placed
  simp only [hx, hqueue, Option.bind_some, List.head?_cons, ha.fleet, ha.length, ha.mandatory, ha.wanted]
  rw [if_pos ⟨ha.state, ha.mark, ha.paused⟩]
  rfl

/-- R114: NO_PLACE is posted and remembered at a change of its reason. -/
theorem noPlace_same {why : PlaceReason} (hx : Tbl.find g s.gates = some x) (h : x.placeNone = some why) :
    s.noPlace g fleet why = s := by
  unfold State.noPlace
  rw [hx]
  exact if_pos h

theorem noPlace_changed {why : PlaceReason} (hx : Tbl.find g s.gates = some x) (h : x.placeNone ≠ some why) :
    GateTaken [.gates] [] (fun s => s.post .gate 3 [.u8 g, .u16 fleet, .u8 why.code]) s g { x with placeNone := some why }
      (s.noPlace g fleet why) := by
  unfold State.noPlace
  rw [hx]
  dsimp only
  rw [if_neg h]
  exact ((gateTaken_found hx).onGate (fun x => { x with placeNone := some why })).post _ _ _

/-- R114, R115: the head in hand, allocated to a siding. -/
def Gate.allocated (n : Nat) (a : Arrival) (rest : List Arrival) (x : Gate) : Gate :=
  { x with placeNone := none, queue := { a with state := .allocated, siding := some n } :: rest }

theorem headAllocated_taken (hx : Tbl.find g v.gates = some x) (hqueue : x.queue = a :: rest) :
    GateTaken [.gates] [] id v g (x.allocated n a rest) (v.headAllocated g n) := by
  have ha : x.queue[0]? = some a := by rw [hqueue]; rfl
  have hset : x.queue.set 0 { a with state := .allocated, siding := some n } = { a with state := .allocated, siding := some n } :: rest := by
    rw [hqueue]
    rfl
  have hallocated := (gateTaken_found hx).onArrival ha (fun a => { a with state := .allocated, siding := some n })
  rw [hset] at hallocated
  exact hallocated.onGate (fun x => { x with placeNone := none })

/-- R115: the request of the arrival route, once its catalogue number is known. -/
theorem processHead_siding (hx : Tbl.find g s.gates = some x) (hqueue : x.queue = a :: rest) (ha : a.ToPlace fleet length ma wa)
    (hv : s.allocate g fleet length ma wa = (v, .siding n)) (hk : s.lookup .arrival g n = some k) :
    s.processHead g = State.arrivalGranted g fleet ⟨.reserved, none, v.freeCapacity 1, v.freeCapacity 2⟩
      ((v.headAllocated g n).requestRoute [.arrival] ⟨k, .auto, .gateArrival g fleet, none⟩) := by
  obtain ⟨⟨_, _, hplace⟩, -⟩ := allocate_siding hv
  have hlookup : (v.headAllocated g n).lookup .arrival g n = some k :=
    (hplace.sameYard.congr (φ := fun v => v.lookup .arrival g n) rfl).trans hk
  rw [processHead_toPlace hx hqueue ha, hv]
  change State.requestArrival g fleet n (v.headAllocated g n) = _
  rw [requestArrival_eq, hlookup]
  rfl

/-! ## The arrival route is refused (R115) -/

/-- A frame without a part that stands as before. -/
theorem keepsAllBut_gates (h : KeepsAllBut [.gates, .stabling] s t) (hs : t.stab = s.stab) : KeepsAllBut [.gates] s t := by
  obtain ⟨hpending, huptime, hparts⟩ := h
  refine ⟨hpending, huptime, fun y hy => ?_⟩
  by_cases hstab : y = .stabling
  · rw [hstab]
    exact hs
  · exact hparts y (by simpa [hstab] using hy)

/-- The release of a reservation that was just made leaves the stacks as they were before it. -/
theorem releaseClaim_push {x : StackRec} {r : SidingRec} {i : Nat} (hnone : s.findTram x.fleet = none)
    (hstab : v.stab = (s.pushRecord n x).stab) (hfind : v.findTram x.fleet = some (n, r, i, x))
    (hx : x.state = .reserved ∧ x.purpose = some (.gateArrival g) ∧ x.entered = false) : (v.releaseClaim g x.fleet).stab = s.stab := by
  rw [releaseClaim_reserved hfind hx, (touches_report _ _ _).stab]
  exact dropRecord_push hnone hstab

/-- R115: the head and the memory of the gate once its arrival route was refused. -/
def Gate.routeRefused (own : StackReport) (a : Arrival) (rest : List Arrival) (x : Gate) : Gate :=
  { x with placeNone := none, queue := a.returned :: rest, ownReport := some own }

theorem arrivalRefused {own : StackReport} {why : Reason} {fs : List Field} (hplace : Touches [.stabling] s v)
    (hnone : s.findTram fleet = none) (hn : n ∈ Tbl.keys s.stab.sidings)
    (hstab : v.stab = (s.pushRecord n (allocatedRecord s g fleet length ma wa)).stab)
    (hx : Tbl.find g v.gates = some x) (hqueue : x.queue = a :: rest)
    (ht : t = State.arrivalGranted g fleet own (v.headAllocated g n, .refused why fs)) :
    KeepsAllBut [.gates] s t ∧ Answered none s t ∧ t.claims = v.claims ++ reports t .released (some g) ∧
      Put g (x.routeRefused own a rest) v.gates t.gates ∧
      Notes (fun t => queueNotice g 1 a.returned [.u8 9, .u8 why.code] (t.releaseClaim g fleet)) v t := by
  have hallocated := headAllocated_taken (n := n) hx hqueue
  obtain ⟨r, i, hfind⟩ := findTram_push hn hnone hstab
  have hown : (allocatedRecord s g fleet length ma wa).state = .reserved ∧
      (allocatedRecord s g fleet length ma wa).purpose = some (.gateArrival g) ∧
      (allocatedRecord s g fleet length ma wa).entered = false := ⟨rfl, rfl, rfl⟩
  have hfind' : (v.headAllocated g n).findTram fleet = some (n, r, i, allocatedRecord s g fleet length ma wa) := hfind
  have hreleased := releaseClaim_acts hfind' hown
  have hback : ({ a with state := .allocated, siding := some n } : Arrival).returned = a.returned := rfl
  have hended := (((hallocated.mono (parts' := [.gates, .stabling]) (by simp)).next hreleased).onGate
    (fun x => { x with ownReport := some own })).noted (i := 0) rfl Arrival.returned (.routeRefused why)
  rw [List.nil_append] at hended
  obtain ⟨sent, f, hafter⟩ : Touches [.gates] ((v.headAllocated g n).releaseClaim g fleet) t := by
    rw [ht]
    exact ((touches_onGate _ g _).next (touches_onArrival _ g 1 _)).next (touches_postQueue _ g 1 _)
  have hkeys : Tbl.keys t.gates = Tbl.keys ((v.headAllocated g n).releaseClaim g fleet).gates := by
    rw [ht]
    change Tbl.keys (State.postQueue g 1 _ _).gates = _
    rw [(touches_postQueue _ _ _ _).gates]
    simp [State.onArrival]
  have hclaims : t.claims = v.claims ++ reports t .released (some g) := by
    rw [reports_congr hafter.sameYard hafter.stab hkeys, ht]
    exact hended.acts.claims
  have hsame : t.stab = s.stab := hafter.stab.trans (releaseClaim_push (x := allocatedRecord s g fleet length ma wa) hnone
    (hallocated.acts.stab.trans hstab) hfind' hown)
  have htouches : Touches [.gates, .stabling] s t := by
    rw [ht]
    exact (hplace.mono (by simp)).next hended.acts.touches
  refine ⟨keepsAllBut_gates htouches.keeps hsame, htouches.answered, hclaims, ?_, fun p => ?_⟩
  · rw [ht]
    exact hended.put
  · have hrelease := (releaseClaim_acts hfind hown).update (acts_posts (posts_queueNotice g 1 a.returned [.u8 9, .u8 why.code]) _)
    obtain ⟨hnotes, hlost⟩ := hrelease.notes p
    obtain ⟨hnotes', hlost'⟩ := hended.acts.notes p
    rw [ht]
    exact ⟨hnotes'.trans hnotes.symm, hlost'.trans hlost.symm⟩

/-! ## The arrival route stands (R115) -/

/-- R115: the head of the gate once its arrival route stands. -/
def Gate.routed (slot : Option Nat) (n : Nat) (a : Arrival) (rest : List Arrival) (x : Gate) : Gate :=
  { x with placeNone := none, queue := { a with state := .allocated, siding := some n, slot := slot.or a.slot } :: rest }

/-- R115: the slot is noted at the record where the route is in the table. -/
theorem arrivalGranted_taken {own : StackReport} {parts : List Part} {sent : List Instr} {f : State → State}
    (h : GateTaken parts sent f v g (x.allocated n a rest) u) (d : RouteDef) (s : State) :
    GateTaken parts sent
      (fun v => queueNotice g 1 { a with state := .allocated, siding := some n, slot := (slotTaken d s).or a.slot } [.u8 7] (f v)) v g
      (x.routed (slotTaken d s) n a rest) (State.arrivalGranted g fleet own (u, requestGranted d s)) := by
  unfold requestGranted
  cases slotTaken d s with
  | none => exact h.postQueue (i := 0) rfl .allocated
  | some slot => exact h.noted (i := 0) rfl (fun a => { a with slot := some slot }) .allocated

theorem arrivalGranted_sameYard (own : StackReport) (d : RouteDef) (s : State) :
    SameYard u (State.arrivalGranted g fleet own (u, requestGranted d s)) := by
  obtain ⟨sent, f, hacts⟩ : Touches [.gates] u (State.arrivalGranted g fleet own (u, requestGranted d s)) := by
    unfold requestGranted
    cases slotTaken d s with
    | none => exact (touches_postQueue u g 1 _).mono (List.nil_subset _)
    | some slot => exact (touches_onArrival u g 1 _).next (touches_postQueue _ g 1 _)
  exact hacts.sameYard

theorem arrivalStands {own : StackReport} (hplace : Acts [.stabling] sent f s v) (hx : Tbl.find g v.gates = some x)
    (hqueue : x.queue = a :: rest) (hdef : Tbl.find k s.desc.routes = some d) (hkind : d.kind = .arrival)
    (hrefusal : requestRefusal k d s = none) (hnodup : (routePoints d).Nodup)
    (ht : t = State.arrivalGranted g fleet own
      ((v.headAllocated g n).requestRoute [.arrival] ⟨k, .auto, .gateArrival g fleet, none⟩)) :
    KeepsAllBut [.sections, .points, .routes, .gates, .stabling] s t ∧ Answered none s t ∧ t.stab = v.stab ∧
      t.claims = v.claims ++ requestClaims k .auto (.gateArrival g fleet) none d s ∧
      Notes (fun v => queueNotice g 1 { a with state := .allocated, siding := some n, slot := (slotTaken d s).or a.slot } [.u8 7]
        (requestNotices k .auto (.gateArrival g fleet) none d s t v)) v t ∧
      Put g (x.routed (slotTaken d s) n a rest) v.gates t.gates ∧ Requested k .auto (.gateArrival g fleet) none d s t := by
  have hallocated := headAllocated_taken (n := n) hx hqueue
  have hyard : SameYard s (v.headAllocated g n) := hplace.sameYard.trans hallocated.acts.sameYard
  obtain ⟨u, hrequest, hdoes, hstands⟩ := requestRoute_requested (s := v.headAllocated g n) (kinds := [.arrival])
    (q := ⟨k, .auto, .gateArrival g fleet, none⟩) (d := d) (by rw [State.routeDef, hyard.desc]; exact hdef) (by rw [hkind]; rfl)
    ((requestRefusal_sameYard hyard k d).trans hrefusal) hnodup
  have hgranted := arrivalGranted_taken (fleet := fleet) (own := own)
    ((hallocated.mono (parts' := [.sections, .points, .routes, .gates]) (by simp)).next hdoes.acts) d (v.headAllocated g n)
  have hstands' : SameYard u t := by
    rw [ht, hrequest]
    exact arrivalGranted_sameYard _ _ _
  rw [← hrequest, ← ht, slotTaken_sameYard hyard, List.nil_append] at hgranted
  have htouches : Touches depotParts s t := (hplace.touches.mono (by simp)).next hgranted.acts.touches
  refine ⟨htouches.keeps, htouches.answered, hgranted.acts.stab, ?_, ?_, hgranted.put, ?_⟩
  · rw [← requestClaims_sameYard hyard]
    exact hgranted.acts.claims
  · rw [requestNotices_sameYard hyard.symm hstands']
    exact hgranted.acts.notes
  · rw [requested_sameYard hyard.symm hstands']
    exact hstands

/-! ## Head processing, case by case -/

theorem head_processing : headProcessing := by
  intro g x s hx t
  refine ⟨fun hempty => processHead_idle hx (by simp [hempty]), fun a rest hqueue => ⟨fun hidle => ?_, ?_⟩⟩
  · exact processHead_idle hx (by simpa [hqueue] using hidle)
  intro fleet l ma wa hstate hmark hpaused hfleet hlength hmandatory hwanted
  have ha : a.ToPlace fleet l ma wa := ⟨hstate, hmark, hpaused, hfleet, hlength, hmandatory, hwanted⟩
  have ht : t = State.placed g fleet (s.allocate g fleet l ma wa) := processHead_toPlace hx hqueue ha
  split
  · rename_i v hv
    rw [ht, hv]
    exact allocate_same hv (by simp)
  · rename_i v why hv
    have hsame : v = s := allocate_same hv (by simp)
    have ht' : t = s.noPlace g fleet why := by rw [ht, hv, ← hsame]; rfl
    rw [ht']
    split_ifs with hplace
    · exact noPlace_same hx hplace
    · have hnoticed := (noPlace_changed (fleet := fleet) hx hplace).unsent
      cases why <;> exact hnoticed
  · rename_i v n hv
    intro k d hlookup hdef hkind
    obtain ⟨⟨sent, f, hplace⟩, hnone, hn, hstab⟩ := allocate_siding hv
    have hgates := hplace.gates
    have hxv : Tbl.find g v.gates = some x := by rw [hgates]; exact hx
    have ht' := processHead_siding hx hqueue ha hv hlookup
    rw [← hgates]
    split
    · rename_i why fs hrefusal
      intro back
      have hyard : SameYard s (v.headAllocated g n) := hplace.sameYard.trans (headAllocated_taken hxv hqueue).acts.sameYard
      rw [requestRoute_refusal (d := d) (by rw [State.routeDef, hyard.desc]; exact hdef) (by rw [hkind]; rfl)
        ((requestRefusal_sameYard hyard k d).trans hrefusal)] at ht'
      exact arrivalRefused hplace.touches hnone hn hstab hxv hqueue ht'
    · rename_i hrefusal
      intro hnodup placed
      exact arrivalStands hplace hxv hqueue hdef hkind hrefusal hnodup ht'

/-- Settles O20: the report's capacities (`exec_stackingReport`), and head processing by the allocation and the route request. -/
theorem stackingReportSetsCapacity : Obligations.StackingReportSetsCapacity := ⟨stackingReport_setsCapacity, head_processing⟩

end

end Sys2Proof.Machine

/-! # What the operations of the stabling block's taking do (07)

A taking of the stabling block changes sidings and shunt entries one after another. `StabTaken` carries through it, beside what `Acts` says,
the sidings by their numbers and the shunt table; `SidingTaken` is the case of one siding. Each operation has its one rule. -/

namespace Sys2Proof.Machine

/-- The sidings by their numbers. -/
abbrev sidingsOf (s : State) (m : Nat) : Option SidingRec := Tbl.find m s.stab.sidings

/-- A taking up to a state `t`, with the sidings and the shunt table as they stand there. -/
structure StabTaken (parts : List Part) (sent : List Instr) (f : State → State) (s : State) (σ : Nat → Option SidingRec)
    (l : Tbl ShuntEntry) (t : State) : Prop where
  acts : Acts parts sent f s t
  sidings : ∀ m, Tbl.find m t.stab.sidings = σ m
  shunts : t.stab.shunts = l
  handed : t.stab.handed = s.stab.handed
  stabling : .stabling ∈ parts

/-- A taking that has changed one siding alone, to this record. -/
abbrev SidingTaken (parts : List Part) (sent : List Instr) (f : State → State) (s : State) (n : Nat) (r : SidingRec) (t : State) : Prop :=
  StabTaken parts sent f s (Function.update (sidingsOf s) n (some r)) s.stab.shunts t

section

variable {s t u : State} {parts parts' : List Part} {sent sent' : List Instr} {f f' : State → State} {σ : Nat → Option SidingRec}
  {l : Tbl ShuntEntry} {n h : Nat} {r y : SidingRec} {e : ShuntEntry} {c : StackCause} {g : Option Nat}

/-! ## The stacking report and the notices (R126, R147) -/

/-- R126: a report tells of the stacks as the taking leaves them, whatever else is sent. -/
theorem reports_report (t : State) (c c' : StackCause) (g g' : Option Nat) : reports (t.report c g) c' g' = reports t c' g' :=
  have hreport := acts_report t c g
  reports_congr hreport.sameYard hreport.stab (congrArg Tbl.keys hreport.gates) c' g'

theorem reports_reply (t : State) (k : Kind) (q : Req) (a : Ans) (c : StackCause) (g : Option Nat) :
    reports (t.reply k q a) c g = reports t c g :=
  reports_congr ⟨by simp, by simp, by simp, by simp, by simp⟩ (by simp) (by simp) c g

theorem posts_stackNotice (n f pos st c : Nat) : Posts (stackNotice n f pos st c) := posts_one _ _ _

theorem posts_sidingNotice (n : Nat) (r : SidingRec) (c : Nat) : Posts (sidingNotice n r c) := posts_one _ _ _

theorem posts_shuntNotice (h : Nat) (e : ShuntEntry) (phase : Nat) (c : List Field) : Posts (shuntNotice h e phase c) := posts_one _ _ _

/-- R147: the fields of SIDING_STATE, in the words of the statements. -/
theorem postSiding_eq (hr : Tbl.find n s.stab.sidings = some r) (c : StackCause) : s.postSiding n c = sidingNotice n r c.code s := by
  have hcensus : r.census.code = if r.census = .known then 1 else 2 := by cases r.census <;> rfl
  unfold State.postSiding sidingNotice
  rw [hr, ← hcensus]
  rfl

theorem postPhase_eq (he : Tbl.find h s.stab.shunts = some e) (c : ShuntCause) :
    s.postPhase h c = shuntNotice h e e.phase.code c.fields s := by
  unfold State.postPhase
  rw [he]
  rfl

/-! ## Takings, one operation after another -/

theorem stabTaken_none (s : State) : StabTaken [.stabling] [] id s (sidingsOf s) s.stab.shunts s :=
  ⟨(acts_none s).mono (List.nil_subset _), fun _ => rfl, rfl, rfl, by simp⟩

theorem sidingTaken_found (hr : Tbl.find n s.stab.sidings = some r) : SidingTaken [.stabling] [] id s n r s := by
  have hsame : Function.update (sidingsOf s) n (some r) = sidingsOf s := Function.update_eq_self_iff.mpr hr.symm
  unfold SidingTaken
  rw [hsame]
  exact stabTaken_none s

theorem StabTaken.mono (h : StabTaken parts sent f s σ l t) (hp : parts ⊆ parts') (hd : parts' ⊆ depotParts := by simp) :
    StabTaken parts' sent f s σ l t :=
  { h with acts := h.acts.mono hp hd, stabling := hp h.stabling }

/-- A further operation, one that leaves the stabling block. -/
theorem StabTaken.next (h : StabTaken parts sent f s σ l t) (h' : Acts parts' sent' f' t u) (hp : parts' ⊆ parts := by simp)
    (hs : .stabling ∉ parts' := by simp) : StabTaken parts (sent ++ sent') (fun s => f' (f s)) s σ l u :=
  ⟨h.acts.next h' hp, by rw [h'.stab hs]; exact h.sidings, by rw [h'.stab hs]; exact h.shunts, by rw [h'.stab hs]; exact h.handed,
    h.stabling⟩

/-- Notices posted next. -/
theorem StabTaken.posts (h : StabTaken parts sent f s σ l t) (hf : Posts f') : StabTaken parts sent (fun s => f' (f s)) s σ l (f' t) := by
  simpa only [List.append_nil] using h.next (acts_posts hf t)

theorem StabTaken.send (h : StabTaken parts sent f s σ l t) (i : Instr) : StabTaken parts (sent ++ [i]) f s σ l (t.send i) :=
  h.next (acts_send t i)

theorem StabTaken.raise (h : StabTaken parts sent f s σ l t) (a : Alarm) :
    StabTaken parts (sent ++ [.alarmRaise a]) f s σ l (t.raise a) := h.send _

/-- R126: the stacking report of the taking. -/
theorem StabTaken.report (h : StabTaken parts sent f s σ l t) (c : StackCause) (g : Option Nat) :
    StabTaken parts (sent ++ reports (t.report c g) c g) f s σ l (t.report c g) := by
  rw [reports_report]
  exact h.next (acts_report t c g)

/-- A change of the stabling block's own state. -/
theorem StabTaken.onStab (h : StabTaken parts sent f s σ l t) {φ : Stabling → Stabling} {σ' : Nat → Option SidingRec}
    {l' : Tbl ShuntEntry} (hσ : ∀ m, Tbl.find m (φ t.stab).sidings = σ' m) (hl : (φ t.stab).shunts = l')
    (hh : (φ t.stab).handed = t.stab.handed) : StabTaken parts sent f s σ' l' (t.onStab φ) :=
  ⟨h.acts.update (acts_onStab t φ) (by simpa using h.stabling), hσ, hl, hh.trans h.handed, h.stabling⟩

theorem StabTaken.onSiding (h : StabTaken parts sent f s σ l t) (hr : σ n = some r) (φ : SidingRec → SidingRec) :
    StabTaken parts sent f s (Function.update σ n (some (φ r))) l (t.onSiding n φ) := by
  refine h.onStab (fun m => ?_) h.shunts rfl
  rw [Tbl.find_adjust, h.sidings m, Function.update_apply]
  split
  · rename_i hm
    rw [hm, hr]
    rfl
  · rfl

theorem StabTaken.onShunt (h : StabTaken parts sent f s σ l t) (k : Nat) (φ : ShuntEntry → ShuntEntry) :
    StabTaken parts sent f s σ (Tbl.adjust k φ l) (t.onShunt k φ) :=
  h.onStab h.sidings (congrArg (Tbl.adjust k φ) h.shunts) rfl

theorem StabTaken.postStack (h : StabTaken parts sent f s σ l t) (n fleet pos : Nat) (st : Option StackState) (c : StackCause) :
    StabTaken parts sent (fun s => stackNotice n fleet pos ((st.map StackState.code).getD 5) c.code (f s)) s σ l
      (t.postStack n fleet pos st c) := h.posts (posts_stackNotice n fleet pos _ c.code)

theorem StabTaken.postSiding (h : StabTaken parts sent f s σ l t) (hr : σ n = some r) (c : StackCause) :
    StabTaken parts sent (fun s => sidingNotice n r c.code (f s)) s σ l (t.postSiding n c) := by
  rw [postSiding_eq ((h.sidings n).trans hr)]
  exact h.posts (posts_sidingNotice n r c.code)

theorem StabTaken.postPhase {k : Nat} (h : StabTaken parts sent f s σ l t) (he : Tbl.find k l = some e) (c : ShuntCause) :
    StabTaken parts sent (fun s => shuntNotice k e e.phase.code c.fields (f s)) s σ l (t.postPhase k c) := by
  rw [postPhase_eq (h.shunts ▸ he)]
  exact h.posts (posts_shuntNotice k e _ _)

/-- R142, R144: a shunt entry ends. -/
theorem StabTaken.endShunt {k : Nat} (h : StabTaken parts sent f s σ l t) (e : ShuntEntry) (c : ShuntCause) :
    StabTaken parts sent (fun s => shuntNotice k e 5 c.fields (f s)) s σ (Tbl.del k l) (t.endShunt k e c) :=
  (h.onStab (φ := fun b => { b with shunts := Tbl.del k b.shunts }) h.sidings (congrArg (Tbl.del k) h.shunts) rfl).posts
    (posts_shuntNotice k e 5 c.fields)

/-! ## Census and incoming shunt (R137, R142) -/

/-- R137, R147: the notice of a siding that goes to DOUBT, where it was KNOWN. -/
def doubtNotice (n : Nat) (r : SidingRec) (c : StackCause) (s : State) : State :=
  if r.census = .known then sidingNotice n { r with census := .doubt } c.code s else s

/-- R137: a siding is in DOUBT, whatever it was before. -/
theorem StabTaken.setDoubt (h : StabTaken parts sent f s σ l t) (hr : σ n = some r) (c : StackCause) :
    StabTaken parts sent (fun s => doubtNotice n r c (f s)) s (Function.update σ n (some { r with census := .doubt })) l
      (t.setDoubt n c) := by
  unfold State.setDoubt doubtNotice
  rw [h.sidings n, hr]
  dsimp only
  by_cases hknown : r.census = .known
  · simp only [if_pos hknown]
    exact (h.onSiding hr (fun x => { x with census := .doubt })).postSiding (Function.update_self n _ σ) c
  · simp only [if_neg hknown]
    have hdoubt : r.census = .doubt := by
      cases hc : r.census with
      | known => exact absurd hc hknown
      | doubt => rfl
    have hsame : ({ r with census := .doubt } : SidingRec) = r := by rw [← hdoubt]
    rw [hsame, Function.update_eq_self_iff.mpr hr.symm]
    exact h

/-- R142, R147: a siding's incoming field is none, whatever it was before. -/
theorem StabTaken.clearIncoming (h : StabTaken parts sent f s σ l t) (hr : σ n = some r) (c : StackCause) :
    StabTaken parts sent (fun s => clearedNotice n r c.code (f s)) s (Function.update σ n (some { r with incoming := none })) l
      (t.clearIncoming n c) := by
  unfold State.clearIncoming clearedNotice
  rw [h.sidings n, hr, Option.bind_some]
  cases hinc : r.incoming with
  | some k => exact (h.onSiding hr (fun x => { x with incoming := none })).postSiding (Function.update_self n _ σ) c
  | none =>
    have hsame : ({ r with incoming := none } : SidingRec) = r := by rw [← hinc]
    rw [hsame, Function.update_eq_self_iff.mpr hr.symm]
    exact h

/-! ## The siding last changed -/

theorem StabTaken.changeSiding (h : StabTaken parts sent f s (Function.update σ n (some r)) l t) (φ : SidingRec → SidingRec) :
    StabTaken parts sent f s (Function.update σ n (some (φ r))) l (t.onSiding n φ) := by
  simpa only [Function.update_idem] using h.onSiding (Function.update_self n _ _) φ

theorem StabTaken.onRecord (h : StabTaken parts sent f s (Function.update σ n (some r)) l t) (fleet : Nat) (φ : StackRec → StackRec) :
    StabTaken parts sent f s (Function.update σ n (some (withRecord fleet φ r))) l (t.onRecord n fleet φ) := h.changeSiding _

/-- A record leaves, with its notice. -/
theorem StabTaken.removeRecord (h : StabTaken parts sent f s (Function.update σ n (some r)) l t) (fleet pos : Nat) (c : StackCause) :
    StabTaken parts sent (fun s => stackNotice n fleet pos 5 c.code (f s)) s (Function.update σ n (some (withoutRecord fleet r))) l
      (t.removeRecord n fleet pos c) := (h.changeSiding _).postStack n fleet pos none c

theorem StabTaken.showSiding (h : StabTaken parts sent f s (Function.update σ n (some r)) l t) (c : StackCause) :
    StabTaken parts sent (fun s => sidingNotice n r c.code (f s)) s (Function.update σ n (some r)) l (t.postSiding n c) :=
  h.postSiding (Function.update_self n _ _) c

theorem StabTaken.doubt (h : StabTaken parts sent f s (Function.update σ n (some r)) l t) (c : StackCause) :
    StabTaken parts sent (fun s => doubtNotice n r c (f s)) s (Function.update σ n (some { r with census := .doubt })) l
      (t.setDoubt n c) := by
  simpa only [Function.update_idem] using h.setDoubt (Function.update_self n _ _) c

theorem StabTaken.clear (h : StabTaken parts sent f s (Function.update σ n (some r)) l t) (c : StackCause) :
    StabTaken parts sent (fun s => clearedNotice n r c.code (f s)) s (Function.update σ n (some { r with incoming := none })) l
      (t.clearIncoming n c) := by
  simpa only [Function.update_idem] using h.clearIncoming (Function.update_self n _ _) c

/-- Of two sidings changed, the other one in hand. -/
theorem StabTaken.turn {m : Nat} {o o' : Option SidingRec}
    (h : StabTaken parts sent f s (Function.update (Function.update σ m o) n o') l t)
    (hne : m ≠ n) : StabTaken parts sent f s (Function.update (Function.update σ n o') m o) l t := by
  rw [Function.update_comm hne.symm]
  exact h

/-! ## What a taking comes to -/

theorem StabTaken.onlySiding (h : SidingTaken parts sent f s n r t) : OnlySiding n r s t :=
  ⟨fun m => (h.sidings m).trans (Function.update_apply _ n _ m), h.shunts, h.handed⟩

/-- The taking of a claim. -/
theorem StabTaken.taken {i : Instr} (h : SidingTaken parts sent f (s.take i) n r t) :
    Effect parts (s.claims.erase i ++ sent) f none s t ∧ OnlySiding n r s t := ⟨h.acts.afterTake, h.onlySiding⟩

/-- The taking of a claim that sends nothing. -/
theorem StabTaken.takenUnsent {i : Instr} (h : SidingTaken parts [] f (s.take i) n r t) :
    Effect parts (s.claims.erase i) f none s t ∧ OnlySiding n r s t := by
  simpa only [List.append_nil] using h.taken

/-- The taking of a claim that ends with an alarm. -/
theorem StabTaken.takenRaising {i : Instr} (h : SidingTaken parts sent f (s.take i) n r t) (a : Alarm) :
    Effect parts (s.claims.erase i ++ sent ++ [.alarmRaise a]) f none s (t.raise a) ∧ OnlySiding n r s (t.raise a) := by
  simpa only [List.append_assoc] using (h.raise a).taken

/-- A claim on the stabling block that is answered in the taking that makes it. -/
theorem StabTaken.claimed (h : SidingTaken parts sent f s n r t) :
    Effect parts (s.claims ++ sent) f none s t ∧ OnlySiding n r s t := ⟨h.acts.effect, h.onlySiding⟩

/-- The taking of a request, answered. -/
theorem StabTaken.replied {i : Instr} (h : SidingTaken parts sent f (s.take i) n r t) (k : Kind) (q : Req) (a : Ans) :
    Effect parts (s.claims.erase i ++ sent) f (some (k, q, a)) s (t.reply k q a) ∧ OnlySiding n r s (t.reply k q a) := by
  refine ⟨effect_reply k q a h.acts.afterTake, ?_⟩
  unfold OnlySiding
  rw [State.reply_stab]
  exact h.onlySiding

end

end Sys2Proof.Machine

/-! # Route events on the stack records (07 sections 7.3, 7.4) -/

namespace Sys2Proof.Machine

section

variable {s t u : State} {parts : List Part} {sent : List Instr} {f : State → State} {n i g fleet : Nat} {r : SidingRec} {x : StackRec}
  {c : StackCause} {ev : RouteEvent} {p : StackPurpose}

/-! ## Doubt claims (R137) -/

theorem doubtNotice_known (h : r.census = .known) : doubtNotice n r c = sidingNotice n { r with census := .doubt } c.code :=
  funext fun _ => if_pos h

theorem doubtClaim_known (hr : Tbl.find n s.stab.sidings = some r) (h : r.census = .known) :
    s.doubtClaim n c = (s.setDoubt n c).report c none := by
  unfold State.doubtClaim
  rw [hr]
  exact if_pos h

theorem doubtClaim_doubtful (hr : Tbl.find n s.stab.sidings = some r) (h : r.census ≠ .known) : s.doubtClaim n c = s := by
  unfold State.doubtClaim
  rw [hr]
  exact if_neg h

theorem doubtClaim_absent (hr : Tbl.find n s.stab.sidings = none) : s.doubtClaim n c = s := by
  unfold State.doubtClaim
  rw [hr]

/-- R126, R137: a doubt claim that finds the siding KNOWN. -/
theorem sidingTaken_doubtClaim (hr : Tbl.find n s.stab.sidings = some r) (h : r.census = .known) (c : StackCause) :
    SidingTaken [.stabling] (reports (s.doubtClaim n c) c none) (sidingNotice n { r with census := .doubt } c.code) s n
      { r with census := .doubt } (s.doubtClaim n c) := by
  have hdoubt := ((sidingTaken_found hr).doubt c).report c none
  rw [doubtNotice_known h] at hdoubt
  rw [doubtClaim_known hr h]
  exact hdoubt

/-! ## Arrivals (R132) -/

/-- The events that end a route before its tram has entered it (R76). -/
def endsUnentered (ev : Progress) : Prop := ev ∈ [.expired, .cancelled] ∨ ∃ why, ev = .failed why

theorem endsUnentered_cases {ev : Progress} (h : endsUnentered ev) : (∃ why, ev = .failed why) ∨ ev = .expired ∨ ev = .cancelled := by
  rcases h with h | h
  · exact .inr (by simpa using h)
  · exact .inl h

theorem exec_arrivalEvent (hp : ev.purpose = .gateArrival g fleet) (hfind : s.findTram fleet = some (n, r, i, x))
    (hx : x.state = .reserved) (hxp : x.purpose = some (.gateArrival g)) : exec (.stablingArrivalEvent ev) s =
      .next ((s.take (.stablingArrivalEvent ev)).takeArrival n fleet i ev.event).settle := by
  have hfind : (s.take (.stablingArrivalEvent ev)).findTram fleet = some (n, r, i, x) := hfind
  change execStablingArrivalEvent ev s = _
  unfold execStablingArrivalEvent
  simp only [hp, hfind]
  exact if_pos ⟨hx, hxp⟩

theorem arrival_routeEvents : arrivalRouteEventsOnTheStack := by
  intro g f n i r x ev s hp ⟨hfind, hr⟩ hx hxp left
  have hexec := exec_arrivalEvent hp hfind hx hxp
  have hbegin := sidingTaken_found (s := s.take (.stablingArrivalEvent ev)) hr
  refine ⟨fun hev => ?_, fun hev => ?_, fun hev => ?_, fun hev => ?_⟩
  · rw [hev] at hexec
    exact ⟨_, hexec, (hbegin.onRecord f _).takenUnsent⟩
  · rw [hev] at hexec
    exact ⟨_, hexec, (((hbegin.onRecord f (StackRec.stable s.minute)).posts (posts_one .stabling 1 [.u16 f, .u8 n, .u8 (i + 1)])).report
      .stabled none).taken⟩
  · have hended : (s.take (.stablingArrivalEvent ev)).takeArrival n f i ev.event =
        ((s.take (.stablingArrivalEvent ev)).removeRecord n f (i + 1) .released).report .released none := by
      rcases endsUnentered_cases hev with ⟨why, h⟩ | h | h <;> rw [h] <;> rfl
    rw [hended] at hexec
    exact ⟨_, hexec, ((hbegin.removeRecord f (i + 1) .released).report .released none).taken⟩
  · rw [hev] at hexec
    exact ⟨_, hexec, (((hbegin.removeRecord f (i + 1) .removed).doubt .forceReleased).report .removed none).taken⟩

/-! ## Departures (R134) -/

theorem departurePurpose_eq (h : (∃ d, ev.purpose = .dutyDeparture d fleet ∧ p = .dutyDeparture d) ∨
    ∃ g, ev.purpose = .fleetDeparture fleet g ∧ p = .fleetDeparture g) : departurePurpose ev.purpose = some (fleet, p) := by
  rcases h with ⟨d, hev, rfl⟩ | ⟨g, hev, rfl⟩ <;> rw [hev] <;> rfl

theorem exec_departureEvent (hp : departurePurpose ev.purpose = some (fleet, p)) (hfind : s.findTram fleet = some (n, r, i, x))
    (hxp : x.purpose = some p) : exec (.stablingDepartureEvent ev) s =
      .next ((s.take (.stablingDepartureEvent ev)).takeDeparture n fleet i x ev.event).settle := by
  have hfind : (s.take (.stablingDepartureEvent ev)).findTram fleet = some (n, r, i, x) := hfind
  change execStablingDepartureEvent ev s = _
  unfold execStablingDepartureEvent
  simp only [hp, hfind]
  exact if_pos hxp

theorem departure_routeEvents : departureRouteEventsOnTheStack := by
  intro f n i p r x ev s hp ⟨hfind, hr⟩ hxp left
  have hexec := exec_departureEvent (departurePurpose_eq hp) hfind hxp
  have hbegin := sidingTaken_found (s := s.take (.stablingDepartureEvent ev)) hr
  unfold State.takeDeparture at hexec
  refine ⟨fun hx hev => ?_, fun hx hev => ?_, fun hx hev => ?_, fun hx hev => ?_⟩
  · simp only [hx, hev] at hexec
    exact ⟨_, hexec, (((hbegin.onRecord f (fun y => { y with state := .leaving })).postStack n f (i + 1) (some .leaving)
      .leaving).report .leaving none).taken⟩
  · have hleft := ((hbegin.removeRecord f (i + 1) .left).report .left none).taken
    rcases hev with hev | hev <;> simp only [hx, hev, if_true] at hexec <;> exact ⟨_, hexec, hleft⟩
  · have hended := (((hbegin.onRecord f StackRec.settle).postStack n f (i + 1) (some .stabled) .uncalled).report .uncalled none).taken
    rcases endsUnentered_cases hev with ⟨why, hev⟩ | hev | hev <;> simp only [hx, hev] at hexec <;> exact ⟨_, hexec, hended⟩
  · simp only [hx, hev] at hexec
    exact ⟨_, hexec, (((hbegin.removeRecord f (i + 1) .removed).doubt .forceReleased).report .removed none).takenRaising
      (.departureAbandoned f)⟩

/-! ## Pairings without an effect (R132, R134) -/

theorem takeDeparture_other (h : departurePairing x.state ev.event = false) : s.takeDeparture n fleet i x ev.event = s := by
  unfold State.takeDeparture
  generalize ev.event = p at h ⊢
  cases hx : x.state with
  | reserved => rfl
  | stabled => rfl
  | called =>
    rw [hx] at h
    cases p with
    | proceed | elementReleased | complete | forceReleased => rfl
    | firstEntered | failed | expired | cancelled => cases h
  | leaving =>
    rw [hx] at h
    cases p with
    | elementReleased k => exact if_neg (of_decide_eq_false h)
    | complete | forceReleased => cases h
    | proceed | firstEntered | failed | expired | cancelled => rfl

theorem other_pairings : otherPairingsChangeNothing := by
  intro f ev s
  refine ⟨fun g hp h => ?_, fun p n r i x hp hfind hxp hpairing => ?_⟩
  · by_cases hown : ∃ n r i x, s.findTram f = some (n, r, i, x) ∧ x.state = .reserved ∧ x.purpose = some (.gateArrival g)
    · obtain ⟨n, r, i, x, hfind, hx, hxp⟩ := hown
      rw [exec_arrivalEvent hp hfind hx hxp]
      rcases h n r i x hfind hx hxp with hev | ⟨k, hev⟩ <;> rw [hev] <;> rfl
    · change execStablingArrivalEvent ev s = _
      have htake : (s.take (.stablingArrivalEvent ev)).findTram f = s.findTram f := rfl
      unfold execStablingArrivalEvent
      simp only [hp, htake]
      split
      · rename_i n r i x hfind
        exact if_neg fun hx => hown ⟨n, r, i, x, hfind, hx⟩
      · rfl
  · rw [exec_departureEvent (departurePurpose_eq hp) hfind hxp, takeDeparture_other hpairing]

/-! ## Departure events whose record has gone (R134, R137) -/

/-- R137: a doubt claim of cause FORCE-RELEASED for a siding, where there is one. -/
def State.doubtLeft (n : Option Nat) (s : State) : State :=
  match n with
  | some n => s.doubtClaim n .forceReleased
  | none => s

theorem exec_departureGone (hp : departurePurpose ev.purpose = some (fleet, p))
    (hgone : ∀ n r i x, s.findTram fleet = some (n, r, i, x) → x.purpose ≠ some p) : exec (.stablingDepartureEvent ev) s =
      .next (if ev.event = .forceReleased then
        ((s.take (.stablingDepartureEvent ev)).doubtLeft ((s.routeDef ev.route).bind RouteDef.fromObj)).raise (.departureAbandoned fleet)
      else s.take (.stablingDepartureEvent ev)).settle := by
  have htake : (s.take (.stablingDepartureEvent ev)).findTram fleet = s.findTram fleet := rfl
  have hroute : ((s.take (.stablingDepartureEvent ev)).routeDef ev.route) = s.routeDef ev.route := rfl
  change execStablingDepartureEvent ev s = _
  unfold execStablingDepartureEvent
  simp only [hp, htake, hroute]
  have hnothing (v : Result) : (match s.findTram fleet with
      | some (n, _, i, x) =>
        if x.purpose = some p then done ((s.take (.stablingDepartureEvent ev)).takeDeparture n fleet i x ev.event) else v
      | none => v) = v := by
    split
    · rename_i n r i x hfind
      exact if_neg (hgone n r i x hfind)
    · rfl
  refine (hnothing _).trans ?_
  unfold State.doubtLeft done
  cases (s.routeDef ev.route).bind RouteDef.fromObj <;> cases ev.event <;> rfl

/-- R137: the siding that a departure route leaves, with its record, where it is KNOWN. -/
def knownSiding (m : Option Nat) (s : State) : Option (Nat × SidingRec) :=
  (m.bind (fun n => (Tbl.find n s.stab.sidings).map (fun r => (n, r)))).filter (fun p => p.2.census = .known)

/-- R137: a doubt claim does nothing but where it finds its siding KNOWN. -/
theorem doubtLeft_cases (m : Option Nat) (s : State) : (knownSiding m s = none ∧ s.doubtLeft m = s) ∨
    ∃ n r, knownSiding m s = some (n, r) ∧ Tbl.find n s.stab.sidings = some r ∧ r.census = .known ∧
      s.doubtLeft m = s.doubtClaim n .forceReleased := by
  unfold knownSiding State.doubtLeft
  cases m with
  | none => exact .inl ⟨rfl, rfl⟩
  | some n =>
    rw [Option.bind_some]
    cases hr : Tbl.find n s.stab.sidings with
    | none => exact .inl ⟨rfl, doubtClaim_absent hr⟩
    | some r =>
      by_cases hknown : r.census = .known
      · exact .inr ⟨n, r, by simp [hknown], hr, hknown, rfl⟩
      · exact .inl ⟨by simp [hknown], doubtClaim_doubtful hr hknown⟩

theorem departure_recordIsGone : departureRecordIsGone := by
  intro f p ev s hp hgone
  have hexec := exec_departureGone (departurePurpose_eq hp) hgone
  refine ⟨fun hev => by rw [hexec, if_neg hev], fun hev => ?_⟩
  rw [if_pos hev] at hexec
  rcases doubtLeft_cases ((s.routeDef ev.route).bind RouteDef.fromObj) (s.take (.stablingDepartureEvent ev)) with
    ⟨hnone, hsame⟩ | ⟨n, r, hsome, hr, hknown, hdoubt⟩
  · rw [hsame] at hexec
    intro known
    have hnone : known = none := hnone
    rw [hnone]
    refine ⟨_, hexec, ?_, rfl⟩
    simp only [Option.isSome_none, Bool.false_eq_true, if_false, List.append_nil]
    exact effect_raise (effect_take s _ _) _
  · rw [hdoubt] at hexec
    intro known
    have hsome : known = some (n, r) := hsome
    rw [hsome]
    exact ⟨_, hexec, (sidingTaken_doubtClaim hr hknown .forceReleased).takenRaising (.departureAbandoned f)⟩

/-- Settles O27: the events by what they find on the record (`exec_arrivalEvent`, `exec_departureEvent`), and a record that has gone
(`exec_departureGone`). -/
theorem routeEventsOnTheStack : Obligations.RouteEventsOnTheStack :=
  ⟨arrival_routeEvents, departure_routeEvents, other_pairings, departure_recordIsGone⟩

end

end Sys2Proof.Machine

/-! # Body edges, census and siding fields (07 section 7.5) -/

namespace Sys2Proof.Machine

section

variable {s t u : State} {n g : Nat} {r : SidingRec} {c : StackCause} {q : Req} {i : Instr} {k : Kind}

/-! ## Body edges (R138) -/

/-- R138: the mismatch, in the words of the statement. -/
theorem bodyMismatch_eq (stack : List StackRec) (st : Occ) : bodyMismatch stack st =
    if st = .occupied then stack.isEmpty || (decide (stack.length = 1) && stack.all (fun x => x.state = .reserved && !x.entered))
    else stack.any (fun x => x.state = .stabled) := by
  cases st with
  | clear => rfl
  | occupied => match stack with
    | [] => rfl
    | [x] => simp [bodyMismatch]
    | x :: y :: rest => simp [bodyMismatch]

/-- Settles O28: an edge by whether it mismatches a KNOWN stack, and then a doubt claim (`sidingTaken_doubtClaim`). -/
theorem bodyEdgeCrossCheck : Obligations.BodyEdgeCrossCheck := by
  intro m n st c r s hn hr mismatch
  have hmismatch : mismatch = true ↔ r.census = .known ∧ bodyMismatch r.stack st = true := by
    rw [bodyMismatch_eq, ← decide_eq_true_iff (p := r.census = .known), ← Bool.and_eq_true]
  have hsiding : (s.take (.bodyEdge m st c)).sidingOf m = some n := hn
  have hfound : Tbl.find n (s.take (.bodyEdge m st c)).stab.sidings = some r := hr
  have hexec : exec (.bodyEdge m st c) s = .next (if mismatch then
      ((s.take (.bodyEdge m st c)).doubtClaim n .bodyMismatch).raise (.bodyMismatch n) else s.take (.bodyEdge m st c)).settle := by
    change execBodyEdge m st c s = _
    unfold execBodyEdge
    simp only [hsiding, hfound, ← hmismatch]
    cases mismatch <;> rfl
  refine ⟨_, hexec, ?_⟩
  cases hm : mismatch with
  | false =>
    simp only [Bool.false_eq_true, if_false, List.append_nil]
    exact (sidingTaken_found hfound).takenUnsent
  | true =>
    obtain ⟨hknown, -⟩ := hmismatch.mp hm
    have hraised := (sidingTaken_doubtClaim hfound hknown .bodyMismatch).takenRaising (.bodyMismatch n)
    rw [List.append_assoc] at hraised
    exact hraised

/-! ## Siding fields (R137, R139) -/

theorem changeSiding_eq (hr : Tbl.find n s.stab.sidings = some r) (φ : SidingRec → SidingRec) (c : StackCause) :
    changeSiding n φ c s = (if φ r = r then s else ((s.onSiding n φ).postSiding n c).report c none, .done) := by
  unfold changeSiding
  rw [hr]
  dsimp only
  split <;> rfl

/-- R137: SIDING_DOUBT sets a field as the others do. -/
theorem takeDoubt_eq (hr : Tbl.find n s.stab.sidings = some r) :
    takeDoubt n s = changeSiding n (fun r => { r with census := .doubt }) .doubt s := by
  unfold takeDoubt
  rw [changeSiding_eq hr, hr, Option.isSome_some, if_pos rfl]
  by_cases hknown : r.census = .known
  · have hchange : ({ r with census := .doubt } : SidingRec) ≠ r := fun h => by
      have hcensus := congrArg SidingRec.census h
      rw [hknown] at hcensus
      cases hcensus
    rw [doubtClaim_known hr hknown, if_neg hchange]
    unfold State.setDoubt
    rw [hr]
    dsimp only
    rw [if_pos hknown]
  · have hdoubt : Census.doubt = r.census := by cases hc : r.census <;> simp_all
    have hsame : ({ r with census := .doubt } : SidingRec) = r := by rw [hdoubt]
    rw [doubtClaim_doubtful hr hknown, if_pos hsame]

/-- R139: a field of a siding takes a value; a change is noticed and reported. -/
theorem siding_takes {φ : SidingRec → SidingRec} (hr : Tbl.find n s.stab.sidings = some r) (hexec : exec i s =
      done ((changeSiding n φ c (s.take i)).1.reply k q (changeSiding n φ c (s.take i)).2)) :
    ∃ u, exec i s = .next u.settle ∧
      Effect [.stabling] (s.claims.erase i ++ (if φ r = r then [] else reports u c none))
        (fun s => if φ r = r then s else sidingNotice n (φ r) c.code s) (some (k, q, ⟨.done, none, []⟩)) s u ∧
      OnlySiding n (φ r) s u := by
  have hfound : Tbl.find n (s.take i).stab.sidings = some r := hr
  rw [changeSiding_eq hfound] at hexec
  refine ⟨_, hexec, ?_⟩
  by_cases hsame : φ r = r
  · simp only [hsame, if_true]
    exact (sidingTaken_found hfound).replied k q .done
  · simp only [hsame, if_false, reports_reply]
    exact (((sidingTaken_found hfound).changeSiding φ).showSiding c |>.report c none).replied k q .done

/-- Settles O30: each request as a change of one field (`siding_takes`). -/
theorem sidingFieldsChange : Obligations.SidingFieldsChange := by
  intro q n r s ho hr takes
  refine ⟨fun hdesk => ⟨?_, ?_, ?_⟩, fun hplanner ab hab => ?_⟩
  · exact siding_takes (c := .blocked) (φ := fun r => { r with blocked := true }) hr
      (takeRequest_run (k := .sidingBlock) (i := .sidingBlock q n) (by rw [hdesk]; rfl) rfl rfl ho rfl _)
  · exact siding_takes (c := .unblocked) (φ := fun r => { r with blocked := false }) hr
      (takeRequest_run (k := .sidingUnblock) (i := .sidingUnblock q n) (by rw [hdesk]; rfl) rfl rfl ho rfl _)
  · refine siding_takes (c := .doubt) (φ := fun r => { r with census := .doubt }) hr ?_
    rw [← takeDoubt_eq (s := s.take (.sidingDoubt q n)) hr]
    exact takeRequest_run (k := .sidingDoubt) (i := .sidingDoubt q n) (by rw [hdesk]; rfl) rfl rfl ho rfl _
  · have habilities : takeAbilities n ab = changeSiding n (fun r => { r with abilities := Needs.ofLow ab }) .abilities := by
      unfold takeAbilities
      rw [needs_ofSetByte hab]
    refine siding_takes (c := .abilities) (φ := fun r => { r with abilities := Needs.ofLow ab }) hr ?_
    rw [← habilities]
    exact takeRequest_run (k := .sidingAbilities) (i := .sidingAbilities q n ab) (by rw [hplanner]; rfl)
      (congrArg Option.isSome (needs_ofSetByte hab)) rfl ho rfl _

/-! ## CENSUS_SET (R135, R136) -/

/-- R135: the fleet that a DUPLICATE names is the first of the list that an earlier entry has or that stands elsewhere; `seen` are
the fleets of `pre`, the entries gone through. -/
theorem duplicateFleet_eq (s : State) (n : Nat) (es pre : List CensusEntry) (seen : List Nat)
    (hseen : ∀ f, seen.contains f = pre.any (fun e => e.fleet = f)) : s.duplicateFleet n seen (es.map CensusEntry.fleet) =
    ((es.zipIdx pre.length).find? (fun p => ((pre ++ es).take p.2).any (fun e => e.fleet = p.1.fleet) ||
      s.standsElsewhere n p.1.fleet)).map (fun p => p.1.fleet) := by
  induction es generalizing pre seen with
  | nil => rfl
  | cons e es ih =>
    have hnext := ih (pre ++ [e]) (e.fleet :: seen) fun f => by
      rw [List.contains_cons, hseen, List.any_append, List.any_cons, List.any_nil, Bool.or_false, Bool.or_comm]
      exact congrArg _ (Bool.eq_iff_iff.mpr (by rw [beq_iff_eq, decide_eq_true_iff, eq_comm]))
    rw [List.length_append, List.append_assoc, List.singleton_append] at hnext
    rw [List.map_cons, State.duplicateFleet, List.zipIdx_cons, List.find?_cons, hnext, hseen]
    dsimp only
    rw [List.take_left' rfl]
    cases (pre.any fun x => decide (x.fleet = e.fleet)) || s.standsElsewhere n e.fleet <;> rfl

theorem duplicateFleet_none (s : State) (n : Nat) (es : List CensusEntry) : s.duplicateFleet n [] (es.map CensusEntry.fleet) =
    (es.zipIdx.find? (fun p => (es.take p.2).any (fun e => e.fleet = p.1.fleet) || s.standsElsewhere n p.1.fleet)).map
      (fun p => p.1.fleet) := duplicateFleet_eq s n es [] [] fun _ => rfl

/-- R136: the siding that a census sets. -/
def SidingRec.counted (r : SidingRec) (es : List CensusEntry) (now : Option Nat) : SidingRec :=
  { r with stack := es.map (CensusEntry.record now), census := .known }

/-- R135: what a CENSUS_SET of a defined siding is refused for. -/
def censusRefusal (n : Nat) (es : List CensusEntry) (r : SidingRec) (s : State) : Option Ans :=
  if r.stack.any (fun x => x.state ≠ .stabled) || r.incoming.isSome || (s.reservedBy r.mouth).isSome then
    some ⟨.refused, some .wrongState, []⟩
  else if 12 < es.length ∨ es.any (fun e => !(1 ≤ e.fleet && e.fleet ≤ 4095 && 10 ≤ e.length && e.length ≤ 80)) then
    some ⟨.refused, some .badArgument, []⟩
  else if r.length < (es.map (fun e => e.length + s.param.spacing)).sum then some ⟨.refused, some .full, []⟩
  else match es.zipIdx.find? (fun p => (es.take p.2).any (fun e => e.fleet = p.1.fleet) || s.standsElsewhere n p.1.fleet) with
    | some p => some ⟨.refused, some .duplicate, [.u16 p.1.fleet]⟩
    | none =>
      if (es.isEmpty && s.isOccupied r.body) || (!es.isEmpty && s.isClear r.body) then some ⟨.refused, some .bodyMismatch, []⟩ else none

theorem takeCensus_eq {es : List CensusEntry} (hr : Tbl.find n s.stab.sidings = some r) : takeCensus n es s =
    match censusRefusal n es r s with
    | some a => (s, a)
    | none => (((s.onSiding n (fun r => r.counted es s.minute)).postSiding n .census).report .census none, .done) := by
  unfold takeCensus censusRefusal
  rw [hr]
  dsimp only
  rw [duplicateFleet_none]
  by_cases hstate : (r.stack.any (fun x => x.state ≠ .stabled) || r.incoming.isSome || (s.reservedBy r.mouth).isSome) = true
  · rw [if_pos hstate, if_pos hstate]
    rfl
  rw [if_neg hstate, if_neg hstate]
  have hlist : (decide (Config.stackSize < es.length) || es.any (fun e => !tramInRange e.fleet e.length)) = true ↔ 12 < es.length ∨
      es.any (fun e => !(1 ≤ e.fleet && e.fleet ≤ 4095 && 10 ≤ e.length && e.length ≤ 80)) = true := by
    rw [Bool.or_eq_true, decide_eq_true_iff]
    rfl
  by_cases hbad : 12 < es.length ∨ es.any (fun e => !(1 ≤ e.fleet && e.fleet ≤ 4095 && 10 ≤ e.length && e.length ≤ 80)) = true
  · rw [if_pos (hlist.mpr hbad), if_pos hbad]
    rfl
  rw [if_neg (mt hlist.mp hbad), if_neg hbad]
  split_ifs
  · rfl
  all_goals cases es.zipIdx.find? (fun p => (es.take p.2).any (fun e => e.fleet = p.1.fleet) || s.standsElsewhere n p.1.fleet) <;> rfl

/-- Settles O29: the refusals in their order (`takeCensus_eq`), and the stack that is set. -/
theorem censusIsDecided : Obligations.CensusIsDecided := by
  intro q n es r s hq ho hr hbytes elsewhere bad y
  have hcodes : (Instr.censusSet q n es).codesOk = true := List.all_eq_true.mpr fun e he => setBytes_ok (hbytes e he).1 (hbytes e he).2
  have hfound : Tbl.find n (s.take (.censusSet q n es)).stab.sidings = some r := hr
  have hexec := takeRequest_run (k := .censusSet) (i := .censusSet q n es) (by rw [hq]; rfl) hcodes rfl ho rfl (takeCensus n es)
  have hrefusal : censusRefusal n es r (s.take (.censusSet q n es)) = bad := rfl
  rw [takeCensus_eq hfound, hrefusal] at hexec
  refine ⟨_, hexec, ?_⟩
  cases bad with
  | some a =>
    have hnothing := (sidingTaken_found hfound).replied .censusSet q a
    exact hnothing
  | none =>
    simp only [Option.isNone_none, if_true, reports_reply]
    exact (((sidingTaken_found hfound).changeSiding (fun r => r.counted es s.minute)).showSiding .census |>.report .census none).replied
      .censusSet q .done

end

end Sys2Proof.Machine

/-! # Candidates, allocation and the claims on a stack (07 sections 7.1, 7.2, 7.4) -/

namespace Sys2Proof.Machine

/-- A number of the table's is found. -/
theorem find_of_mem_keys {α : Type} {n : Nat} {l : Tbl α} (h : n ∈ Tbl.keys l) : ∃ a, Tbl.find n l = some a :=
  Option.ne_none_iff_exists'.mp fun hnone =>
    have ⟨_, hp, hn⟩ := List.mem_map.mp h
    Tbl.ne_of_find_none hnone hp hn

section

variable {s t u : State} {n i g fleet length : Nat} {r : SidingRec} {x : StackRec} {ma wa : Needs} {p : StackPurpose}

/-! ## Candidates and free capacity (R127) -/

/-- R127: the arrival lookup gives a route with no point OUT_OF_SERVICE and no section forced. -/
theorem arrivalRoute_available (s : State) (g n : Nat) :
    ((s.lookup .arrival g n).bind s.routeDef).any (fun d => (s.unavailableObject d).isNone) = true ↔
    ∃ k d, s.lookup .arrival g n = some k ∧ s.routeDef k = some d ∧ (∀ p ∈ d.points, s.outOfService p.1 = false) ∧
      ∀ m ∈ d.sections, s.isForced m = false := by
  have hpoints (d : RouteDef) : (s.unavailableObject d).isNone = true ↔
      (∀ p ∈ d.points, s.outOfService p.1 = false) ∧ ∀ m ∈ d.sections, s.isForced m = false := by
    rw [Option.isNone_iff_eq_none, unavailableObject_none, and_comm]
    simp [routePoints]
  cases hk : s.lookup .arrival g n with
  | none => simp
  | some k =>
    cases hd : s.routeDef k with
    | none => simp [hd]
    | some d => simp [hd, hpoints]

theorem candidate_iff (s : State) (g n : Nat) (r : SidingRec) : s.candidate g n r = true ↔
    r.census = .known ∧ r.blocked = false ∧ r.incoming = none ∧ (∀ x, r.stack.getLast? = some x → x.state = .stabled) ∧
      r.stack.length < 12 ∧
      ∃ k d, s.lookup .arrival g n = some k ∧ s.routeDef k = some d ∧ (∀ p ∈ d.points, s.outOfService p.1 = false) ∧
        ∀ m ∈ d.sections, s.isForced m = false := by
  have houter : r.outermost.all (fun x => x.state = .stabled) = true ↔ ∀ x, r.stack.getLast? = some x → x.state = .stabled := by
    unfold SidingRec.outermost
    cases r.stack.getLast? <;> simp
  have hroute : s.candidate g n r = (decide (r.census = .known) && !r.blocked && r.incoming.isNone &&
      r.outermost.all (fun x => x.state = .stabled) && decide (r.stack.length < 12) &&
      ((s.lookup .arrival g n).bind s.routeDef).any (fun d => (s.unavailableObject d).isNone)) := by
    unfold State.candidate
    cases (s.lookup .arrival g n).bind s.routeDef <;> rfl
  rw [hroute]
  simp only [Bool.and_eq_true, houter, arrivalRoute_available, decide_eq_true_eq, Bool.not_eq_true', Option.isNone_iff_eq_none, and_assoc]

theorem candidates_capacity : candidatesAndCapacity := by
  refine fun s g => ⟨fun n r => candidate_iff s g n r, ?_⟩
  unfold State.freeCapacity State.freeLength stackLength
  induction s.stab.sidings with
  | nil => rfl
  | cons p l ih =>
    rw [List.map_cons, List.sum_cons, ← ih, List.filter_cons]
    cases s.candidate g p.1 p.2 with
    | false => exact (Nat.zero_add _).symm
    | true => rfl

/-- 00 section 3.3. -/
theorem covering_isInclusion : coveringIsInclusion := by
  rintro ⟨a, b, c, d⟩ ⟨a', b', c', d'⟩
  simp only [covers, Bool.and_eq_true, Bool.or_eq_true, Bool.not_eq_true', ← Bool.not_eq_true, ← imp_iff_not_or, and_assoc]

/-! ## The ranking (R129, R130) -/

/-- Keys of one number compare in order, the first that differs deciding. -/
theorem ranksBefore_iff {as bs : List Nat} (h : as.length = bs.length) : ranksBefore as bs = true ↔ as < bs := by
  induction as generalizing bs with
  | nil =>
    rw [List.length_eq_zero_iff.mp h.symm]
    simp [ranksBefore]
  | cons a as ih =>
    cases bs with
    | nil => cases h
    | cons b bs =>
      rw [List.cons_lt_cons_iff, ← ih (Nat.succ.inj h)]
      change (if a = b then ranksBefore as bs else decide (a < b)) = true ↔ _
      by_cases hab : a = b <;> simp [hab]

theorem firstRanked_le {α : Type} {keys : α → List Nat} (hlen : ∀ a b, (keys a).length = (keys b).length) {l : List α} {a : α}
    (h : firstRanked keys l = some a) : ∀ b ∈ l, keys a ≤ keys b := by
  induction l generalizing a with
  | nil => cases h
  | cons c l ih =>
    unfold firstRanked at h
    cases hrest : firstRanked keys l with
    | none =>
      have hnil : l = [] := by
        cases l with
        | nil => rfl
        | cons b l =>
          unfold firstRanked at hrest
          split at hrest
          · split at hrest <;> cases hrest
          · cases hrest
      rw [hrest] at h
      cases h
      simp [hnil]
    | some b =>
      rw [hrest] at h
      dsimp only at h
      have hbefore := ranksBefore_iff (hlen b c)
      split_ifs at h with hb
      · cases h
        exact List.forall_mem_cons.mpr ⟨(hbefore.mp hb).le, ih hrest⟩
      · cases h
        have hle : keys c ≤ keys b := not_lt.mp (mt hbefore.mpr hb)
        exact List.forall_mem_cons.mpr ⟨le_refl _, fun b' hb' => hle.trans (ih hrest b' hb')⟩

theorem firstRanked_eq_none {α : Type} {keys : α → List Nat} {l : List α} : firstRanked keys l = none ↔ l = [] := by
  cases l with
  | nil => exact ⟨fun _ => rfl, fun _ => rfl⟩
  | cons a l =>
    unfold firstRanked
    split
    · split <;> simp
    · simp

/-- R129: the keys, in the words of the statement. -/
theorem rankKeys_eq (s : State) (d : Option Nat) (l : Nat) (wa : Needs) : s.rankKeys d l wa = rankingKeys s d l wa := by
  funext p
  have hcount (a b c e : Bool) : [a, b, c, e].count true =
      (if a then 1 else 0) + (if b then 1 else 0) + (if c then 1 else 0) + (if e then 1 else 0) := by
    cases a <;> cases b <;> cases c <;> cases e <;> rfl
  unfold State.rankKeys rankingKeys coveredCount SidingRec.outermost
  rw [hcount]
  cases p.2.stack.getLast? with
  | none => rfl
  | some x =>
    have hdue : s.dueOf x.fleet = dueOfFleet s x.fleet := rfl
    dsimp only
    rw [hdue]
    cases d <;> cases dueOfFleet s x.fleet <;> rfl

theorem isInOrder_eq (s : State) (d : Option Nat) (p : Nat × SidingRec) : isInOrder s d p = s.inOrder d p.2 := by
  unfold isInOrder State.inOrder SidingRec.outermost
  cases p.2.stack.getLast? with
  | none => rfl
  | some x =>
    have hdue : s.dueOf x.fleet = dueOfFleet s x.fleet := rfl
    dsimp only
    rw [hdue]
    cases d <;> cases dueOfFleet s x.fleet <;> rfl

theorem eligible_eq (s : State) (g l : Nat) (ma : Needs) : s.eligible g l ma = s.stab.sidings.filter (isEligible s g l ma) := by
  unfold State.eligible State.candidates
  rw [List.filter_filter]
  congr 1
  funext p
  unfold isEligible
  rw [Bool.and_comm, Bool.and_assoc]
  rfl

/-- R128–R130: the choice, in the words of the statement. -/
theorem choose_eq (s : State) (g f l : Nat) (ma wa : Needs) : s.choose g f l ma wa =
    let d := dueOfFleet s f
    let el := s.stab.sidings.filter (isEligible s g l ma)
    let cands := s.stab.sidings.filter (fun p => s.candidate g p.1 p.2)
    if el.isEmpty then .noPlace (if !cands.isEmpty && cands.all (fun p => !covers p.2.abilities ma) then .needs else .capacity)
    else match firstRanked (rankingKeys s d l wa) (el.filter (isInOrder s d)) with
    | some p => .place p.1 false
    | none => match s.param.inversion with
      | .hold => .noPlace .order
      | .accept => match firstRanked (fun p => inversionKey s d p :: rankingKeys s d l wa p) el with
        | some p => .place p.1 true
        | none => .noPlace .order := by
  have horder (d : Option Nat) : (fun p => s.inOrder d p.2) = isInOrder s d := funext fun p => (isInOrder_eq s d p).symm
  unfold State.choose
  dsimp only
  rw [eligible_eq, horder, rankKeys_eq]
  rfl

theorem choice_isRanked : choiceIsRanked := by
  intro s g f l ma wa d el cands first
  have hfirst {keys : Nat × SidingRec → List Nat} {l : List (Nat × SidingRec)} {p : Nat × SidingRec}
      (hlen : ∀ a b, (keys a).length = (keys b).length) (h : firstRanked keys l = some p) : first keys l p.1 :=
    ⟨p, firstRanked_mem h, rfl, firstRanked_le hlen h⟩
  have hchoose := choose_eq s g f l ma wa
  change s.choose g f l ma wa = if el.isEmpty then
    .noPlace (if !cands.isEmpty && cands.all (fun p => !covers p.2.abilities ma) then .needs else .capacity) else _ at hchoose
  by_cases hel : el = []
  · rw [if_pos (List.isEmpty_iff.mpr hel)] at hchoose
    by_cases hneeds : (!cands.isEmpty && cands.all (fun p => !covers p.2.abilities ma)) = true
    · rw [hchoose, if_pos hneeds]
      simpa [hel] using hneeds
    · rw [hchoose, if_neg hneeds]
      refine ⟨hel, ?_⟩
      simpa [or_iff_not_imp_left] using hneeds
  rw [if_neg (mt List.isEmpty_iff.mp hel)] at hchoose
  rw [hchoose]
  cases hplace : firstRanked (rankingKeys s d l wa) (el.filter (isInOrder s d)) with
  | some p =>
    dsimp only
    exact hfirst (fun _ _ => rfl) hplace
  | none =>
    have hnone := firstRanked_eq_none.mp hplace
    cases s.param.inversion with
    | hold => exact ⟨hel, hnone, rfl⟩
    | accept =>
      cases hinverted : firstRanked (fun p => inversionKey s d p :: rankingKeys s d l wa p) el with
      | some p => exact ⟨hnone, rfl, hfirst (fun _ _ => rfl) hinverted⟩
      | none => exact absurd (firstRanked_eq_none.mp hinverted) hel

/-! ## Allocation (R128–R131) -/

/-- R128–R130: the siding that is chosen is eligible, and under HOLD in order. -/
theorem choose_eligible {f : Nat} {inverted : Bool} (hwf : Tbl.wf s.stab.sidings)
    (h : s.choose g f length ma wa = .place n inverted) : ∃ r, Tbl.find n s.stab.sidings = some r ∧
      isEligible s g length ma (n, r) = true ∧ (s.param.inversion = .hold → isInOrder s (dueOfFleet s f) (n, r) = true) := by
  have hranked := choice_isRanked s g f length ma wa
  rw [h] at hranked
  have hfound {p : Nat × SidingRec} (hp : p ∈ s.stab.sidings.filter (isEligible s g length ma)) :
      Tbl.find p.1 s.stab.sidings = some p.2 ∧ isEligible s g length ma p = true :=
    ⟨Tbl.find_of_mem hwf (List.mem_of_mem_filter hp), List.of_mem_filter hp⟩
  cases inverted with
  | false =>
    obtain ⟨p, hp, rfl, -⟩ := hranked
    obtain ⟨hr, hfits⟩ := hfound (List.mem_of_mem_filter hp)
    exact ⟨p.2, hr, hfits, fun _ => List.of_mem_filter hp⟩
  | true =>
    obtain ⟨-, haccept, p, hp, rfl, -⟩ := hranked
    obtain ⟨hr, hfits⟩ := hfound hp
    exact ⟨p.2, hr, hfits, fun hhold => by rw [haccept] at hhold; cases hhold⟩

theorem allocate_duplicate {f : Nat} (h : (s.findTram f).isSome = true) : s.allocate g f length ma wa = (s, .duplicate) := if_pos h

theorem allocate_noPlace {f : Nat} {why : PlaceReason} (hnone : s.findTram f = none)
    (hchoose : s.choose g f length ma wa = .noPlace why) : s.allocate g f length ma wa = (s, .noPlace why) := by
  unfold State.allocate
  rw [hnone, hchoose]
  rfl

/-- R130, R131, R147: the notices of a placement. -/
def placementNotices (n f : Nat) (inverted : Bool) (r : SidingRec) (s : State) : State :=
  match inverted, r.stack.getLast? with
  | true, some o => (stackNotice n f (r.stack.length + 1) 1 1 s).post .stabling 4 [.u16 f, .u8 n, .u16 o.fleet]
  | _, _ => stackNotice n f (r.stack.length + 1) 1 1 s

/-- A siding with a record at its outer end (R125). -/
def SidingRec.joined (r : SidingRec) (x : StackRec) : SidingRec := { r with stack := r.stack ++ [x] }

/-- R131: a placement, and the answer. -/
theorem allocate_placed {f : Nat} {inverted : Bool} (hnone : s.findTram f = none)
    (hchoose : s.choose g f length ma wa = .place n inverted) (hr : Tbl.find n s.stab.sidings = some r) :
    let t := (s.allocate g f length ma wa).1
    SidingTaken [.stabling] (reports t .reserved none) (placementNotices n f inverted r) s n
      (r.joined (allocatedRecord s g f length ma wa)) t ∧ (s.allocate g f length ma wa).2 = .siding n := by
  have hpushed : SidingTaken [.stabling] [] (stackNotice n f (r.stack.length + 1) 1 1) s n (r.joined (allocatedRecord s g f length ma wa))
      ((s.pushRecord n (allocatedRecord s g f length ma wa)).postStack n f (r.stack.length + 1) (some .reserved) .reserved) :=
    ((sidingTaken_found hr).changeSiding (fun r => r.joined (allocatedRecord s g f length ma wa))).postStack n f _ (some .reserved)
      .reserved
  have hsilent : s.findTram f = none → ¬(s.findTram f).isSome = true := fun h => by simp [h]
  unfold State.allocate placementNotices
  rw [if_neg (hsilent hnone), hchoose]
  dsimp only
  rw [hr, Option.bind_some]
  have houter : r.outermost = r.stack.getLast? := rfl
  rw [houter]
  refine ⟨?_, rfl⟩
  cases inverted <;> cases r.stack.getLast?
  · exact hpushed.report .reserved none
  · exact hpushed.report .reserved none
  · exact hpushed.report .reserved none
  · exact (hpushed.posts (posts_one .stabling 4 _)).report .reserved none

theorem allocation_fits : allocationPlacesWhereTheTramFits := by
  intro g f l ma wa s t n hwf h
  obtain ⟨-, hnone, -⟩ := allocate_siding h
  cases hchoose : s.choose g f l ma wa with
  | noPlace why =>
    rw [allocate_noPlace hnone hchoose] at h
    cases h
  | place m inverted =>
    obtain ⟨r, hr, heligible, horder⟩ := choose_eligible hwf hchoose
    obtain ⟨htaken, hanswer⟩ := allocate_placed hnone hchoose hr
    rw [h] at htaken hanswer
    cases hanswer
    unfold isEligible at heligible
    simp only [Bool.and_eq_true, decide_eq_true_eq] at heligible
    obtain ⟨⟨hcandidate, hcovers⟩, hlength⟩ := heligible
    obtain ⟨hput, -⟩ := htaken.onlySiding
    exact ⟨hnone, r, hr, hcandidate, hlength, hcovers, fun hhold => (isInOrder_eq s _ _).symm.trans (horder hhold), hput,
      htaken.acts.effect.1, htaken.acts.claims⟩

theorem allocation_followsTheChoice : allocationFollowsTheChoice := by
  intro g f l ma wa s out
  by_cases htram : (s.findTram f).isSome = true
  · rw [if_pos htram]
    exact allocate_duplicate htram
  rw [if_neg htram]
  have hnone : s.findTram f = none := by simpa using htram
  split
  · rename_i why hchoose
    exact allocate_noPlace hnone hchoose
  · rename_i n inverted hchoose
    obtain ⟨r, hr⟩ : ∃ r, Tbl.find n s.stab.sidings = some r := find_of_mem_keys (choose_place hchoose)
    obtain ⟨htaken, hanswer⟩ := allocate_placed hnone hchoose hr
    refine ⟨hanswer, fun r' hr' => ?_⟩
    cases hr.symm.trans hr'
    exact ⟨htaken.acts.answered, htaken.shunts, htaken.handed, htaken.acts.notes⟩

/-! ## Calls, releases and doubt (R131, R133, R137) -/

/-- R133: a call that its check admits. -/
theorem sidingTaken_callClaim {f : Nat} (hr : Tbl.find n s.stab.sidings = some r) (hcheck : s.callCheck f = .ok (n, i))
    (p : StackPurpose) : SidingTaken [.stabling] (reports (s.callClaim f p).1 .called none) (stackNotice n f (i + 1) 3 3) s n
      (withRecord f (fun y => { y with state := .called, purpose := some p, sinceRestart := s.stab.handed }) r) (s.callClaim f p).1 := by
  unfold State.callClaim
  rw [hcheck]
  exact (((sidingTaken_found hr).onRecord f _).postStack n f (i + 1) (some .called) .called).report .called none

theorem claims_onAStack : claimsOnAStack := by
  refine ⟨fun f n i p r x s ⟨_, hr⟩ hcheck => (sidingTaken_callClaim hr hcheck p).claimed,
    fun g f n i p r x s ⟨hfind, hr⟩ => ⟨?_, ?_⟩,
    fun g f p s hnone => ?_, fun n c r s hr => ?_, fun n c s hr => doubtClaim_absent hr⟩
  · intro t
    change if _ then Effect _ (s.claims ++ reports (s.releaseClaim g f) .released (some g)) _ none s (s.releaseClaim g f) ∧
        OnlySiding _ _ s (s.releaseClaim g f)
      else s.releaseClaim g f = s
    unfold State.releaseClaim
    rw [hfind]
    dsimp only
    split_ifs
    · exact (((sidingTaken_found hr).removeRecord f (i + 1) .released).report .released (some g)).claimed
    · rfl
  · intro t
    change if _ then Effect _ (s.claims ++ reports (s.uncallClaim f p) .uncalled none) _ none s (s.uncallClaim f p) ∧
        OnlySiding _ _ s (s.uncallClaim f p)
      else s.uncallClaim f p = s
    unfold State.uncallClaim
    rw [hfind]
    dsimp only
    split_ifs
    · exact (((sidingTaken_found hr).onRecord f StackRec.settle).postStack n f (i + 1) (some .stabled) .uncalled |>.report .uncalled
        none).claimed
    · rfl
  · unfold State.releaseClaim State.uncallClaim
    rw [hnone]
    exact ⟨rfl, rfl⟩
  · intro t y
    split_ifs with hknown
    · exact (sidingTaken_doubtClaim hr hknown c).claimed
    · exact doubtClaim_doubtful hr hknown

/-- Settles O26: the candidates (`candidate_iff`), the choice (`choice_isRanked`), a placement (`allocate_placed`), and the other claims
on one siding. -/
theorem candidatesAndAllocation : Obligations.CandidatesAndAllocation :=
  ⟨candidates_capacity, allocation_fits, choice_isRanked, covering_isInclusion, allocation_followsTheChoice, claims_onAStack⟩

end

end Sys2Proof.Machine

/-! # Restart at the stabling block (07 section 7.8) -/

namespace Sys2Proof.Machine

section

variable {s t u : State} {n : Nat} {r : SidingRec} {x : StackRec} {p : Nat × SidingRec}

/-! ## One record and one siding at a restart (R148) -/

theorem restart_record (x : StackRec) : x.restart = restartedRecord x := by
  unfold StackRec.restart restartedRecord
  cases x.state <;> rfl

theorem restart_siding (r : SidingRec) : r.restart = { r with
    stack := r.stack.filterMap restartedRecord, incoming := none
    census := if r.stack.any (fun x => !x.sinceRestart && (x.state = .reserved || x.state = .leaving)) then .doubt else r.census } := by
  unfold SidingRec.restart
  rw [funext restart_record]
  rfl

/-- R148: a record that a restart changes goes to STABLED. -/
theorem restart_state {y : StackRec} (h : x.restart = some y) (hne : y.state ≠ x.state) : y.state = .stabled := by
  unfold StackRec.restart at h
  split_ifs at h
  · cases h
    exact absurd rfl hne
  · split at h
    · cases h
    · cases h
      exact absurd rfl hne
    · cases h
      rfl

theorem noteRecord_none {i : Nat} (h : x.restart = none) : s.noteRecord n (x, i) = stackNotice n x.fleet (i + 1) 5 15 s := by
  unfold State.noteRecord
  rw [h]
  rfl

theorem noteRecord_some {i : Nat} {y : StackRec} (h : x.restart = some y) :
    s.noteRecord n (x, i) = if y.state = x.state then s else stackNotice n x.fleet (i + 1) 2 15 s := by
  unfold State.noteRecord
  rw [h]
  dsimp only
  split_ifs with hstate
  · rfl
  · rw [restart_state h hstate]
    rfl

theorem posts_noteRecord (n : Nat) (q : StackRec × Nat) : Posts (fun s => s.noteRecord n q) := by
  cases h : q.1.restart with
  | none =>
    rw [funext fun s => noteRecord_none (s := s) (n := n) (i := q.2) h]
    exact posts_stackNotice _ _ _ _ _
  | some y =>
    rw [funext fun s => noteRecord_some (s := s) (n := n) (i := q.2) h]
    exact .ite (fun _ => .none) (fun _ => posts_stackNotice _ _ _ _ _)

/-- R147, R148: the SIDING_STATE notice of one siding at a restart. -/
def restartSidingNotice (p : Nat × SidingRec) (s : State) : State :=
  if p.2.restart.census = p.2.census ∧ p.2.incoming.isNone then s else sidingNotice p.1 p.2.restart 15 s

theorem restartNotices_eq (s : State) (p : Nat × SidingRec) :
    restartNotices s p = restartSidingNotice p (p.2.stack.zipIdx.foldl (State.noteRecord p.1) s) := by
  have hstep : State.noteRecord p.1 = fun s x => match restartedRecord x.1 with
      | none => stackNotice p.1 x.1.fleet (x.2 + 1) 5 15 s
      | some y => if y.state = x.1.state then s else stackNotice p.1 x.1.fleet (x.2 + 1) 2 15 s := by
    funext s x
    rw [← restart_record]
    cases hx : x.1.restart with
    | none => exact noteRecord_none hx
    | some y => exact noteRecord_some hx
  have hcensus : p.2.restart.census = if p.2.stack.any StackRec.doubtful then .doubt else p.2.census := rfl
  have hchanges : (p.2.stack.any StackRec.doubtful && decide (p.2.census = .known) || p.2.incoming.isSome) = true ↔
      ¬(p.2.restart.census = p.2.census ∧ p.2.incoming.isNone = true) := by
    rw [hcensus]
    cases p.2.stack.any StackRec.doubtful <;> cases p.2.census <;> cases p.2.incoming <;> simp
  unfold restartNotices restartSidingNotice
  rw [hstep]
  by_cases hsame : p.2.restart.census = p.2.census ∧ p.2.incoming.isNone = true
  · rw [if_pos hsame]
    exact if_neg fun h => hchanges.mp h hsame
  · rw [if_neg hsame]
    exact if_pos (hchanges.mpr hsame)

/-- R148: STRANDED of a siding. -/
def strandedClaims (p : Nat × SidingRec) : List Instr :=
  if p.2.stack.any StackRec.strands then [.alarmRaise (.stranded p.1)] else []

/-- R147: SIDING_STATE is posted where the siding is found. -/
theorem postSiding_posts (s : State) (n : Nat) (c : StackCause) : ∃ f, Posts f ∧ s.postSiding n c = f s ∧
    ∀ r, Tbl.find n s.stab.sidings = some r → f = sidingNotice n r c.code := by
  cases hr : Tbl.find n s.stab.sidings with
  | some r =>
    refine ⟨_, posts_sidingNotice n r c.code, postSiding_eq hr c, fun r' hr' => ?_⟩
    cases hr'
    rfl
  | none =>
    refine ⟨id, .none, ?_, fun r' hr' => by cases hr'⟩
    unfold State.postSiding
    rw [hr]
    rfl

/-- R148: the alarm of one siding and its notices, those of the statement where the siding stands restarted. -/
theorem noteSiding_acts (s : State) (p : Nat × SidingRec) : ∃ f, Acts [] (strandedClaims p) f s (s.noteSiding p) ∧
    (Tbl.find p.1 s.stab.sidings = some p.2.restart → f = fun s => restartNotices s p) := by
  have hrecords := Posts.foldl (posts_noteRecord p.1) p.2.stack.zipIdx
  have hraised {f : State → State} (hf : Posts f) : Acts [] (strandedClaims p) f s
      (if p.2.stack.any StackRec.strands then (f s).raise (.stranded p.1) else f s) := by
    unfold strandedClaims
    split_ifs
    · exact (acts_posts hf s).next (acts_send _ _)
    · exact acts_posts hf s
  unfold State.noteSiding
  dsimp only
  by_cases hsame : p.2.restart.census = p.2.census ∧ p.2.incoming.isNone
  · rw [if_pos hsame]
    refine ⟨_, hraised hrecords, fun _ => funext fun s => ?_⟩
    rw [restartNotices_eq, restartSidingNotice, if_pos hsame]
  · rw [if_neg hsame]
    obtain ⟨f, hf, hpost, hnotice⟩ := postSiding_posts (p.2.stack.zipIdx.foldl (State.noteRecord p.1) s) p.1 .restart
    rw [hpost]
    refine ⟨_, hraised (hrecords.comp hf), fun hfound => funext fun s' => ?_⟩
    rw [restartNotices_eq, restartSidingNotice, if_neg hsame, hnotice p.2.restart ((acts_posts hrecords s).stab ▸ hfound)]
    rfl

/-- R148: the sidings, one after another. -/
theorem noteSidings_acts (l : Tbl SidingRec) (s : State) : ∃ f, Acts [] (l.flatMap strandedClaims) f s (l.foldl State.noteSiding s) ∧
    ((∀ p ∈ l, Tbl.find p.1 s.stab.sidings = some p.2.restart) → f = fun s => l.foldl restartNotices s) := by
  induction l generalizing s with
  | nil => exact ⟨id, acts_none s, fun _ => rfl⟩
  | cons p l ih =>
    obtain ⟨f, hacts, hf⟩ := noteSiding_acts s p
    obtain ⟨f', hacts', hf'⟩ := ih (s.noteSiding p)
    refine ⟨_, hacts.trans hacts', fun hfound => ?_⟩
    obtain ⟨hp, hl⟩ := List.forall_mem_cons.mp hfound
    rw [hf hp, hf' (by rw [hacts.stab]; exact hl)]
    rfl

/-! ## The restart (R148, R190) -/

theorem strands_eq (x : StackRec) : x.strands = (!x.sinceRestart && x.state = .reserved &&
    (x.entered || match x.purpose with | some (.shuntEntry _) => true | _ => false)) := by
  unfold StackRec.strands
  rcases x.purpose with _ | ⟨_ | _ | _ | _⟩ <;> rfl

theorem strandedClaims_flatMap (l : Tbl SidingRec) : l.flatMap strandedClaims =
    (l.filter (fun p => p.2.stack.any StackRec.strands)).map (fun p => .alarmRaise (.stranded p.1)) := by
  induction l with
  | nil => rfl
  | cons p l ih =>
    rw [List.flatMap_cons, List.filter_cons, ih]
    unfold strandedClaims
    cases p.2.stack.any StackRec.strands <;> rfl

/-- R148: the stabling block once a restart is taken. -/
def Stabling.restarted (b : Stabling) : Stabling :=
  { sidings := b.sidings.map (fun p => (p.1, p.2.restart)), shunts := [], handed := false }

/-- Settles O34: the sidings restarted (`Tbl.find_map`), and then their notices and alarms (`noteSidings_acts`). -/
theorem stablingRestartSettles : Obligations.StablingRestartSettles := by
  intro s
  have hrestarted := acts_onStab (s.take .stablingRestart) Stabling.restarted
  have hfind (m : Nat) : Tbl.find m s.stab.restarted.sidings = (Tbl.find m s.stab.sidings).map SidingRec.restart :=
    Tbl.find_map s.stab.sidings (fun _ => SidingRec.restart) m
  obtain ⟨f, hnoted, hf⟩ := noteSidings_acts s.stab.sidings ((s.take .stablingRestart).onStab Stabling.restarted)
  generalize hv : s.stab.sidings.foldl State.noteSiding ((s.take .stablingRestart).onStab Stabling.restarted) = v at hnoted
  have hended := (hnoted.next (acts_report v .restart none)).next (acts_send (v.report .restart none) (.restartTakenReport .stabling))
  have hall := (hrestarted.next hended).afterTake
  have hstab : ((v.report .restart none).send (.restartTakenReport .stabling)).stab = s.stab.restarted := hended.stab
  have hreports : reports ((v.report .restart none).send (.restartTakenReport .stabling)) .restart none = reports v .restart none :=
    reports_report v .restart .restart none none
  refine ⟨(v.report .restart none).send (.restartTakenReport .stabling), ?_, hall.1, hall.2.2.2, fun hwf => ?_, ?_, ?_, ?_, fun m => ?_⟩
  · rw [← hv]
    rfl
  · rw [hf fun p hp => (hfind p.1).trans (by rw [Tbl.find_of_mem hwf hp]; rfl)] at hall
    exact hall.2.2.1
  · have hclaims := hall.2.1
    rw [strandedClaims_flatMap, List.nil_append, ← List.append_assoc, ← List.append_assoc] at hclaims
    rw [hreports, hclaims]
    exact congrArg (fun φ : StackRec → Bool => s.claims.erase .stablingRestart ++ (s.stab.sidings.filter (fun p => p.2.stack.any φ)).map
      (fun p => .alarmRaise (.stranded p.1)) ++ reports v .restart none ++ [.restartTakenReport .stabling]) (funext strands_eq)
  · rw [hstab]
    rfl
  · rw [hstab]
    rfl
  · rw [hstab, hfind]
    exact congrArg (fun φ => Option.map φ _) (funext restart_siding)

end

end Sys2Proof.Machine

/-! # What a shunt is refused for (07 sections 7.4, 7.6) -/

namespace Sys2Proof.Machine

section

variable {s : State} {f t n i h : Nat} {r tr : SidingRec} {x : StackRec} {p : Port} {a : Ans} {q : Req} {own : Option Nat}

/-! ## The call's own refusals (R133) -/

theorem callCheck_absent (hfind : s.findTram f = none) : s.callCheck f = .error (.refused .unknownTram) := by
  unfold State.callCheck
  rw [hfind]

/-- R133: a call's decision by what stands in the record and its siding. -/
theorem callCheck_eq (hfind : s.findTram f = some (n, r, i, x)) : s.callCheck f =
    if x.state = .reserved then .error (.refused .unknownTram)
    else if x.state = .called ∨ x.state = .leaving then .error (.refused .inUse)
    else if r.census = .doubt then .error (.refused .doubt)
    else if r.blocked ∨ r.incoming.isSome then .error (.refused .unavailable [.u8 n])
    else if i + 1 ≠ r.stack.length then .error (.refused .blocked (fList16 (r.outside i)))
    else .ok (n, i) := by
  unfold State.callCheck
  rw [hfind]
  dsimp only
  cases x.state <;> simp [Bool.or_eq_true]

/-- R133: the call's own rows as a decision: what each refusal comes to, and what a call that passes comes to. -/
theorem callCheck_decides {refused : Reason → List Field → Prop} {passes : Prop} (hfind : s.findTram f = some (n, r, i, x))
    (hrefused : ∀ {why l}, s.callCheck f = .error ⟨.refused, some why, l⟩ → refused why l)
    (hpasses : s.callCheck f = .ok (n, i) → passes) :
    if x.state = .reserved then refused .unknownTram []
    else if x.state = .called ∨ x.state = .leaving then refused .inUse []
    else if r.census = .doubt then refused .doubt []
    else if r.blocked ∨ r.incoming.isSome then refused .unavailable [.u8 n]
    else if i + 1 ≠ r.stack.length then refused .blocked (.u8 (r.outside i).length :: (r.outside i).map .u16)
    else passes := by
  have hcheck := callCheck_eq hfind
  split_ifs at hcheck ⊢
  · exact hrefused hcheck
  · exact hrefused hcheck
  · exact hrefused hcheck
  · exact hrefused hcheck
  · refine hrefused (hcheck.trans ?_)
    unfold fList16 fList
    rw [List.length_map]
    rfl
  · exact hpasses hcheck

/-! ## The target (R140, R146) -/

/-- R140, R146: what a target is refused for; `others` are its records but the tram's own. -/
theorem targetRefusal_eq (htr : Tbl.find t s.stab.sidings = some tr) (length : Nat) (ma : Needs) (own : Option Nat) :
    s.targetRefusal t length ma own =
    let others := tr.stack.filter (fun y => own ≠ some y.fleet)
    if tr.census = .doubt then some ⟨.refused, some .doubt, []⟩
    else if tr.blocked ∨ tr.incoming.isSome then some ⟨.refused, some .unavailable, [.u8 t]⟩
    else if others.getLast?.any (fun y => y.state ≠ .stabled) then some ⟨.refused, some .inUse, [.u8 t]⟩
    else if 12 ≤ tr.stack.length ∨ tr.length - (others.map (fun y => y.length + s.param.spacing)).sum < length + s.param.spacing then
      some ⟨.refused, some .full, []⟩
    else if ¬ covers tr.abilities ma then some ⟨.refused, some .noPlace, [.u8 1]⟩
    else none := by
  unfold State.targetRefusal
  rw [htr]
  dsimp only
  simp only [Bool.or_eq_true]
  cases covers tr.abilities ma <;> rfl

/-- R140, R146: the target rows as a decision: what each refusal comes to, and what a target that passes comes to. -/
theorem targetRefusal_decides {refused : Reason → List Field → Prop} {passes : Prop} {others : List StackRec} {length : Nat}
    {ma : Needs} (htr : Tbl.find t s.stab.sidings = some tr) (hothers : tr.stack.filter (fun y => own ≠ some y.fleet) = others)
    (hrefused : ∀ {why l}, s.targetRefusal t length ma own = some ⟨.refused, some why, l⟩ → refused why l)
    (hpasses : s.targetRefusal t length ma own = none → passes) :
    if tr.census = .doubt then refused .doubt []
    else if tr.blocked ∨ tr.incoming.isSome then refused .unavailable [.u8 t]
    else if others.getLast?.any (fun y => y.state ≠ .stabled) then refused .inUse [.u8 t]
    else if 12 ≤ tr.stack.length ∨ tr.length - (others.map (fun y => y.length + s.param.spacing)).sum < length + s.param.spacing then
      refused .full []
    else if ¬ covers tr.abilities ma then refused .noPlace [.u8 1]
    else passes := by
  have htarget := targetRefusal_eq htr length ma own
  rw [hothers] at htarget
  dsimp only at htarget
  split_ifs at htarget ⊢
  · exact hrefused htarget
  · exact hrefused htarget
  · exact hrefused htarget
  · exact hrefused htarget
  · exact hpasses htarget
  · exact hrefused htarget

theorem filter_notOwn_none (l : List StackRec) : l.filter (fun y => (none : Option Nat) ≠ some y.fleet) = l := by simp

/-! ## SHUNT, by what it comes to (R140) -/

theorem takeShunt_badFleet (h : f = 0 ∨ 4095 < f) : takeShunt p f t s = (s, .refused .badArgument) := by
  have hrange : (1 ≤ f && f ≤ 4095) = false := by
    rw [Bool.and_eq_false_iff, decide_eq_false_iff_not, decide_eq_false_iff_not]
    omega
  unfold takeShunt
  rw [hrange, if_pos (by simp)]

section

variable (htr : Tbl.find t s.stab.sidings = some tr) (hf : ¬(f = 0 ∨ 4095 < f))
include htr hf

theorem shunt_argumentsFit : ¬((Tbl.find t s.stab.sidings).isNone || !(1 ≤ f && f ≤ 4095)) = true := by
  have hlow : 1 ≤ f := by omega
  have hhigh : f ≤ 4095 := by omega
  simp [htr, hlow, hhigh]

theorem takeShunt_notCalled (hcheck : s.callCheck f = .error a) : takeShunt p f t s = (s, a) := by
  unfold takeShunt
  rw [if_neg (shunt_argumentsFit htr hf), hcheck]

variable (hcheck : s.callCheck f = .ok (n, i)) (hfind : s.findTram f = some (n, r, i, x))
include hcheck hfind

theorem takeShunt_toSource (h : t = n) : takeShunt p f t s = (s, .refused .badArgument) := by
  unfold takeShunt
  rw [if_neg (shunt_argumentsFit htr hf), hcheck, hfind]
  exact if_pos h

variable (hne : t ≠ n)
include hne

theorem takeShunt_badTarget (h : s.targetRefusal t x.length x.mandatory none = some a) : takeShunt p f t s = (s, a) := by
  unfold takeShunt
  rw [if_neg (shunt_argumentsFit htr hf), hcheck, hfind]
  dsimp only
  rw [if_neg hne, h]

variable (htarget : s.targetRefusal t x.length x.mandatory none = none)
include htarget

theorem takeShunt_noHead (h : [1, 2].filter (s.hasShuntRoutes n t) = []) : takeShunt p f t s = (s, .refused .unavailable) := by
  unfold takeShunt
  rw [if_neg (shunt_argumentsFit htr hf), hcheck, hfind]
  dsimp only
  rw [if_neg hne, htarget, h]

theorem takeShunt_heads (h : [1, 2].filter (s.hasShuntRoutes n t) ≠ []) : takeShunt p f t s =
    (([1, 2].filter (s.hasShuntRoutes n t)).find? (fun h => (Tbl.find h s.stab.shunts).isNone)).elim (s, .refused .full)
      (fun h => s.startShunt h f n i t ((s.lookup .shuntOut n h).getD 0) (portOwner p)) := by
  unfold takeShunt
  rw [if_neg (shunt_argumentsFit htr hf), hcheck, hfind]
  dsimp only
  rw [if_neg hne, htarget]
  cases hheads : [1, 2].filter (s.hasShuntRoutes n t) with
  | nil => exact absurd hheads h
  | cons k l =>
    dsimp only
    cases (k :: l).find? (fun h => (Tbl.find h s.stab.shunts).isNone) <;> rfl

end

/-- R140: SHUNT from desk or planner in RUN. -/
theorem exec_shunt {u : State} (hport : q.port = .desk ∨ q.port = .planner) (ho : InRun q s)
    (hx : takeShunt q.port f t (s.take (.shunt q f t)) = (u, a)) : exec (.shunt q f t) s = .next (u.reply .shunt q a).settle := by
  have hexec := takeRequest_run (k := .shunt) (i := .shunt q f t) (by rcases hport with h | h <;> rw [h] <;> rfl) rfl rfl ho rfl
    (takeShunt q.port f t)
  rw [hx] at hexec
  exact hexec

theorem shunt_refusals : shuntRefusals := by
  intro q f t s hport ho tr htr refused
  have hrefused {why : Reason} {l : List Field}
      (h : takeShunt q.port f t (s.take (.shunt q f t)) = (s.take (.shunt q f t), ⟨.refused, some why, l⟩)) : refused why l :=
    ⟨_, exec_shunt hport ho h, effect_answer s _ _ _ _ _⟩
  have htr' : Tbl.find t (s.take (.shunt q f t)).stab.sidings = some tr := htr
  by_cases hf : f = 0 ∨ 4095 < f
  · rw [if_pos hf]
    exact hrefused (takeShunt_badFleet hf)
  rw [if_neg hf]
  cases hfind : s.findTram f with
  | none => exact hrefused (takeShunt_notCalled htr' hf (callCheck_absent hfind))
  | some v =>
  obtain ⟨n, r, i, x⟩ := v
  have hfind' : (s.take (.shunt q f t)).findTram f = some (n, r, i, x) := hfind
  refine callCheck_decides hfind' (fun h => hrefused (takeShunt_notCalled htr' hf h)) fun hcheck => ?_
  by_cases hsource : t = n
  · rw [if_pos hsource]
    exact hrefused (takeShunt_toSource htr' hf hcheck hfind' hsource)
  rw [if_neg hsource]
  refine targetRefusal_decides htr' (filter_notOwn_none tr.stack)
    (fun h => hrefused (takeShunt_badTarget htr' hf hcheck hfind' hsource h)) fun htarget => ?_
  have hheads : ([1, 2].filter (fun h => (s.lookup .shuntOut n h).isSome && (s.lookup .shuntIn h t).isSome)) =
      [1, 2].filter ((s.take (.shunt q f t)).hasShuntRoutes n t) := rfl
  rw [hheads]
  by_cases hnone : [1, 2].filter ((s.take (.shunt q f t)).hasShuntRoutes n t) = []
  · rw [if_pos hnone]
    exact hrefused (takeShunt_noHead htr' hf hcheck hfind' hsource htarget hnone)
  rw [if_neg hnone]
  intro hused
  refine hrefused ((takeShunt_heads htr' hf hcheck hfind' hsource htarget hnone).trans ?_)
  have hbusy : ([1, 2].filter ((s.take (.shunt q f t)).hasShuntRoutes n t)).find?
      (fun h => (Tbl.find h (s.take (.shunt q f t)).stab.shunts).isNone) = none := by
    refine List.find?_eq_none.mpr fun h hh => ?_
    rw [Option.isNone_iff_eq_none]
    exact Option.isSome_iff_ne_none.mp (List.all_eq_true.mp hused h hh)
  rw [hbusy]
  rfl

end

end Sys2Proof.Machine

/-! # A shunt that starts (07 section 7.6; 04 sections 4.4, 4.5) -/

namespace Sys2Proof.Machine

section

variable {s u w : State} {f t n i h k : Nat} {r tr : SidingRec} {x : StackRec} {d : RouteDef} {q : Req} {e : ShuntEntry} {p : Port}
  {owner : Owner}

/-! ## ORDER_INVERSION (R130, R141, R146) -/

/-- R141, R146: the notice in the words of the statements, of a state with the same roster. -/
theorem noteInversion_eq (hroster : w.roster = s.roster) (f t : Nat) (tr : SidingRec) :
    w.noteInversion f t tr.outermost = inversionNotice f t tr s w := by
  have hdue (m : Nat) : w.dueOf m = s.dueOf m := by
    unfold State.dueOf
    rw [hroster]
  unfold State.noteInversion inversionNotice
  rw [isInOrder_eq, State.inOrder]
  have houter : tr.outermost = tr.stack.getLast? := rfl
  rw [houter]
  cases tr.stack.getLast? with
  | none => rfl
  | some o =>
    dsimp only
    rw [hdue, hdue]
    rfl

theorem posts_inversionNotice (f t : Nat) (tr : SidingRec) (s : State) : Posts (inversionNotice f t tr s) := by
  unfold inversionNotice
  cases tr.stack.getLast? with
  | none => exact .none
  | some o => exact .ite (fun _ => .none) (fun _ => posts_one _ _ _)

/-! ## The entry, the incoming field and the call (R141) -/

/-- R141: the entry stands, the target names it, and the tram is called for it. -/
def State.shuntEntered (h : Nat) (e : ShuntEntry) (s : State) : State :=
  ((s.onStab (fun b => { b with shunts := Tbl.put h e b.shunts })).onSiding e.target (fun r => { r with incoming := some h })).markCalled
    e.source e.fleet (.shuntEntry h) s.stab.handed

/-- R141: the source with the tram called. -/
def SidingRec.calledFor (h f : Nat) (handed : Bool) (r : SidingRec) : SidingRec :=
  withRecord f (fun y => { y with state := .called, purpose := some (.shuntEntry h), sinceRestart := handed }) r

theorem stabTaken_shuntEntered (hr : Tbl.find e.source s.stab.sidings = some r) (htr : Tbl.find e.target s.stab.sidings = some tr)
    (hne : e.target ≠ e.source) (h : Nat) : StabTaken [.stabling] [] id s
      (Function.update (Function.update (sidingsOf s) e.target (some { tr with incoming := some h })) e.source
        (some (r.calledFor h e.fleet s.stab.handed))) (Tbl.put h e s.stab.shunts) (s.shuntEntered h e) := by
  have hentry := (stabTaken_none s).onStab (φ := fun b => { b with shunts := Tbl.put h e b.shunts }) (fun _ => rfl) rfl rfl
  refine (hentry.onSiding htr (fun r => { r with incoming := some h })).onSiding ?_ (SidingRec.calledFor h e.fleet s.stab.handed)
  rw [Function.update_of_ne hne.symm]
  exact hr

/-- R141, R147: the notices of a shunt whose out route stands, and the report of the call. -/
def State.shuntStarted (h : Nat) (e : ShuntEntry) (i : Nat) (outer : Option StackRec) (w : State) : State :=
  ((((w.postStack e.source e.fleet (i + 1) (some .called) .called).postSiding e.target .called).postPhase h .none).noteInversion e.fleet
    e.target outer).report .called none

theorem acts_shuntStarted (htr : Tbl.find e.target w.stab.sidings = some tr) (he : Tbl.find h w.stab.shunts = some e)
    (hroster : w.roster = s.roster) (i : Nat) {old : SidingRec} :
    Acts [] (reports (w.shuntStarted h e i old.outermost) .called none)
      (fun a => inversionNotice e.fleet e.target old s (shuntNotice h e e.phase.code [.u8 0] (sidingNotice e.target tr 3
        (stackNotice e.source e.fleet (i + 1) 3 3 a)))) w (w.shuntStarted h e i old.outermost) := by
  have hcalled := acts_postStack w e.source e.fleet (i + 1) (some .called) .called
  have hsiding := hcalled.trans (acts_posts (posts_sidingNotice e.target tr 3) _)
  have hphase := hsiding.trans (acts_posts (posts_shuntNotice h e e.phase.code [.u8 0]) _)
  have hinverted := hphase.trans (acts_posts (posts_inversionNotice e.fleet e.target old s) _)
  have hreport := hinverted.trans (acts_report _ .called none)
  have hstarted : w.shuntStarted h e i old.outermost = (inversionNotice e.fleet e.target old s (shuntNotice h e e.phase.code [.u8 0]
      (sidingNotice e.target tr 3 (w.postStack e.source e.fleet (i + 1) (some .called) .called)))).report .called none := by
    unfold State.shuntStarted
    rw [postSiding_eq (hcalled.stab ▸ htr), postPhase_eq (hsiding.stab ▸ he)]
    exact congrArg (State.report .called none) (noteInversion_eq (hphase.roster.trans hroster) _ _ _)
  rw [hstarted, reports_report]
  exact hreport

/-! ## The out route's request (R60–R66, R141) -/

/-- A shunt entry as it begins (R141). -/
def newShunt (f n t : Nat) (owner : Owner) (k : Nat) : ShuntEntry := ⟨f, n, t, owner, .outWait, k, none, .none⟩

/-- R141: a shunt whose out route is refused is undone. -/
theorem startShunt_refused {why : Reason} {fs : List Field} (hd : s.routeDef k = some d) (hkind : d.kind = .shuntOut)
    (hrefusal : requestRefusal k d s = some (why, fs)) (h f n i t : Nat) (owner : Owner) :
    s.startShunt h f n i t k owner = (s, ⟨.refused, some why, fs⟩) := by
  have hyard : SameYard s (s.shuntEntered h (newShunt f n t owner k)) := ⟨rfl, rfl, rfl, rfl, rfl⟩
  have hrequest := requestRoute_refusal (kinds := [.shuntOut]) (q := (newShunt f n t owner k).routeRequest h k)
    (s := s.shuntEntered h (newShunt f n t owner k)) hd (by rw [hkind]; rfl) ((requestRefusal_sameYard hyard k d).trans hrefusal)
  have hundone : s.startShunt h f n i t k owner =
      ((s.shuntEntered h (newShunt f n t owner k)).onStab (fun _ => s.stab), ⟨.refused, some why, fs⟩) := by
    unfold State.startShunt
    change (match (s.shuntEntered h (newShunt f n t owner k)).requestRoute [.shuntOut] ((newShunt f n t owner k).routeRequest h k) with
      | (s'', .refused why object) => _ | (s'', got) => _) = _
    rw [hrequest]
    rfl
  exact hundone

theorem startShunt_granted (htr : Tbl.find t s.stab.sidings = some tr)
    (hrequest : (s.shuntEntered h (newShunt f n t owner k)).requestRoute [.shuntOut] ((newShunt f n t owner k).routeRequest h k) =
      (w, requestGranted d s)) : s.startShunt h f n i t k owner =
    (w.shuntStarted h (newShunt f n t owner k) i tr.outermost, requestAnswer d [.u8 (requestPlace d s), .u8 h] s) := by
  unfold State.startShunt
  change (match (s.shuntEntered h (newShunt f n t owner k)).requestRoute [.shuntOut] ((newShunt f n t owner k).routeRequest h k) with
    | (s'', .refused why object) => _ | (s'', got) => _) = _
  rw [hrequest, htr, Option.bind_some]
  unfold requestGranted requestAnswer requestPlace
  cases slotTaken d s <;> rfl

/-! ## SHUNT (R140, R141) -/

/-- R140: the lowest-numbered head shunt with both routes whose entry is free. -/
theorem takeShunt_starts (htr : Tbl.find t s.stab.sidings = some tr) (hf : ¬(f = 0 ∨ 4095 < f)) (hcheck : s.callCheck f = .ok (n, i))
    (hfind : s.findTram f = some (n, r, i, x)) (hne : t ≠ n) (htarget : s.targetRefusal t x.length x.mandatory none = none)
    (hhead : [1, 2].find? (fun h => s.hasShuntRoutes n t h && (Tbl.find h s.stab.shunts).isNone) = some h)
    (hk : s.lookup .shuntOut n h = some k) : takeShunt p f t s = s.startShunt h f n i t k (portOwner p) := by
  have hfirst : ([1, 2].filter (s.hasShuntRoutes n t)).find? (fun h => (Tbl.find h s.stab.shunts).isNone) = some h := by
    rw [List.find?_filter]
    simpa only [Bool.decide_and, Bool.decide_eq_true] using hhead
  have hheads : [1, 2].filter (s.hasShuntRoutes n t) ≠ [] := fun hnone => by
    rw [hnone] at hfirst
    cases hfirst
  rw [takeShunt_heads htr hf hcheck hfind hne htarget hheads, hfirst, Option.elim_some, hk]
  rfl

theorem sameYard_reply (s : State) (k : Kind) (q : Req) (a : Ans) : SameYard s (s.reply k q a) :=
  ⟨by simp, by simp, by simp, by simp, by simp⟩

theorem sameYard_take (s : State) (c : Instr) : SameYard s (s.take c) := ⟨rfl, rfl, rfl, rfl, rfl⟩

/-- R60–R66, R141: a shunt whose out route is not refused. -/
theorem startShunt_stands (hr : Tbl.find n s.stab.sidings = some r) (htr : Tbl.find t s.stab.sidings = some tr) (hne : t ≠ n)
    (hd : s.routeDef k = some d) (hkind : d.kind = .shuntOut) (hrefusal : requestRefusal k d s = none) (hnodup : (routePoints d).Nodup)
    (h f i : Nat) (owner : Owner) :
    let e := newShunt f n t owner k
    ∃ u, s.startShunt h f n i t k owner = (u, requestAnswer d [.u8 (requestPlace d s), .u8 h] s) ∧
      StabTaken [.sections, .points, .routes, .stabling]
        (requestClaims k owner (.shuntEntry h f) (some f) d s ++ reports u .called none)
        (fun a => inversionNotice f t tr s (shuntNotice h e 1 [.u8 0] (sidingNotice t { tr with incoming := some h } 3
          (stackNotice n f (i + 1) 3 3 (requestNotices k owner (.shuntEntry h f) (some f) d s u a))))) s
        (Function.update (Function.update (sidingsOf s) t (some { tr with incoming := some h })) n
          (some (r.calledFor h f s.stab.handed))) (Tbl.put h e s.stab.shunts) u ∧
      Requested k owner (.shuntEntry h f) (some f) d s u := by
  intro e
  have hentered : StabTaken _ _ _ _ _ _ (s.shuntEntered h e) := stabTaken_shuntEntered hr htr hne h
  have hyard : SameYard s (s.shuntEntered h e) := hentered.acts.sameYard
  have hdef : (s.shuntEntered h e).routeDef k = some d := hd
  obtain ⟨w, hrequest, hdoes, hstands⟩ := requestRoute_requested (kinds := [.shuntOut]) (q := e.routeRequest h k) hdef
    (by rw [hkind]; rfl) ((requestRefusal_sameYard hyard k d).trans hrefusal) hnodup
  rw [hyard.congr (φ := requestGranted d) rfl] at hrequest
  have hw := (hentered.mono (parts' := [.sections, .points, .routes, .stabling]) (by simp)).next hdoes.acts
  have htarget : Tbl.find t w.stab.sidings = some { tr with incoming := some h } := by
    rw [hw.sidings]
    exact (Function.update_of_ne hne _ _).trans (Function.update_self t _ _)
  have hstarted := acts_shuntStarted (s := s) (i := i) (old := tr) (e := e) htarget (by rw [hw.shunts, Tbl.find_put, if_pos rfl])
    hw.acts.roster
  have hall := hw.next hstarted
  refine ⟨_, startShunt_granted htr hrequest, ?_, ?_⟩
  · rw [← requestClaims_sameYard hyard, ← requestNotices_sameYard hyard hstarted.sameYard.symm]
    exact hall
  · rw [← requested_sameYard hyard hstarted.sameYard.symm]
    exact hstands

theorem shunt_starts : shuntStarts := by
  intro q f t n i h k r tr x d s hport ho hwf hlow hhigh ⟨hfind, hr⟩ hcheck htr hne htarget hhead hk hd hkind owner
  have howner : portOwner q.port = owner := by rcases hport with h | h <;> simp only [owner, h] <;> rfl
  have htake := takeShunt_starts (s := s.take (.shunt q f t)) (p := q.port) htr (by omega) hcheck hfind hne htarget hhead hk
  have hyard := sameYard_take s (.shunt q f t)
  rw [howner] at htake
  split
  · rename_i why object hrefusal
    have hstart := startShunt_refused (s := s.take (.shunt q f t)) hd hkind hrefusal h f n i t owner
    exact ⟨_, exec_shunt hport ho (htake.trans hstart), effect_answer s _ _ _ _ _⟩
  · rename_i hrefusal
    intro hnodup
    obtain ⟨u, hstart, htaken, hstands⟩ :=
      startShunt_stands (s := s.take (.shunt q f t)) hr htr hne hd hkind hrefusal hnodup h f i owner
    have heffect := effect_reply .shunt q (requestAnswer d [.u8 (requestPlace d s), .u8 h] s) htaken.acts.afterTake
    have hreplied (a : Ans) := sameYard_reply u .shunt q a
    refine ⟨_, exec_shunt hport ho (htake.trans hstart), ?_, ?_, ?_, ?_, ?_, ?_, fun m hmt hmn => ?_⟩
    · rw [reports_reply, ← requestNotices_sameYard hyard (hreplied _).symm, ← requestClaims_sameYard hyard, List.append_assoc]
      exact heffect
    · rw [← requested_sameYard hyard (hreplied _).symm]
      exact hstands
    all_goals rw [State.reply_stab]
    · rw [htaken.shunts]
      exact put_put
    · exact htaken.handed
    · exact (htaken.sidings t).trans ((Function.update_of_ne hne _ _).trans (Function.update_self t _ _))
    · exact (htaken.sidings n).trans (Function.update_self n _ _)
    · exact (htaken.sidings m).trans ((Function.update_of_ne hmn _ _).trans (Function.update_of_ne hmt _ _))

/-- Settles O31: the refusals in their order (`shunt_refusals`), and a shunt that starts (`startShunt_stands`). -/
theorem shuntIsDecided : Obligations.ShuntIsDecided := ⟨shunt_refusals, shunt_starts⟩

end

end Sys2Proof.Machine

/-! # A shunt's in route: its request and its events (07 section 7.6) -/

namespace Sys2Proof.Machine

/-- A taking that has changed one shunt entry alone, to this entry. -/
structure ShuntTaken (parts : List Part) (sent : List Instr) (f : State → State) (s : State) (h : Nat) (e : ShuntEntry) (t : State) :
    Prop where
  acts : Acts parts sent f s t
  put : Put h e s.stab.shunts t.stab.shunts
  sidings : t.stab.sidings = s.stab.sidings
  handed : t.stab.handed = s.stab.handed
  stabling : .stabling ∈ parts

section

variable {s t u : State} {parts parts' : List Part} {sent sent' : List Instr} {f f' : State → State} {h i k n fleet : Nat}
  {e : ShuntEntry} {r : SidingRec} {x : StackRec} {d : RouteDef} {ev : RouteEvent} {asked : ShuntCause}

/-! ## One shunt entry, one operation after another -/

theorem shuntTaken_found (he : Tbl.find h s.stab.shunts = some e) : ShuntTaken [.stabling] [] id s h e s :=
  ⟨(acts_none s).mono (List.nil_subset _), put_same he, rfl, rfl, by simp⟩

theorem ShuntTaken.onShunt (hx : ShuntTaken parts sent f s h e t) (φ : ShuntEntry → ShuntEntry) :
    ShuntTaken parts sent f s h (φ e) (t.onShunt h φ) := by
  refine ⟨hx.acts.update (acts_onStab t _) (by simpa using hx.stabling), fun m => ?_, hx.sidings, hx.handed, hx.stabling⟩
  change Tbl.find m (Tbl.adjust h φ t.stab.shunts) = _
  rw [Tbl.find_adjust, hx.put m]
  split <;> rfl

/-- A further operation, one that leaves the stabling block. -/
theorem ShuntTaken.next (hx : ShuntTaken parts sent f s h e t) (h' : Acts parts' sent' f' t u) (hp : parts' ⊆ parts := by simp)
    (hs : .stabling ∉ parts' := by simp) : ShuntTaken parts (sent ++ sent') (fun s => f' (f s)) s h e u :=
  ⟨hx.acts.next h' hp, by rw [h'.stab hs]; exact hx.put, by rw [h'.stab hs]; exact hx.sidings, by rw [h'.stab hs]; exact hx.handed,
    hx.stabling⟩

theorem ShuntTaken.mono (hx : ShuntTaken parts sent f s h e t) (hp : parts ⊆ parts') (hd : parts' ⊆ depotParts := by simp) :
    ShuntTaken parts' sent f s h e t :=
  { hx with acts := hx.acts.mono hp hd, stabling := hp hx.stabling }

theorem ShuntTaken.postPhase (hx : ShuntTaken parts sent f s h e t) (c : ShuntCause) :
    ShuntTaken parts sent (fun s => shuntNotice h e e.phase.code c.fields (f s)) s h e (t.postPhase h c) := by
  rw [postPhase_eq ((hx.put h).trans (if_pos rfl))]
  simpa only [List.append_nil] using hx.next (acts_posts (posts_shuntNotice h e _ c.fields) t)

/-- The taking of a claim that sends nothing. -/
theorem ShuntTaken.takenUnsent {c : Instr} (hx : ShuntTaken parts [] f (s.take c) h e t) :
    Effect parts (s.claims.erase c) f none s t ∧ Put h e s.stab.shunts t.stab.shunts ∧ t.stab.sidings = s.stab.sidings ∧
      t.stab.handed = s.stab.handed := by
  have heffect := hx.acts.afterTake
  rw [List.append_nil] at heffect
  exact ⟨heffect, hx.put, hx.sidings, hx.handed⟩

/-- What a claim on the stabling block that sends nothing leaves. -/
theorem ShuntTaken.unsent (hx : ShuntTaken parts [] f s h e t) :
    Effect parts s.claims f none s t ∧ Put h e s.stab.shunts t.stab.shunts ∧ t.stab.sidings = s.stab.sidings ∧
      t.stab.handed = s.stab.handed := by
  have heffect := hx.acts.effect
  rw [List.append_nil] at heffect
  exact ⟨heffect, hx.put, hx.sidings, hx.handed⟩

theorem sameYard_postPhase (s : State) (h : Nat) (c : ShuntCause) : SameYard s (s.postPhase h c) := by
  cases he : Tbl.find h s.stab.shunts with
  | some e =>
    rw [postPhase_eq he]
    exact (acts_posts (posts_shuntNotice h e _ _) s).sameYard
  | none =>
    unfold State.postPhase
    rw [he]
    exact (acts_none s).sameYard

/-! ## The request of the in route (R143) -/

theorem phaseOf_eq (e : ShuntEntry) : phaseOf e = e.phase.code := by
  unfold phaseOf
  cases e.phase <;> rfl

/-- An entry with no in route. -/
def ShuntEntry.noInRoute (e : ShuntEntry) : ShuntEntry := { e with inRoute := none, standing := .none }

theorem shuntTaken_noInRoute (he : Tbl.find h s.stab.shunts = some e) :
    ShuntTaken [.stabling] [] id s h e.noInRoute (s.onShunt h ShuntEntry.noInRoute) := (shuntTaken_found he).onShunt _

/-- R63, R65: an entry with the in route that a granted request gives it. -/
def ShuntEntry.granted (k : Nat) (d : RouteDef) (s : State) (e : ShuntEntry) : ShuntEntry :=
  { e with inRoute := some k, standing := if (slotTaken d s).isSome then .table else .stored }

/-- R143: what the answer to the request for the in route comes to. -/
def inRouteAnswered (h : Nat) (asked : ShuntCause) (k : Nat) : State × Granted → State × Ans
  | (t, .refused why object) => ((t.postPhase h asked).postPhase h (.refused why), .refused why object)
  | (t, .accepted slot) =>
    ((t.onShunt h (fun x => { x with inRoute := some k, standing := .table })).postPhase h asked, .accepted [.u8 slot])
  | (t, .stored pos) =>
    ((t.onShunt h (fun x => { x with inRoute := some k, standing := .stored })).postPhase h asked, .stored [.u8 pos])

theorem inRouteAnswered_granted (h : Nat) (asked : ShuntCause) (k : Nat) (d : RouteDef) (s t : State) :
    inRouteAnswered h asked k (t, requestGranted d s) =
      ((t.onShunt h (ShuntEntry.granted k d s)).postPhase h asked, requestAnswer d [.u8 (requestPlace d s)] s) := by
  unfold requestGranted requestAnswer requestPlace ShuntEntry.granted
  cases slotTaken d s <;> rfl

section

variable (he : Tbl.find h s.stab.shunts = some e)
include he

theorem requestIn_blocked (hb : (Tbl.find e.target s.stab.sidings).any SidingRec.blocked = true) (asked : ShuntCause) :
    s.requestIn h asked =
      ((s.onShunt h ShuntEntry.noInRoute).postPhase h .targetBlocked, ⟨.refused, some .unavailable, [.u8 e.target]⟩) := by
  unfold State.requestIn
  rw [he]
  exact if_pos hb

variable (hb : ¬(Tbl.find e.target s.stab.sidings).any SidingRec.blocked = true)
include hb

theorem requestIn_noRoute (hk : s.lookup .shuntIn h e.target = none) (asked : ShuntCause) : s.requestIn h asked =
    ((s.onShunt h ShuntEntry.noInRoute).postPhase h (.refused .unavailable), ⟨.refused, some .unavailable, []⟩) := by
  have hlookup : (s.onShunt h ShuntEntry.noInRoute).lookup .shuntIn h e.target = none := hk
  unfold State.requestIn
  rw [he]
  refine (if_neg hb).trans ?_
  change (match (s.onShunt h ShuntEntry.noInRoute).lookup .shuntIn h e.target with
    | none => _ | some route => _) = _
  rw [hlookup]
  rfl

variable (hk : s.lookup .shuntIn h e.target = some k)
include hk

/-- R143: with a route in the catalogue, what the route setter answers decides. -/
theorem requestIn_asks (asked : ShuntCause) : s.requestIn h asked = inRouteAnswered h asked k
    ((s.onShunt h ShuntEntry.noInRoute).requestRoute [.shuntIn] (e.routeRequest h k)) := by
  have hlookup : (s.onShunt h ShuntEntry.noInRoute).lookup .shuntIn h e.target = some k := hk
  unfold State.requestIn
  rw [he]
  refine (if_neg hb).trans ?_
  change (match (s.onShunt h ShuntEntry.noInRoute).lookup .shuntIn h e.target with
    | none => _ | some route => _) = _
  rw [hlookup]
  rfl

end

theorem inRoute_isRequested : inRouteIsRequested := by
  intro h asked e s he out t none' fails refused
  have hnone := shuntTaken_noInRoute he
  have hfails {v : State} {a : Ans} {posts : State → State} (hout : s.requestIn h asked = (v, a))
      (hv : ShuntTaken [.stabling] [] posts s h none' v) : fails posts a := by
    have ht : t = v := congrArg Prod.fst hout
    rw [← ht] at hv
    exact ⟨congrArg Prod.snd hout, hv.unsent⟩
  by_cases hb : (Tbl.find e.target s.stab.sidings).any SidingRec.blocked = true
  · rw [if_pos hb, phaseOf_eq]
    exact hfails (requestIn_blocked he hb asked) (hnone.postPhase .targetBlocked)
  rw [if_neg hb]
  cases hk : s.lookup .shuntIn h e.target with
  | none =>
    dsimp only
    rw [phaseOf_eq]
    exact hfails (requestIn_noRoute he hb hk asked) (hnone.postPhase (.refused .unavailable))
  | some k =>
    intro d hd hkind
    have hasks := requestIn_asks he hb hk asked
    have hyard : SameYard s (s.onShunt h ShuntEntry.noInRoute) := hnone.acts.sameYard
    have hdef : (s.onShunt h ShuntEntry.noInRoute).routeDef (e.routeRequest h k).route = some d := hd
    have hkinds : [RouteKind.shuntIn].contains d.kind = true := by rw [hkind]; rfl
    cases hrefusal : requestRefusal k d s with
    | some p =>
      obtain ⟨why, object⟩ := p
      rw [requestRoute_refusal hdef hkinds ((requestRefusal_sameYard hyard k d).trans hrefusal)] at hasks
      have hrefused := (hnone.postPhase asked).postPhase (.refused why)
      rw [← phaseOf_eq] at hrefused
      exact hfails hasks hrefused
    | none =>
      intro hnodup
      obtain ⟨u, hrequest, hdoes, hstands⟩ :=
        requestRoute_requested hdef hkinds ((requestRefusal_sameYard hyard k d).trans hrefusal) hnodup
      rw [hrequest, hyard.congr (φ := requestGranted d) rfl, inRouteAnswered_granted] at hasks
      have hasked := (hnone.mono (parts' := [.sections, .points, .routes, .stabling]) (by simp)).next hdoes.acts
      have hgranted := (hasked.onShunt (ShuntEntry.granted k d s)).postPhase asked
      have ht : t = _ := congrArg Prod.fst hasks
      have hafter : SameYard u t := by
        rw [ht]
        exact (acts_onStab u _).sameYard.trans (sameYard_postPhase _ h asked)
      rw [phaseOf_eq, ht]
      rw [ht] at hafter
      refine ⟨?_, hgranted.put, hgranted.sidings, hgranted.handed, congrArg Prod.snd hasks, ?_⟩
      · rw [← requestClaims_sameYard hyard, ← requestNotices_sameYard hyard hafter.symm]
        exact hgranted.acts.effect
      · rw [← requested_sameYard hyard hafter.symm]
        exact hstands

/-! ## The in route's events (R144) -/

theorem StabTaken.sidingPut {l : Tbl ShuntEntry} (hx : StabTaken parts sent f s (Function.update (sidingsOf s) n (some r)) l t) :
    Put n r s.stab.sidings t.stab.sidings := fun m => (hx.sidings m).trans (Function.update_apply _ n _ m)

theorem StabTaken.effectUnsent {σ : Nat → Option SidingRec} {l : Tbl ShuntEntry} {c : Instr}
    (hx : StabTaken parts [] f (s.take c) σ l t) : Effect parts (s.claims.erase c) f none s t := by
  simpa only [List.append_nil] using hx.acts.afterTake

theorem StabTaken.ended {σ : Nat → Option SidingRec} {l : Tbl ShuntEntry} (hx : StabTaken parts sent f s σ (Tbl.del h l) t) :
    Del h l t.stab.shunts := by
  rw [hx.shunts]
  exact del_del

theorem StabTaken.entry {σ : Nat → Option SidingRec} {l : Tbl ShuntEntry} {φ : ShuntEntry → ShuntEntry}
    (hx : StabTaken parts sent f s σ (Tbl.adjust h φ l) t) (he : Tbl.find h l = some e) : Put h (φ e) l t.stab.shunts := by
  rw [hx.shunts]
  exact put_adjust he rfl

/-- R144: an event of the in route of an entry whose tram has a record. -/
theorem exec_shuntIn (hp : ev.purpose = .shuntEntry h fleet) (he : Tbl.find h s.stab.shunts = some e) (hf : e.fleet = fleet)
    (hroute : e.inRoute = some ev.route) (hfind : s.findTram fleet = some (n, r, i, x)) :
    exec (.shuntInEvent ev) s = .next ((s.take (.shuntInEvent ev)).takeIn h e i ev.event).settle := by
  have he' : Tbl.find h (s.take (.shuntInEvent ev)).stab.shunts = some e := he
  have hfind' : (s.take (.shuntInEvent ev)).findTram fleet = some (n, r, i, x) := hfind
  change execShuntInEvent ev s = _
  unfold execShuntInEvent
  simp only [hp, shuntPurpose, he', hfind']
  exact if_pos ⟨hf, hroute⟩

/-- R76, R144: an event of no in route. -/
theorem exec_shuntIn_other (hp : ev.purpose = .shuntEntry h fleet)
    (hother : ∀ e, Tbl.find h s.stab.shunts = some e → e.fleet = fleet → e.inRoute ≠ some ev.route) :
    exec (.shuntInEvent ev) s = .next (s.take (.shuntInEvent ev)).settle := by
  have htake : (s.take (.shuntInEvent ev)).stab = s.stab := rfl
  change execShuntInEvent ev s = _
  unfold execShuntInEvent
  simp only [hp, shuntPurpose, htake]
  split
  · rename_i e n r i x he hfind
    exact if_neg fun h => hother e he h.1 h.2
  · rfl

/-- R144: an event of the in route of an entry whose tram has no record. -/
theorem exec_shuntIn_gone (hp : ev.purpose = .shuntEntry h fleet) (hfind : s.findTram fleet = none) :
    exec (.shuntInEvent ev) s = .next (s.take (.shuntInEvent ev)).settle := by
  have hfind' : (s.take (.shuntInEvent ev)).findTram fleet = none := hfind
  change execShuntInEvent ev s = _
  unfold execShuntInEvent
  simp only [hp, shuntPurpose, hfind']
  cases Tbl.find h (s.take (.shuntInEvent ev)).stab.shunts <;> rfl

theorem find_adjust_self {α : Type} {k : Nat} {a : α} {l : Tbl α} (h : Tbl.find k l = some a) (φ : α → α) :
    Tbl.find k (Tbl.adjust k φ l) = some (φ a) := (put_adjust h rfl k).trans (if_pos rfl)

theorem inRoute_events : shuntInRouteEvents := by
  intro h f i e r x ev s hp he hf hroute ⟨hfind, hr⟩ left
  have hexec := exec_shuntIn hp he hf hroute hfind
  have hentry := shuntTaken_found (s := s.take (.shuntInEvent ev)) he
  have hbegin := sidingTaken_found (s := s.take (.shuntInEvent ev)) hr
  subst hf
  refine ⟨fun hev => ?_, fun hev => ?_, fun hev => ?_, fun hev => ?_, fun hev => ?_⟩ <;> rw [hev] at hexec
  · exact ⟨_, hexec, (hentry.onShunt (fun x => { x with standing := .table })).takenUnsent⟩
  · have hentered := ((hbegin.onRecord e.fleet (fun y => { y with entered := true })).onShunt h
      (fun x => { x with phase := .inMoving })).postPhase (find_adjust_self he _) .none
    exact ⟨_, hexec, hentered.effectUnsent, hentered.entry he, hentered.sidingPut, hentered.handed⟩
  · have hended := (((hbegin.onRecord e.fleet (StackRec.stable s.minute)).posts (posts_one .stabling 1
      [.u16 e.fleet, .u8 e.target, .u8 (i + 1)])).endShunt (k := h) e (.event .complete)).report .stabled none
    exact ⟨_, hexec, hended.acts.afterTake, hended.ended, hended.sidingPut, hended.handed⟩
  · have hdropped := (hentry.onShunt ShuntEntry.noInRoute).postPhase .inCancelled
    rw [← phaseOf_eq] at hdropped
    exact ⟨_, hexec, hdropped.takenUnsent⟩
  · have hended := (((hbegin.removeRecord e.fleet (i + 1) .removed).doubt .forceReleased).endShunt (k := h) e
      (.event .forceReleased)).report .removed none
    exact ⟨_, hexec, hended.acts.afterTake, hended.ended, hended.sidingPut, hended.handed⟩

end

end Sys2Proof.Machine

/-! # A shunt's out route: its events (07 section 7.6) -/

namespace Sys2Proof.Machine

section

variable {s t u : State} {parts : List Part} {sent : List Instr} {f : State → State} {h i k n m fleet : Nat}
  {e : ShuntEntry} {r tr : SidingRec} {x : StackRec} {ev : RouteEvent} {p : Progress} {l : Tbl ShuntEntry}

/-! ## Two sidings of a taking -/

/-- A taking that has changed two sidings, to these records. -/
abbrev PairTaken (parts : List Part) (sent : List Instr) (f : State → State) (s : State) (n : Nat) (r : SidingRec) (m : Nat)
    (tr : SidingRec) (l : Tbl ShuntEntry) (t : State) : Prop :=
  StabTaken parts sent f s (Function.update (Function.update (sidingsOf s) m (some tr)) n (some r)) l t

theorem pairTaken_found (hr : Tbl.find n s.stab.sidings = some r) (htr : Tbl.find m s.stab.sidings = some tr) :
    PairTaken [.stabling] [] id s n r m tr s.stab.shunts s := by
  have htarget : Function.update (sidingsOf s) m (some tr) = sidingsOf s := Function.update_eq_self_iff.mpr htr.symm
  have hsource : Function.update (sidingsOf s) n (some r) = sidingsOf s := Function.update_eq_self_iff.mpr hr.symm
  unfold PairTaken
  rw [htarget, hsource]
  exact stabTaken_none s

theorem StabTaken.bothSidings (hx : PairTaken parts sent f s n r m tr l t) (j : Nat) : Tbl.find j t.stab.sidings =
    if j = n then some r else if j = m then some tr else Tbl.find j s.stab.sidings := by
  rw [hx.sidings, Function.update_apply, Function.update_apply]

/-! ## The move of the record (R142) -/

theorem moveRecord_none (hfind : s.findTram e.fleet = none) : s.moveRecord h e = s := by
  unfold State.moveRecord
  rw [hfind]

theorem moveRecord_still (hfind : s.findTram e.fleet = some (n, r, i, x)) (hx : n ≠ e.source ∨ x.state ≠ .leaving) :
    s.moveRecord h e = s := by
  unfold State.moveRecord
  rw [hfind]
  exact if_neg fun hmove => hx.elim (· hmove.1) (· hmove.2)

/-- R142: the record moves from the source to the target's outer end. -/
theorem pairTaken_moveRecord (hfind : s.findTram e.fleet = some (e.source, r, i, x)) (hr : Tbl.find e.source s.stab.sidings = some r)
    (hx : x.state = .leaving) (htr : Tbl.find e.target s.stab.sidings = some tr) (hne : e.target ≠ e.source) (h : Nat) :
    PairTaken [.stabling] (reports (s.moveRecord h e) .moved none) (moveNotices e i tr) s e.source (withoutRecord e.fleet r) e.target
      { tr with incoming := none, stack := tr.stack ++ [movedRecord h x] } s.stab.shunts (s.moveRecord h e) := by
  have hremoved := ((pairTaken_found hr htr).removeRecord e.fleet (i + 1) .moved).turn hne
  have htarget : Tbl.find e.target (s.removeRecord e.source e.fleet (i + 1) .moved).stab.sidings = some tr :=
    (hremoved.sidings _).trans (Function.update_self _ _ _)
  have hmoved := (((hremoved.changeSiding (fun r => r.joined (movedRecord h x))).postStack e.target e.fleet (tr.stack.length + 1)
    (some .reserved) .moved).clear .moved).report .moved none
  unfold State.moveRecord
  rw [hfind]
  dsimp only
  rw [if_pos ⟨rfl, hx⟩, htarget]
  exact hmoved.turn hne.symm

/-! ## Which events are the shunt's own (R142) -/

/-- R142: an event of a shunt's own out route, by the entry's phase. -/
def State.takeOut (h : Nat) (e : ShuntEntry) (p : Progress) (s : State) : State :=
  match e.phase with
  | .outWait => (s.findTram e.fleet).elim s (fun found => s.takeOutWait h e found.2.2.1 p)
  | .outMoving => s.takeOutMoving h e p
  | _ => s

theorem takeOut_waiting (hphase : e.phase = .outWait) (hfind : s.findTram e.fleet = some (n, r, i, x)) :
    s.takeOut h e p = s.takeOutWait h e i p := by
  unfold State.takeOut
  rw [hphase, hfind]
  rfl

theorem takeOut_moving (hphase : e.phase = .outMoving) : s.takeOut h e p = s.takeOutMoving h e p := by
  unfold State.takeOut
  rw [hphase]

theorem exec_shuntOut (hp : ev.purpose = .shuntEntry h fleet) (he : Tbl.find h s.stab.shunts = some e) (hf : e.fleet = fleet)
    (hroute : e.outRoute = ev.route) :
    exec (.shuntOutEvent ev) s = .next ((s.take (.shuntOutEvent ev)).takeOut h e ev.event).settle := by
  have he' : Tbl.find h (s.take (.shuntOutEvent ev)).stab.shunts = some e := he
  subst hf
  change execShuntOutEvent ev s = _
  unfold execShuntOutEvent State.takeOut
  simp only [hp, shuntPurpose, he']
  rw [if_neg (by simp [hroute])]
  cases e.phase with
  | outWait => cases (s.take (.shuntOutEvent ev)).findTram e.fleet <;> rfl
  | outMoving => rfl
  | inWait => rfl
  | inMoving => rfl

/-- R76, R142: an event of no out route. -/
theorem exec_shuntOut_other (hp : ev.purpose = .shuntEntry h fleet)
    (hother : ∀ e, Tbl.find h s.stab.shunts = some e → e.fleet = fleet → e.outRoute ≠ ev.route) :
    exec (.shuntOutEvent ev) s = .next (s.take (.shuntOutEvent ev)).settle := by
  have htake : (s.take (.shuntOutEvent ev)).stab = s.stab := rfl
  change execShuntOutEvent ev s = _
  unfold execShuntOutEvent
  simp only [hp, shuntPurpose, htake]
  cases he : Tbl.find h s.stab.shunts with
  | none => rfl
  | some e => exact if_pos (Decidable.or_iff_not_not_and_not.mpr fun h => hother e he (not_not.mp h.1) (not_not.mp h.2))

/-! ## Its events (R142, R145) -/

/-- R145: a shunt whose out route is force released, its record removed. -/
theorem abandonShunt_found (hfind : s.findTram e.fleet = some (n, r, i, x)) : s.abandonShunt h e =
    (((((s.removeRecord n e.fleet (i + 1) .removed).setDoubt e.source .forceReleased).clearIncoming e.target .removed).endShunt h e
      (.event .forceReleased)).report .removed none).raise (.departureAbandoned e.fleet) := by
  unfold State.abandonShunt
  rw [hfind]

theorem takeOutMoving_forceReleased : s.takeOutMoving h e .forceReleased = s.abandonShunt h e := rfl

theorem takeOutMoving_complete : s.takeOutMoving h e .complete =
    ((((s.moveRecord h e).onShunt h (fun x => { x with phase := .inWait })).postPhase h .none).requestIn h .requested).1 := rfl

theorem outRoute_events : shuntOutRouteEvents := by
  intro h f i e r tr x ev s hp he hf hroute ⟨hfind, hr⟩ htr hne left sidings
  have hexec := exec_shuntOut hp he hf hroute
  have hbegin := pairTaken_found (s := s.take (.shuntOutEvent ev)) hr htr
  subst hf
  have hfind' : (s.take (.shuntOutEvent ev)).findTram e.fleet = some (e.source, r, i, x) := hfind
  refine ⟨fun hphase hev => ?_, fun hphase hev => ?_, fun hphase hev hx => ?_, fun hphase hev => ?_⟩
  · rw [takeOut_waiting hphase hfind', hev] at hexec
    have hentered := ((((hbegin.onRecord e.fleet (fun y => { y with state := .leaving })).onShunt h
      (fun x => { x with phase := .outMoving })).postStack e.source e.fleet (i + 1) (some .leaving) .leaving).postPhase
        (find_adjust_self he _) .none).report .leaving none
    exact ⟨_, hexec, hentered.acts.afterTake, ⟨hentered.handed, hentered.bothSidings⟩, hentered.entry he⟩
  · rw [takeOut_waiting hphase hfind'] at hexec
    have hended := ((((((hbegin.onRecord e.fleet StackRec.settle).postStack e.source e.fleet (i + 1) (some .stabled) .uncalled).turn
      hne).clear .uncalled).endShunt (k := h) e (.event ev.event)).report .uncalled none).turn hne.symm
    rcases endsUnentered_cases hev with ⟨why, hev⟩ | hev | hev <;> rw [hev] at hexec hended ⊢ <;>
      exact ⟨_, hexec, hended.acts.afterTake, ⟨hended.handed, hended.bothSidings⟩, hended.ended⟩
  · rw [takeOut_moving hphase, hev] at hexec
    have hmoved := pairTaken_moveRecord hfind' hr hx htr hne h
    exact ⟨_, hexec, hmoved.acts.afterTake, ⟨hmoved.handed, hmoved.bothSidings⟩, hmoved.shunts⟩
  · rw [takeOut_moving hphase, hev, takeOutMoving_forceReleased, abandonShunt_found hfind'] at hexec
    have hended := (((((((hbegin.removeRecord e.fleet (i + 1) .removed).doubt .forceReleased).turn hne).clear .removed).endShunt (k := h)
      e (.event .forceReleased)).report .removed none).raise (.departureAbandoned e.fleet)).turn hne.symm
    refine ⟨_, hexec, ?_, ⟨hended.handed, hended.bothSidings⟩, hended.ended⟩
    have heffect := hended.acts.afterTake
    rw [List.append_assoc]
    exact heffect

/-- R126: a stacking report tells of no shunt. -/
theorem reports_onShunt (s : State) (h : Nat) (φ : ShuntEntry → ShuntEntry) (c : StackCause) (g : Option Nat) :
    reports (s.onShunt h φ) c g = reports s c g := rfl

theorem reports_postPhase (s : State) (h : Nat) (c : ShuntCause) (c' : StackCause) (g : Option Nat) :
    reports (s.postPhase h c) c' g = reports s c' g := by
  cases he : Tbl.find h s.stab.shunts with
  | some e =>
    have hposted := acts_posts (posts_shuntNotice h e e.phase.code c.fields) s
    rw [postPhase_eq he]
    exact reports_congr hposted.sameYard hposted.stab (congrArg Tbl.keys hposted.gates) c' g
  | none =>
    unfold State.postPhase
    rw [he]

/-! ## The ends of the routes (R142–R145) -/

theorem shunt_routesEnd : shuntRoutesEnd := by
  intro h f i e r other x ev s hp he hf hne
  subst hf
  refine ⟨fun hphase hroute ⟨hfind, hr⟩ hother => ?_, fun hphase hroute ⟨hfind, hr⟩ hx htr hev => ?_,
    fun hroute hfound hev => ?_, rfl⟩
  · have hexec := exec_shuntOut hp he rfl hroute
    have hfind' : (s.take (.shuntOutEvent ev)).findTram e.fleet = some (e.target, r, i, x) := hfind
    rw [takeOut_moving hphase] at hexec
    refine ⟨fun hev => ?_, fun hev => ?_⟩
    · rw [hev, takeOutMoving_complete, moveRecord_still hfind' (.inl hne)] at hexec
      exact ⟨_, hexec, (((shuntTaken_found (s := s.take (.shuntOutEvent ev)) he).onShunt (fun x =>
        { x with phase := .inWait })).postPhase .none).takenUnsent⟩
    · rw [hev, takeOutMoving_forceReleased, abandonShunt_found hfind'] at hexec
      have hbegin := pairTaken_found (s := s.take (.shuntOutEvent ev)) hr hother
      have hended := ((((((((hbegin.removeRecord e.fleet (i + 1) .removed).turn hne.symm).doubt .forceReleased).turn hne).clear
        .removed).endShunt (k := h) e (.event .forceReleased)).report .removed none).raise (.departureAbandoned e.fleet)).turn hne.symm
      refine ⟨_, hexec, ?_, hended.ended, hended.handed, hended.bothSidings⟩
      have heffect := hended.acts.afterTake
      rw [List.append_assoc]
      exact heffect
  · have hexec := exec_shuntOut hp he rfl hroute
    have hfind' : (s.take (.shuntOutEvent ev)).findTram e.fleet = some (e.source, r, i, x) := hfind
    rw [takeOut_moving hphase, hev, takeOutMoving_complete] at hexec
    have hmoved := pairTaken_moveRecord hfind' hr hx htr hne h
    have hwaits := (hmoved.onShunt h (fun x => { x with phase := .inWait })).postPhase (find_adjust_self he _) .none
    refine ⟨_, hexec, ?_, hwaits.entry he, hwaits.handed, hwaits.bothSidings⟩
    rw [reports_postPhase, reports_onShunt]
    exact hwaits.acts.afterTake
  · obtain ⟨⟨n, r', i', x'⟩, hfind⟩ := Option.ne_none_iff_exists'.mp hfound
    have hexec := exec_shuntIn hp he rfl hroute hfind
    rcases hev with hev | ⟨why, hev⟩ <;> rw [hev] at hexec ⊢ <;> exact ⟨hexec, rfl⟩

/-! ## Other events (R76, R142, R144) -/

theorem takeOutWait_other (hp : outPairing .outWait p = false) : s.takeOutWait h e i p = s := by
  unfold State.takeOutWait
  cases p with
  | firstEntered => cases hp
  | failed why => cases hp
  | expired => cases hp
  | cancelled => cases hp
  | _ => rfl

theorem takeOutMoving_other (hp : outPairing .outMoving p = false) : s.takeOutMoving h e p = s := by
  unfold State.takeOutMoving
  cases p with
  | elementReleased k => exact if_neg (of_decide_eq_false hp)
  | complete => cases hp
  | forceReleased => cases hp
  | _ => rfl

theorem takeOut_other (hp : outPairing e.phase p = false) : s.takeOut h e p = s := by
  unfold State.takeOut
  cases hphase : e.phase with
  | outWait =>
    rw [hphase] at hp
    cases s.findTram e.fleet with
    | none => rfl
    | some found => exact takeOutWait_other hp
  | outMoving =>
    rw [hphase] at hp
    exact takeOutMoving_other hp
  | inWait => rfl
  | inMoving => rfl

/-- R142: the release of element 1 with no record LEAVING on the source. -/
theorem takeOut_notLeaving (hfind : ∀ n r i x, s.findTram e.fleet = some (n, r, i, x) → n ≠ e.source ∨ x.state ≠ .leaving) :
    s.takeOut h e (.elementReleased 1) = s := by
  cases hphase : e.phase with
  | outMoving =>
    rw [takeOut_moving hphase]
    change s.moveRecord h e = s
    cases hfound : s.findTram e.fleet with
    | none => exact moveRecord_none hfound
    | some found => exact moveRecord_still hfound (hfind _ _ _ _ hfound)
  | _ => exact takeOut_other (by rw [hphase]; rfl)

theorem otherShuntEvents_changeNothing : otherShuntEventsChangeNothing := by
  intro h f ev s hp
  refine ⟨fun hout => ?_, fun hin => ?_⟩
  · by_cases hown : ∃ e, Tbl.find h s.stab.shunts = some e ∧ e.fleet = f ∧ e.outRoute = ev.route
    · obtain ⟨e, he, hf, hroute⟩ := hown
      rw [exec_shuntOut hp he hf hroute]
      subst hf
      rcases hout e he rfl hroute with hnone | ⟨hev, hstill⟩
      · rw [takeOut_other hnone]
      · rw [hev, takeOut_notLeaving (s := s.take (.shuntOutEvent ev)) hstill]
    · exact exec_shuntOut_other hp fun e he hf hroute => hown ⟨e, he, hf, hroute⟩
  · by_cases hown : ∃ e, Tbl.find h s.stab.shunts = some e ∧ e.fleet = f ∧ e.inRoute = some ev.route
    · obtain ⟨e, he, hf, hroute⟩ := hown
      obtain ⟨k, hev⟩ := hin e he hf hroute
      cases hfind : s.findTram f with
      | none => exact exec_shuntIn_gone hp hfind
      | some found =>
        rw [exec_shuntIn hp he hf hroute hfind, hev]
        rfl
    · exact exec_shuntIn_other hp fun e he hf hroute => hown ⟨e, he, hf, hroute⟩

/-- Settles O33: the events by what they find (`exec_shuntOut`, `exec_shuntIn`), the record's move (`pairTaken_moveRecord`), and the request
of the in route (`requestIn_asks`). -/
theorem shuntRouteEvents : Obligations.ShuntRouteEvents :=
  ⟨outRoute_events, inRoute_events, inRoute_isRequested, shunt_routesEnd, otherShuntEvents_changeNothing⟩

end

end Sys2Proof.Machine

/-! # Cancelling a shunt's route: the claim and SHUNT_CANCEL (05 section 5.3; 07 section 7.6) -/

namespace Sys2Proof.Machine

section

variable {s t u : State} {slot h n k : Nat} {e : RouteEntry} {d : RouteDef} {q : Req} {y : ShuntEntry} {a : Ans}

/-! ## The cancel claim (R91–R96) -/

/-- R92–R95: a cancellation of an entry in a taking that no claim began. -/
theorem entryCancelled (he : Tbl.find slot s.route.table = some e) (hd : s.routeDef e.route = some d) :
    EntryCancelled s.claims slot e d s (s.cancelEntry slot e).1 (s.cancelEntry slot e).2 := by
  rw [cancelEntry_eq hd]
  unfold EntryCancelled
  dsimp only
  by_cases hleaves : e.state = .setting ∨ (e.state = .proceed ∧ d.approach.any (fun x => !s.isClear x) = false)
  · rw [if_pos hleaves, if_pos hleaves]
    exact ⟨rfl, _, entryLeaves hd (posts_cancelNotice (some slot) e.route e.owner e.purpose 1), releaseEntry_eq _ _ _ _ _⟩
  rw [if_neg hleaves, if_neg hleaves]
  by_cases hproceed : e.state = .proceed
  · rw [if_pos hproceed, if_pos hproceed]
    obtain ⟨hdoes, hput⟩ := entryShown_spec he (RouteEntry.awaitRelease s.param.timeRelease)
    exact ⟨rfl, hdoes.unsent, hput⟩
  · rw [if_neg hproceed, if_neg hproceed]
    exact ⟨rfl, effect_none s []⟩

/-- R92: a stored request that leaves in a taking that no claim began. -/
theorem storedLeaves (q : StoreEntry) (d : RouteDef) (m : CancelMode) (s : State) :
    StoredLeaves s.claims q d m.code s (s.leaveStore q d .cancelled (cancelNotice none q.route q.owner q.purpose m.code)) := by
  obtain ⟨hdoes, hroute⟩ := leaveStore_spec q d .cancelled (posts_cancelNotice none q.route q.owner q.purpose m.code) s
  exact ⟨hdoes.effect, hroute⟩

theorem cancelClaim_onAShuntRoute : cancelClaimOnAShuntRoute := by
  intro k d s hd out refused
  refine ⟨fun slot e hactive he hk => ?_, fun hactive => ?_⟩
  · subst hk
    have hout : out = if isShunt e.purpose then s.cancelEntry slot e else (s, .refused .notPermitted) := cancelRoute_inTable hactive
    cases hp : e.purpose with
    | shuntEntry h f =>
      rw [hp] at hout
      rw [show out = s.cancelEntry slot e from hout]
      exact entryCancelled he hd
    | _ =>
      rw [hp] at hout
      exact hout
  · cases hstored : s.stored k with
    | none => exact cancelRoute_nowhere hactive hstored
    | some e =>
      have hout : out = if isShunt e.purpose then (s.releaseStored e .cancel, .done) else (s, .refused .notPermitted) :=
        cancelRoute_inStore hactive hstored
      have hdef : s.routeDef e.route = some d := by
        rw [stored_route hstored]
        exact hd
      dsimp only
      cases hp : e.purpose with
      | shuntEntry h f =>
        rw [hp] at hout
        rw [show out = (s.releaseStored e .cancel, .done) from hout]
        exact ⟨rfl, _, storedLeaves e d .cancel s, releaseStored_eq hdef .cancel⟩
      | _ =>
        rw [hp] at hout
        exact hout

/-! ## SHUNT_CANCEL (R146) -/

theorem exec_shuntCancel (hport : q.port = .desk ∨ q.port = .planner) (ho : InRun q s)
    (hx : takeShuntCancel q.port h (s.take (.shuntCancel q h)) = (u, a)) :
    exec (.shuntCancel q h) s = .next (u.reply .shuntCancel q a).settle := by
  have hexec := takeRequest_run (k := .shuntCancel) (i := .shuntCancel q h) (by rcases hport with h | h <;> rw [h] <;> rfl) rfl rfl ho rfl
    (takeShuntCancel q.port h)
  rw [hx] at hexec
  exact hexec

theorem shunt_cancel : shuntCancel := by
  intro q h s hport ho c answers refused
  have hanswers {v : State} {a : Ans} (hx : takeShuntCancel q.port h (s.take c) = (v, a)) : answers v a :=
    ⟨_, exec_shuntCancel hport ho hx, effect_replyAlone v .shuntCancel q a⟩
  cases he : Tbl.find h s.stab.shunts with
  | none =>
    refine hanswers ?_
    unfold takeShuntCancel
    rw [show Tbl.find h (s.take c).stab.shunts = none from he]
    rfl
  | some e =>
    have htake : takeShuntCancel q.port h (s.take c) = if q.port = .planner ∧ e.owner = .desk then (s.take c, .refused .notPermitted)
        else if e.phase ≠ .outWait then (s.take c, .refused .wrongState [.u8 e.phase.code])
        else (s.take c).cancelShuntRoute e.outRoute := by
      unfold takeShuntCancel
      rw [show Tbl.find h (s.take c).stab.shunts = some e from he]
    rw [← phaseOf_eq] at htake
    dsimp only
    by_cases howner : q.port = .planner ∧ e.owner = .desk
    · rw [if_pos howner] at htake ⊢
      exact hanswers htake
    rw [if_neg howner] at htake ⊢
    by_cases hphase : e.phase ≠ .outWait
    · rw [if_pos hphase] at htake ⊢
      exact hanswers htake
    rw [if_neg hphase] at htake ⊢
    exact hanswers htake

/-! ## What a cancellation touches (R73, R74, R92–R95) -/

theorem touches_failStored (q : StoreEntry) (d : RouteDef) (o : YardObject) (s : State) : Touches yardParts s (s.failStored q d o) :=
  (does_failStored q d o s).inYard.acts.touches

theorem touches_scanOne (kept : List StoreEntry) (q : StoreEntry) (s : State) : Touches yardParts s (s.scanOne kept q).1 := by
  unfold State.scanOne
  split
  · exact touches_none s _
  · rename_i d hd
    split
    · exact touches_failStored q d _ s
    · split
      · rename_i slot hav hslot
        have htake := touches_takeInto slot q.request d s
        split
        · rename_i v hv
          rw [hv] at htake
          exact htake
        · rename_i v m hv
          rw [hv] at htake
          split
          · exact htake.next (touches_failStored q d _ v)
          · exact htake
      · exact touches_none s _

theorem touches_scanFrom (l kept : List StoreEntry) (s : State) : Touches yardParts s (State.scanFrom kept l s) := by
  induction l generalizing kept s with
  | nil => exact (does_onRoute s _).inYard.acts.touches
  | cons q l ih =>
    have hone := touches_scanOne kept q s
    unfold State.scanFrom
    split
    · rename_i v hv
      rw [hv] at hone
      exact hone.next (ih _ v)
    · rename_i v hv
      rw [hv] at hone
      exact hone.next (ih _ v)

/-- R73: a scan of the store is between the route setter, the sections and the points. -/
theorem touches_scan (s : State) : Touches yardParts s s.scan := touches_scanFrom _ [] s

theorem touches_removeEntry (slot : Nat) (e : RouteEntry) (s : State) : Touches yardParts s (s.removeEntry slot e) := by
  have hsections : Touches yardParts s (s.unreserve slot (((s.routeDef e.route).map RouteDef.sections).getD [])) :=
    (does_unreserve s slot _).inYard.acts.touches
  have hpoints := hsections.next (unlockAll_spec slot (((s.routeDef e.route).map RouteDef.points).getD [] |>.map Prod.fst) _).1.acts.touches
  exact hpoints.next (does_onRoute _ (fun r => { r with table := Tbl.del slot r.table })).acts.touches

theorem touches_releaseEntry (slot : Nat) (e : RouteEntry) (p : Progress) (m : CancelMode) (s : State) :
    Touches yardParts s (s.releaseEntry slot e p m) := by
  have hsent := (touches_removeEntry slot e s).next (does_sendEvent _ (e.event slot p)).acts.touches
  have hshown := hsent.next (does_postEntry _ slot e 6).acts.touches
  exact (hshown.next (acts_posts (posts_cancelNotice (some slot) e.route e.owner e.purpose m.code) _).touches).next (touches_scan _)

theorem touches_releaseStored (q : StoreEntry) (m : CancelMode) (s : State) : Touches yardParts s (s.releaseStored q m) := by
  have hleaves : Touches yardParts s (s.unstore q.route) := (does_onRoute s _).inYard.acts.touches
  have hsent := hleaves.next (does_sendEvent _ (q.event (((s.routeDef q.route).map RouteDef.kind).getD .yard) .cancelled)).acts.touches
  exact (hsent.next (acts_posts (posts_cancelNotice none q.route q.owner q.purpose m.code) _).touches).next (touches_scan _)

theorem touches_cancelEntry (slot : Nat) (e : RouteEntry) (s : State) : Touches yardParts s (s.cancelEntry slot e).1 := by
  unfold State.cancelEntry
  split
  · exact touches_releaseEntry slot e _ _ s
  · exact touches_none s _
  · exact touches_none s _
  · exact touches_none s _
  · dsimp only
    split
    · exact Touches.next (does_onEntry s slot _).inYard.acts.touches (touches_postSlot slot _)
    · exact touches_releaseEntry slot e _ _ s

/-- R91–R96: a cancel claim leaves the stabling block. -/
theorem touches_cancelShuntRoute (k : Nat) (s : State) : Touches yardParts s (s.cancelShuntRoute k).1 := by
  unfold State.cancelShuntRoute State.cancelRoute
  split
  · split
    · exact touches_cancelEntry _ _ s
    · exact touches_none s _
  · split
    · exact touches_releaseStored _ _ s
    · exact touches_none s _
  · exact touches_none s _

end

end Sys2Proof.Machine

/-! # SHUNT_RETARGET (07 section 7.6) -/

namespace Sys2Proof.Machine

section

variable {s u v w : State} {h t n i k : Nat} {e : ShuntEntry} {r tr : SidingRec} {x : StackRec} {q : Req} {a : Ans}

/-! ## The record moves to a new target (R146) -/

/-- R146: an entry with a new target and no in route. -/
def ShuntEntry.towards (t : Nat) (e : ShuntEntry) : ShuntEntry := { e with target := t, inRoute := none, standing := .none }

/-- R146: the record moves, and the in route is requested on the state that the move leaves; `s` is a state with the same roster. -/
theorem moveTarget_moves (hfind : v.findTram e.fleet = some (n, r, i, x)) (hr : Tbl.find n v.stab.sidings = some r)
    (htr : Tbl.find t v.stab.sidings = some tr) (hne : t ≠ n) (hroster : v.roster = s.roster) (h : Nat) :
    ∃ m, v.moveTarget h t e = ((m.requestIn h .requested).1, doneWith (m.requestIn h .requested).2) ∧
      PairTaken [.stabling] (reports m .moved none)
        (fun a => inversionNotice e.fleet t tr s (stackNotice t e.fleet (tr.stack.length + 1) 1 8 (stackNotice n e.fleet (i + 1) 5 8 a))) v
        t (tr.joined x) n (withoutRecord e.fleet r) (Tbl.adjust h (ShuntEntry.towards t) v.stab.shunts) m := by
  have hremoved := ((pairTaken_found hr htr).removeRecord e.fleet (i + 1) .moved).turn hne
  have hmoved := ((hremoved.changeSiding (fun r => r.joined x)).postStack t e.fleet (tr.stack.length + 1) (some .reserved)
    .moved).onShunt h (ShuntEntry.towards t)
  have hnoted := noteInversion_eq (hmoved.acts.roster.trans hroster) e.fleet t tr
  have hreported := (hmoved.posts (posts_inversionNotice e.fleet t tr s)).report .moved none
  rw [← hnoted] at hreported
  refine ⟨_, ?_, hreported⟩
  unfold State.moveTarget
  rw [hfind]
  dsimp only
  rw [htr, Option.bind_some]
  rfl

/-! ## The decision (R146) -/

/-- R146: a retarget once the stored in route is withdrawn, by the cancel claim's answer. -/
def retargetWithdrawn (h t : Nat) (e : ShuntEntry) : State × Ans → State × Ans
  | (v, ⟨.done, _, _⟩) => v.moveTarget h t e
  | (v, ⟨.refused, why, results⟩) => (v, ⟨.refused, why, results⟩)
  | (v, _) => (v, .refused .inUse)

section

variable (htr : Tbl.find t s.stab.sidings = some tr) (he : Tbl.find h s.stab.shunts = some e)
include htr he

theorem takeRetarget_wrongPhase (hphase : e.phase ≠ .inWait) :
    takeRetarget h t s = (s, ⟨.refused, some .wrongState, [.u8 (phaseOf e)]⟩) := by
  unfold takeRetarget
  rw [htr, he, phaseOf_eq]
  exact if_pos hphase

variable (hphase : ¬e.phase ≠ .inWait)
include hphase

theorem takeRetarget_inTable (htable : e.standing = .table) : takeRetarget h t s = (s, ⟨.refused, some .inUse, []⟩) := by
  unfold takeRetarget
  rw [htr, he]
  exact (if_neg hphase).trans (if_pos htable)

variable (htable : ¬e.standing = .table)
include htable

theorem takeRetarget_toSource (hsource : t = e.source) : takeRetarget h t s = (s, ⟨.refused, some .badArgument, []⟩) := by
  unfold takeRetarget
  rw [htr, he]
  exact ((if_neg hphase).trans (if_neg htable)).trans (if_pos hsource)

variable (hsource : ¬t = e.source) (hfind : s.findTram e.fleet = some (n, r, i, x))
include hsource hfind

theorem takeRetarget_badTarget (ha : s.targetRefusal t x.length x.mandatory (some e.fleet) = some a) :
    takeRetarget h t s = (s, a) := by
  unfold takeRetarget
  rw [htr, he]
  refine ((if_neg hphase).trans (if_neg htable)).trans ((if_neg hsource).trans ?_)
  rw [hfind]
  dsimp only
  rw [ha]

variable (htarget : s.targetRefusal t x.length x.mandatory (some e.fleet) = none)
include htarget

theorem takeRetarget_noRoute (hroute : (s.lookup .shuntIn h t).isNone) :
    takeRetarget h t s = (s, ⟨.refused, some .unavailable, []⟩) := by
  unfold takeRetarget
  rw [htr, he]
  refine ((if_neg hphase).trans (if_neg htable)).trans ((if_neg hsource).trans ?_)
  rw [hfind]
  dsimp only
  rw [htarget]
  exact if_pos hroute

variable (hroute : ¬(s.lookup .shuntIn h t).isNone)
include hroute

/-- R146: a target that passes: nothing to do, the in route requested again, or the record moves. -/
theorem takeRetarget_passes : takeRetarget h t s =
    if t = e.target then
      if e.standing = .stored then (s, ⟨.done, none, []⟩) else ((s.requestIn h .requested).1, doneWith (s.requestIn h .requested).2)
    else if e.standing = .stored then e.inRoute.elim (s.moveTarget h t e) (fun k => retargetWithdrawn h t e (s.cancelShuntRoute k))
    else s.moveTarget h t e := by
  unfold takeRetarget
  rw [htr, he]
  refine ((if_neg hphase).trans (if_neg htable)).trans ((if_neg hsource).trans ?_)
  rw [hfind]
  dsimp only
  rw [htarget]
  refine (if_neg hroute).trans ?_
  by_cases hsame : t = e.target
  · rw [if_pos hsame, if_pos hsame]
    rfl
  · rw [if_neg hsame, if_neg hsame]
    cases e.standing <;> cases e.inRoute <;> rfl

end

/-! ## SHUNT_RETARGET (R146) -/

theorem filter_notOwn_some (l : List StackRec) (f : Nat) :
    l.filter (fun y => some f ≠ some y.fleet) = l.filter (fun y => y.fleet ≠ f) := by
  refine List.filter_congr fun y _ => ?_
  simp only [ne_eq, Option.some.injEq, eq_comm]

theorem exec_shuntRetarget (hport : q.port = .desk) (ho : InRun q s)
    (hx : takeRetarget h t (s.take (.shuntRetarget q h t)) = (u, a)) :
    exec (.shuntRetarget q h t) s = .next (u.reply .shuntRetarget q a).settle := by
  have hexec := takeRequest_run (k := .shuntRetarget) (i := .shuntRetarget q h t) (by rw [hport]; rfl) rfl rfl ho rfl (takeRetarget h t)
  rw [hx] at hexec
  exact hexec

theorem shunt_retarget : shuntRetarget := by
  intro q h t n i e r tr x s hport ho _ htr he c answers refused
  have hanswers {v : State} {a : Ans} (hx : takeRetarget h t (s.take c) = (v, a)) : answers v a :=
    ⟨_, exec_shuntRetarget hport ho hx, effect_replyAlone v .shuntRetarget q a⟩
  have htr' : Tbl.find t (s.take c).stab.sidings = some tr := htr
  have he' : Tbl.find h (s.take c).stab.shunts = some e := he
  by_cases hphase : e.phase ≠ .inWait
  · rw [if_pos hphase]
    exact hanswers (takeRetarget_wrongPhase htr' he' hphase)
  rw [if_neg hphase]
  by_cases htable : e.standing = .table
  · rw [if_pos htable]
    exact hanswers (takeRetarget_inTable htr' he' hphase htable)
  rw [if_neg htable]
  rintro ⟨hfind, hr⟩ others
  have hfind' : (s.take c).findTram e.fleet = some (n, r, i, x) := hfind
  by_cases hsource : t = e.source
  · rw [if_pos hsource]
    exact hanswers (takeRetarget_toSource htr' he' hphase htable hsource)
  rw [if_neg hsource]
  refine targetRefusal_decides htr' (filter_notOwn_some tr.stack e.fleet)
    (fun ha => hanswers (takeRetarget_badTarget htr' he' hphase htable hsource hfind' ha)) fun htarget => ?_
  by_cases hroute : (s.lookup .shuntIn h t).isNone = true
  · rw [if_pos hroute]
    exact hanswers (takeRetarget_noRoute htr' he' hphase htable hsource hfind' htarget hroute)
  rw [if_neg hroute]
  have hpasses := takeRetarget_passes htr' he' hphase htable hsource hfind' htarget hroute
  by_cases hsame : t = e.target
  · rw [if_pos hsame] at hpasses ⊢
    by_cases hstored : e.standing = .stored
    · rw [if_pos hstored] at hpasses ⊢
      exact hanswers hpasses
    · rw [if_neg hstored] at hpasses ⊢
      exact hanswers hpasses
  rw [if_neg hsame] at hpasses ⊢
  intro moves
  have hmoves {v : State} (hv : takeRetarget h t (s.take c) = v.moveTarget h t e) (hstab : v.stab = s.stab)
      (hroster : v.roster = s.roster) : moves v := by
    intro hne
    obtain ⟨m, hmove, htaken⟩ := moveTarget_moves (v := v) (h := h) (by rw [findTram_eq, hstab]; exact hfind) (by rw [hstab]; exact hr)
      (by rw [hstab]; exact htr) hne hroster
    refine ⟨m, htaken.acts.effect, ?_, ?_, ?_, hanswers (hv.trans hmove)⟩
    · have hentry := htaken.entry (by rw [hstab]; exact he)
      rw [hstab] at hentry
      exact hentry
    · rw [htaken.handed, hstab]
    · have hsidings := htaken.bothSidings
      rw [hstab] at hsidings
      exact hsidings
  by_cases hstored : e.standing = .stored
  · rw [if_pos hstored] at hpasses
    rw [hstored]
    cases hin : e.inRoute with
    | none =>
      rw [hin] at hpasses
      exact hmoves hpasses rfl rfl
    | some k =>
      rw [hin, Option.elim_some] at hpasses
      have hleft := touches_cancelShuntRoute k (s.take c)
      dsimp only
      generalize (s.take c).cancelShuntRoute k = withdrawn at hpasses hleft ⊢
      obtain ⟨v, status, why, results⟩ := withdrawn
      obtain ⟨_, _, hacts⟩ := hleft
      cases status with
      | done => exact hmoves hpasses hacts.stab hacts.roster
      | refused => exact hanswers hpasses
      | _ => exact hanswers hpasses
  · rw [if_neg hstored] at hpasses
    have hmoved := hmoves hpasses rfl rfl
    cases hstanding : e.standing with
    | stored => exact absurd hstanding hstored
    | none => exact hmoved
    | table => exact hmoved

/-- Settles O32: the cancel claim by where the route stands, the requests by what their decision comes to (`takeRetarget_passes`), and
the record's move (`moveTarget_moves`). -/
theorem shuntRequests : Obligations.ShuntRequests := ⟨cancelClaim_onAShuntRoute, shunt_cancel, shunt_retarget⟩

end

end Sys2Proof.Machine

/-! # What the operations of the roster block's taking do (08)

A taking of the roster block changes its own state beside what it claims of the other blocks. `RosterTaken` carries through it what `Acts`
says of the others, and the roster block as it stands; the clock, which stamps the notices (R150), is CLOCK_SET's and the minute timer's
alone to change. -/

namespace Sys2Proof.Machine

/-- A taking up to a state `t`, with the roster block `ρ` as it stands there and the clock as it was. -/
structure RosterTaken (parts : List Part) (sent : List Instr) (f : State → State) (s : State) (ρ : Roster) (t : State) : Prop where
  effect : Effect parts (s.claims ++ sent) f none s t
  notices : Posts f
  roster : t.roster = ρ
  clock : ρ.clock = s.roster.clock
  rosterPart : .roster ∈ parts
  noPorts : .ports ∉ parts

section

variable {s t u : State} {parts parts' : List Part} {sent sent' claims claims' : List Instr} {f f' : State → State} {ρ : Roster}
  {n : Nat} {e d : Duty} {a : Ans} {q : Req} {c : Instr}

/-! ## Effects under one clock -/

/-- A taking's further operations, from where it stands, the clock being as it was. -/
theorem effect_thenAtMinute (h : Effect parts claims f none s t) (h' : Effect parts claims' f' none t u) (hf : Posts f)
    (hf' : Posts f') (hm : t.minute = s.minute) (hp : .ports ∉ parts) : Effect parts claims' (fun s => f' (f s)) none s u := by
  obtain ⟨hk, -, hn, ha⟩ := h
  obtain ⟨hk', hc', hn', ha'⟩ := h'
  obtain ⟨hms, hss⟩ := hf.keepsStamp s
  have hsub (p : Port) : (t.port p).subscription = ((f s).port p).subscription :=
    show (t.port p).aside.subscription = _ by rw [hk.2.2 .ports hp p]; exact (hss p).symm
  have hnotes := hf'.notes_congr (hm.trans hms.symm) hsub hn
  refine ⟨hk.trans hk', hc', fun p => ?_, fun p => ?_⟩
  · exact ⟨(hn' p).1.trans (hnotes p).1, (hn' p).2.trans (hnotes p).2⟩
  · exact ⟨(ha' p).1.trans (ha p).1, (ha' p).2.trans (ha p).2⟩

theorem effect_onRoster (s : State) (φ : Roster → Roster) : Effect [.roster] s.claims id none s (s.onRoster φ) := by
  refine effect_next (effect_none s _) ⟨rfl, rfl, fun x hx => ?_⟩ (port_onRoster s · φ) rfl
  cases x with
  | roster => exact absurd List.mem_cons_self hx
  | _ => simp [Part.same]

/-! ## The roster block's taking, one operation after another -/

theorem rosterTaken_none (s : State) : RosterTaken [.roster] [] id s s.roster s :=
  ⟨by simpa using effect_none s _, .none, rfl, rfl, by simp, by simp⟩

theorem RosterTaken.minute (h : RosterTaken parts sent f s ρ t) : t.minute = s.minute := (congrArg Roster.clock h.roster).trans h.clock

theorem RosterTaken.mono (h : RosterTaken parts sent f s ρ t) (hp : parts ⊆ parts') (hq : .ports ∉ parts' := by simp) :
    RosterTaken parts' sent f s ρ t :=
  { h with effect := ⟨h.effect.1.mono hp, h.effect.2⟩, rosterPart := hp h.rosterPart, noPorts := hq }

/-- A further operation, one of the other blocks. -/
theorem RosterTaken.next (h : RosterTaken parts sent f s ρ t) (h' : Acts parts' sent' f' t u) (hp : parts' ⊆ parts := by simp) :
    RosterTaken parts (sent ++ sent') (fun s => f' (f s)) s ρ u := by
  refine { h with effect := ?_, notices := h.notices.comp h'.notices, roster := h'.roster.trans h.roster }
  obtain ⟨hk, hc, hrest⟩ := h'.effect
  rw [h.effect.2.1, List.append_assoc] at hc
  exact effect_thenAtMinute h.effect ⟨hk.mono hp, hc, hrest⟩ h.notices h'.notices h.minute h.noPorts

/-- Notices posted next. -/
theorem RosterTaken.posts (h : RosterTaken parts sent f s ρ t) (hf : Posts f') :
    RosterTaken parts sent (fun s => f' (f s)) s ρ (f' t) := by
  simpa only [List.append_nil] using h.next (acts_posts hf t)

theorem RosterTaken.post (h : RosterTaken parts sent f s ρ t) (g : Group) (k : Nat) (fs : List Field) :
    RosterTaken parts sent (fun s => (f s).post g k fs) s ρ (t.post g k fs) := h.posts (posts_one g k fs)

theorem RosterTaken.send (h : RosterTaken parts sent f s ρ t) (c : Instr) : RosterTaken parts (sent ++ [c]) f s ρ (t.send c) :=
  h.next (acts_send t c)

/-- A further taking of the roster block, from where it stands. -/
theorem RosterTaken.then {ρ' : Roster} (h : RosterTaken parts sent f s ρ t) (h' : RosterTaken parts' sent' f' t ρ' u)
    (hp : parts' ⊆ parts := by simp) : RosterTaken parts (sent ++ sent') (fun s => f' (f s)) s ρ' u := by
  refine { h with effect := ?_, notices := h.notices.comp h'.notices, roster := h'.roster, clock := ?_ }
  · obtain ⟨hk, hc, hrest⟩ := h'.effect
    rw [h.effect.2.1, List.append_assoc] at hc
    exact effect_thenAtMinute h.effect ⟨hk.mono hp, hc, hrest⟩ h.notices h'.notices h.minute h.noPorts
  · exact h'.clock.trans (congrArg Roster.clock h.roster |>.trans h.clock)

/-- A change of the roster block that leaves the clock. -/
theorem RosterTaken.onRoster (h : RosterTaken parts sent f s ρ t) (φ : Roster → Roster) (hφ : (φ ρ).clock = ρ.clock := by rfl) :
    RosterTaken parts sent f s (φ ρ) (t.onRoster φ) := by
  refine { h with effect := ?_, roster := congrArg φ h.roster, clock := hφ.trans h.clock }
  have hchange := effect_onRoster t φ
  rw [h.effect.2.1] at hchange
  exact effect_thenAtMinute (f' := id) h.effect ⟨hchange.1.mono (by simpa using h.rosterPart), hchange.2⟩ h.notices .none
    h.minute h.noPorts

/-- A change of the entries. -/
theorem RosterTaken.onDuties (h : RosterTaken parts sent f s ρ t) (φ : List Duty → List Duty) :
    RosterTaken parts sent f s { ρ with duties := φ ρ.duties } (t.onRoster (fun r => { r with duties := φ r.duties })) :=
  h.onRoster (fun r => { r with duties := φ r.duties })

theorem RosterTaken.onDuty (h : RosterTaken parts sent f s ρ t) (n : Nat) (φ : Duty → Duty) :
    RosterTaken parts sent f s { ρ with duties := ρ.duties.map (fun d => if d.duty = n then φ d else d) } (t.onDuty n φ) :=
  h.onDuties (List.map (fun d => if d.duty = n then φ d else d))

theorem RosterTaken.dropDuty (h : RosterTaken parts sent f s ρ t) (n : Nat) :
    RosterTaken parts sent f s { ρ with duties := ρ.duties.filter (fun d => d.duty ≠ n) } (t.dropDuty n) :=
  h.onDuties (List.filter (fun d => d.duty ≠ n))

/-! ## What a taking comes to -/

/-- What a taking changes, beginning with a claim that leaves those in flight. -/
theorem effect_ofTake (h : Effect parts claims f none (s.take c) t) (hf : Posts f) (hp : .ports ∉ parts) :
    Effect parts claims f none s t := effect_thenAtMinute (effect_take s c parts) h .none hf rfl hp

theorem RosterTaken.afterTake (h : RosterTaken parts sent f (s.take c) ρ t) : Effect parts (s.claims.erase c ++ sent) f none s t :=
  effect_ofTake h.effect h.notices h.noPorts

/-- The taking of a claim that sends nothing. -/
theorem RosterTaken.takenUnsent (h : RosterTaken parts [] f (s.take c) ρ t) :
    Effect parts (s.claims.erase c) f none s t ∧ t.roster = ρ := by
  have heffect := h.afterTake
  rw [List.append_nil] at heffect
  exact ⟨heffect, h.roster⟩

/-- What sends nothing leaves the claims in flight. -/
theorem RosterTaken.unsent (h : RosterTaken parts [] f s ρ t) : Effect parts s.claims f none s t ∧ t.roster = ρ := by
  have heffect := h.effect
  rw [List.append_nil] at heffect
  exact ⟨heffect, h.roster⟩

/-- The taking of a request that sends nothing, answered. -/
theorem RosterTaken.replied (h : RosterTaken parts [] f (s.take c) ρ t) (k : Kind) (q : Req) (a : Ans) :
    Effect parts (s.claims.erase c) f (some (k, q, a)) s (t.reply k q a) ∧ (t.reply k q a).roster = ρ :=
  ⟨effect_reply k q a h.takenUnsent.1, by rw [State.reply_roster]; exact h.roster⟩

/-! ## Notices (R164) -/

theorem posts_postRoster (d : Duty) (cause : RosterCause) : Posts (State.postRoster d cause) := posts_one _ _ _

theorem postRoster_planned (hd : d.departure = none) (cause : RosterCause) (s : State) : s.postRoster d cause =
    s.post .roster 2 [.u16 d.duty, .u16 d.due, .u8 d.gate, .u16 (d.fleet.getD 65535), .u8 1, .u8 cause.code] := by
  unfold State.postRoster Duty.stateField Duty.isCalled
  rw [hd]
  rfl

theorem postRoster_called {x : Departure} (hd : d.departure = some x) (cause : RosterCause) (s : State) : s.postRoster d cause =
    s.post .roster 2 [.u16 d.duty, .u16 d.due, .u8 d.gate, .u16 (d.fleet.getD 65535), .u8 2, .u8 cause.code] := by
  unfold State.postRoster Duty.stateField Duty.isCalled
  rw [hd]
  rfl

/-! ## The entry of a duty -/

theorem duty_number (h : s.duty n = some e) : e.duty = n := by simpa using List.find?_some h

/-- Two changes of the entry of one duty, one after the other. -/
theorem map_ofDuty_map {φ ψ : Duty → Duty} (hφ : ∀ y, (φ y).duty = y.duty) (n : Nat) (l : List Duty) :
    (l.map (fun y => if y.duty = n then φ y else y)).map (fun y => if y.duty = n then ψ y else y) =
      l.map (fun y => if y.duty = n then ψ (φ y) else y) := by
  rw [List.map_map]
  refine List.map_congr_left fun y _ => ?_
  by_cases hy : y.duty = n <;> simp [hy, hφ]

theorem map_ofDuty_same {φ : Duty → Duty} (hφ : ∀ y, φ y = y) (n : Nat) (l : List Duty) :
    l.map (fun y => if y.duty = n then φ y else y) = l := by simp [hφ]

theorem duty_onDuty {φ : Duty → Duty} (hφ : ∀ y, (φ y).duty = y.duty) (h : s.duty n = some e) :
    (s.onDuty n φ).duty n = some (φ e) := by
  have hnumber : ((fun y : Duty => decide (y.duty = n)) ∘ fun y => if y.duty = n then φ y else y) = fun y => decide (y.duty = n) := by
    funext y
    by_cases hy : y.duty = n <;> simp [hy, hφ]
  have hfound : (s.onDuty n φ).duty n =
      (s.roster.duties.map (fun y => if y.duty = n then φ y else y)).find? (fun y => y.duty = n) := rfl
  have he : s.roster.duties.find? (fun y => y.duty = n) = some e := h
  rw [hfound, List.find?_map, hnumber, he, Option.map_some, if_pos (duty_number h)]

end

end Sys2Proof.Machine

/-! # Progress events on a departure record (08 section 8.5) -/

namespace Sys2Proof.Machine

section

variable {s : State} {n g fleet : Nat} {e : Duty} {d : Departure} {ev : RouteEvent} {cause : RosterCause}

/-! ## What an event makes of a departure record (R158, R159) -/

/-- R159: how a departure record ends after entry. -/
def Departure.endCause (d : Departure) (ev : RouteEvent) : Option RosterCause :=
  if d.progress = .called then none
  else match ev.event with | .complete => some .departed | .forceReleased => some .abandoned | _ => none

/-- R158: whether the event ends a departure record before entry. -/
def Departure.expires (d : Departure) (ev : RouteEvent) : Bool :=
  d.progress = .called && match ev.event with | .failed _ | .expired | .cancelled => true | _ => false

/-- R158: a departure record that goes on. -/
def Departure.now (d : Departure) (ev : RouteEvent) : Departure :=
  if d.progress = .called ∧ ev.event = .proceed then { d with slot := ev.slot }
  else if d.progress = .called ∧ ev.event = .firstEntered then { d with slot := ev.slot, progress := .entered }
  else if d.progress = .entered ∧ ev.event = .elementReleased 1 then { d with progress := .pastMouth }
  else d

theorem follow_eq (d : Departure) (ev : RouteEvent) : d.follow ev =
    match d.endCause ev with
    | some cause => .ended cause
    | none => if d.expires ev then .expired else .goesOn (d.now ev) := by
  obtain ⟨_, _, _, _, _, _, progress⟩ := d
  obtain ⟨event, _, _, _, _, _, _⟩ := ev
  unfold Departure.follow Departure.endCause Departure.expires Departure.now
  cases progress with
  | called => cases event <;> rfl
  | entered =>
    cases event with
    | elementReleased k => by_cases hk : k = 1 <;> simp [hk]
    | _ => rfl
  | pastMouth => cases event <;> rfl

/-- A record that an event ends after entry does not expire. -/
theorem expires_of_endCause (h : d.endCause ev = some cause) : d.expires ev = false := by
  unfold Departure.endCause at h
  unfold Departure.expires
  split_ifs at h with hcalled
  simp [hcalled]

/-- R158, R165: an entry PLANNED again, a selection's binding undone. -/
def Duty.planAgain (e : Duty) : Duty := { e with departure := none, fleet := if e.bound then none else e.fleet, bound := false }

theorem unbind_planAgain (e : Duty) : { e.unbind with departure := none } = e.planAgain := by
  unfold Duty.unbind Duty.planAgain
  cases hb : e.bound
  · simp [hb]
  · simp

/-! ## What follows on the roster and on the fleet departure list (R158, R159) -/

theorem followDuty_ended (h : d.endCause ev = some cause) (hd : e.departure = some d) : s.followDuty e d ev =
    (s.dropDuty e.duty).post .roster 2
      [.u16 e.duty, .u16 e.due, .u8 e.gate, .u16 (e.fleet.getD 65535), .u8 2, .u8 cause.code] := by
  unfold State.followDuty
  rw [follow_eq, h]
  exact postRoster_called hd cause _

theorem followFleet_ended (h : d.endCause ev = some cause) : s.followFleet d ev =
    s.onRoster (fun r => { r with fleetDepartures := r.fleetDepartures.filter (fun x => x.fleet ≠ d.fleet) }) := by
  unfold State.followFleet
  rw [follow_eq, h]

section

variable (h : d.endCause ev = none)
include h

theorem followDuty_expired (hexp : d.expires ev = true) : s.followDuty e d ev =
    (s.onDuty e.duty Duty.planAgain).post .roster 5 [.u16 e.duty, .u16 d.fleet, .u8 ev.event.code] := by
  unfold State.followDuty
  rw [follow_eq, h]
  simp only [hexp, if_true, unbind_planAgain]
  rfl

theorem followDuty_goesOn (hexp : d.expires ev = false) : s.followDuty e d ev =
    s.onDuty e.duty (fun x => { x with departure := some (d.now ev) }) := by
  unfold State.followDuty
  rw [follow_eq, h, hexp]
  rfl

theorem followFleet_expired (hexp : d.expires ev = true) : s.followFleet d ev =
    (s.onRoster (fun r => { r with fleetDepartures := r.fleetDepartures.filter (fun x => x.fleet ≠ d.fleet) })).post .roster 5
      [.u16 65535, .u16 d.fleet, .u8 ev.event.code] := by
  unfold State.followFleet
  rw [follow_eq, h, hexp]
  rfl

theorem followFleet_goesOn (hexp : d.expires ev = false) : s.followFleet d ev = s.onRoster (fun r => { r with
    fleetDepartures := r.fleetDepartures.map (fun x => if x.fleet = d.fleet then d.now ev else x) }) := by
  unfold State.followFleet
  rw [follow_eq, h, hexp]
  rfl

end

/-! ## The record that the event names (R158) -/

theorem exec_followDuty (hp : ev.purpose = .dutyDeparture n fleet) (he : s.duty n = some e) (hd : e.departure = some d)
    (hf : d.fleet = fleet) :
    exec (.rosterDepartureEvent ev) s = .next ((s.take (.rosterDepartureEvent ev)).followDuty e d ev).settle := by
  have he' : (s.take (.rosterDepartureEvent ev)).duty n = some e := he
  change execRosterDepartureEvent ev s = _
  unfold execRosterDepartureEvent
  simp only [hp, he', hd]
  exact if_pos hf

theorem exec_followFleet (hp : ev.purpose = .fleetDeparture fleet g)
    (hd : s.roster.fleetDepartures.find? (fun y => y.fleet = fleet) = some d) :
    exec (.rosterDepartureEvent ev) s = .next ((s.take (.rosterDepartureEvent ev)).followFleet d ev).settle := by
  change execRosterDepartureEvent ev s = _
  unfold execRosterDepartureEvent
  simp only [hp, State.take_roster, hd]
  rfl

theorem exec_followNone (h : recordFollowed ev s = none) :
    exec (.rosterDepartureEvent ev) s = .next (s.take (.rosterDepartureEvent ev)).settle := by
  change execRosterDepartureEvent ev s = _
  unfold execRosterDepartureEvent
  unfold recordFollowed at h
  cases hp : ev.purpose with
  | dutyDeparture n fleet =>
    have htake : (s.take (.rosterDepartureEvent ev)).duty n = s.roster.duties.find? (fun y => y.duty = n) := rfl
    rw [hp] at h
    dsimp only at h ⊢
    rw [htake]
    cases he : s.roster.duties.find? (fun y => y.duty = n) with
    | none => rfl
    | some e =>
      rw [he, Option.bind_some] at h
      dsimp only
      cases hd : e.departure with
      | none => rfl
      | some d =>
        rw [hd] at h
        have hother : d.fleet ≠ fleet := by simpa using h
        exact if_neg hother
  | fleetDeparture fleet g =>
    rw [hp] at h
    dsimp only at h ⊢
    rw [State.take_roster, h]
    rfl
  | _ => rfl

theorem departureEvents_onTheRecord : departureEventsOnTheRecord := by
  intro ev fleet d s hfleet left ends expires now
  have hends : ends = (d.endCause ev).map RosterCause.code := by
    unfold Departure.endCause
    simp only [ends]
    split_ifs
    · rfl
    · cases ev.event <;> rfl
  have hexpires : expires = if d.expires ev then some ev.event.code else none := by
    unfold Departure.expires
    simp only [expires]
    by_cases hcalled : d.progress = .called
    · rw [if_pos hcalled, decide_eq_true hcalled]
      cases ev.event <;> rfl
    · rw [if_neg hcalled, decide_eq_false hcalled]
      rfl
  have hnow : now = d.now ev := rfl
  clear_value ends expires now
  subst hends hexpires hnow
  have hbegin := rosterTaken_none (s.take (.rosterDepartureEvent ev))
  refine ⟨fun n e hp he hd => ⟨_, exec_followDuty hp he hd hfleet, ?_⟩, fun g hp hd => ⟨_, exec_followFleet hp hd, ?_⟩⟩
  · obtain rfl : e.duty = n := duty_number he
    subst hfleet
    cases hcause : d.endCause ev with
    | some cause =>
      rw [followDuty_ended hcause hd]
      exact ((hbegin.dropDuty e.duty).post _ _ _).takenUnsent
    | none =>
      cases hexp : d.expires ev with
      | true =>
        rw [followDuty_expired hcause hexp]
        exact ((hbegin.onDuty e.duty Duty.planAgain).post _ _ _).takenUnsent
      | false =>
        rw [followDuty_goesOn hcause hexp]
        exact (hbegin.onDuty e.duty (fun x => { x with departure := some (d.now ev) })).takenUnsent
  · subst hfleet
    have hdropped := hbegin.onRoster (fun r => { r with fleetDepartures := r.fleetDepartures.filter (fun x => x.fleet ≠ d.fleet) })
    cases hcause : d.endCause ev with
    | some cause =>
      rw [followFleet_ended hcause, expires_of_endCause hcause]
      exact hdropped.takenUnsent
    | none =>
      cases hexp : d.expires ev with
      | true =>
        rw [followFleet_expired hcause hexp]
        exact (hdropped.post _ _ _).takenUnsent
      | false =>
        rw [followFleet_goesOn hcause hexp]
        exact (hbegin.onRoster (fun r => { r with
          fleetDepartures := r.fleetDepartures.map (fun x => if x.fleet = d.fleet then d.now ev else x) })).takenUnsent

/-- Settles O38: what an event makes of a departure record (`follow_eq`), and the events that find none (`exec_followNone`). -/
theorem departureIsFollowed : Obligations.DepartureIsFollowed := ⟨departureEvents_onTheRecord, fun _ _ h => exec_followNone h⟩

end

end Sys2Proof.Machine

/-! # The planner's requests on the roster (08 section 8.3) -/

namespace Sys2Proof.Machine

section

variable {s : State} {n due g st : Nat} {f l : Option Nat} {d e : Duty} {q : Req} {v : Bool}

/-! ## ROSTER_ADD (R151) -/

/-- R151: the ranges of an entry's fields, in the words of the statement. -/
theorem rosterAdd_inRange (s : State) (n due g : Nat) (f l : Option Nat) :
    (within n 999 && decide (due ≤ Config.lastMinute) && (Tbl.find g s.gates).isSome && fieldIn f 1 4095 && fieldIn l 10 80) =
    (decide (1 ≤ n ∧ n ≤ 999 ∧ due ≤ 2879) && (Tbl.find g s.gates).isSome && f.all (fun x => decide (1 ≤ x ∧ x ≤ 4095)) &&
      l.all (fun x => decide (10 ≤ x ∧ x ≤ 80))) := by
  have hlast : Config.lastMinute = 2879 := rfl
  rw [within_eq, fieldIn_eq, fieldIn_eq, hlast]
  unfold isInOpt isIn
  simp only [Bool.decide_and, Bool.and_assoc]

/-- R151: an entry joins behind those that are before it in order or level with it, and before the rest. -/
theorem insertDuty_between (d : Duty) (l : List Duty) : ∃ a b, l = a ++ b ∧ insertDuty d l = a ++ d :: b ∧
    (∀ x ∈ a, d.before x = false) ∧ ∀ x, b.head? = some x → d.before x = true := by
  induction l with
  | nil => exact ⟨[], [], rfl, rfl, by simp, by simp⟩
  | cons y l ih =>
    unfold insertDuty
    cases hy : d.before y with
    | true => exact ⟨[], y :: l, rfl, rfl, by simp, by simp [hy]⟩
    | false =>
      obtain ⟨a, b, hl, hinsert, ha, hb⟩ := ih
      exact ⟨y :: a, b, congrArg (y :: ·) hl, congrArg (y :: ·) hinsert, List.forall_mem_cons.mpr ⟨hy, ha⟩, hb⟩

theorem before_iff (d e : Duty) : d.before e = true ↔ d.due < e.due ∨ (d.due = e.due ∧ d.duty < e.duty) := by
  simp [Duty.before]

theorem before_eq_false (h : d.before e = false) : e.due < d.due ∨ (e.due = d.due ∧ e.duty ≤ d.duty) := by
  have hnot := (before_iff d e).not.mp (by simp [h])
  omega

/-- R151: what ROSTER_ADD is refused for, in order. -/
def addRefusal (s : State) (n due g : Nat) (f l : Option Nat) : Option Ans :=
  if !(within n 999 && decide (due ≤ Config.lastMinute) && (Tbl.find g s.gates).isSome && fieldIn f 1 4095 && fieldIn l 10 80) then
    some ⟨.refused, some .badArgument, []⟩
  else if 96 ≤ s.roster.duties.length then some ⟨.refused, some .full, []⟩
  else (s.roster.duties.find? (fun d => d.duty = n || (f.isSome && d.fleet = f))).map (fun d =>
    ⟨.refused, some .duplicate, [.u16 d.duty]⟩)

theorem takeRosterAdd_eq (s : State) (n due g : Nat) (f l : Option Nat) : takeRosterAdd n due g f l s =
    match addRefusal s n due g f l with
    | some a => (s, a)
    | none => ((s.onRoster (fun r => { r with duties := insertDuty (Duty.new n due g f l) r.duties })).postRoster
        (Duty.new n due g f l) .added, .done) := by
  have hsize : Config.rosterSize = 96 := rfl
  unfold takeRosterAdd addRefusal State.holds
  rw [hsize]
  split_ifs
  · rfl
  · rfl
  · cases s.roster.duties.find? (fun d => d.duty = n || (f.isSome && d.fleet = f)) <;> rfl

theorem roster_adds : rosterAdds := by
  intro q n due g f l s hport ho inRange why d
  have hwhy : why = addRefusal (s.take (.rosterAdd q n due g f l)) n due g f l := by
    unfold addRefusal
    rw [rosterAdd_inRange]
    rfl
  clear_value why
  subst hwhy
  have hexec : exec (.rosterAdd q n due g f l) s = _ := takeRequest_run (k := .rosterAdd) (i := .rosterAdd q n due g f l)
    (by rw [hport]; rfl) rfl rfl ho rfl (takeRosterAdd n due g f l)
  rw [takeRosterAdd_eq] at hexec
  refine ⟨_, hexec, ?_⟩
  have hbegin := rosterTaken_none (s.take (.rosterAdd q n due g f l))
  cases hrefusal : addRefusal (s.take (.rosterAdd q n due g f l)) n due g f l with
  | some a => exact hbegin.replied .rosterAdd q a
  | none =>
    obtain ⟨heffect, hroster⟩ := ((hbegin.onDuties (insertDuty d)).posts (posts_postRoster d .added)).replied .rosterAdd q .done
    obtain ⟨a, b, hsplit, hinsert, ha, hb⟩ := insertDuty_between d s.roster.duties
    refine ⟨heffect, a, b, hsplit, ?_, fun x hx => before_eq_false (ha x hx), fun x hx => (before_iff d x).mp (hb x hx)⟩
    rw [← hinsert]
    exact hroster

/-! ## ROSTER_REMOVE and ROSTER_CLEAR (R152) -/

theorem takeRosterRemove_absent (h : s.duty n = none) : takeRosterRemove n s = (s, .refused .badArgument) := by
  unfold takeRosterRemove
  rw [h]

theorem takeRosterRemove_found (h : s.duty n = some e) : takeRosterRemove n s =
    if e.departure.isSome then (s, .refused .wrongState) else ((s.dropDuty n).postRoster e .removed, .done) := by
  unfold takeRosterRemove
  rw [h]
  rfl

/-- R152: the entries that are not CALLED leave, each with its notice. -/
theorem takeRosterClear_eq (s : State) : takeRosterClear s =
    let gone := s.roster.duties.filter (fun d => d.departure.isNone)
    (gone.foldl (fun s d => s.post .roster 2 [.u16 d.duty, .u16 d.due, .u8 d.gate, .u16 (d.fleet.getD 65535), .u8 1, .u8 2])
      (s.onRoster (fun r => { r with duties := r.duties.filter Duty.isCalled })), .done [.u8 gone.length]) := by
  have hgone : (fun d : Duty => !d.isCalled) = fun d => d.departure.isNone :=
    funext fun d => Option.not_isSome d.departure
  unfold takeRosterClear
  rw [hgone]
  refine Prod.ext (List.foldl_ext _ _ _ fun t d hd => ?_) rfl
  exact postRoster_planned (by simpa using List.of_mem_filter hd) .removed t

theorem roster_removes : rosterRemoves := by
  intro q s hport ho
  constructor
  · intro n found gone
    have hexec : exec (.rosterRemove q n) s = _ := takeRequest_run (k := .rosterRemove) (i := .rosterRemove q n)
      (by rw [hport]; rfl) rfl rfl ho rfl (takeRosterRemove n)
    have hbegin := rosterTaken_none (s.take (.rosterRemove q n))
    refine ⟨_, hexec, ?_⟩
    have hfound : (s.take (.rosterRemove q n)).duty n = found := rfl
    have hgone : gone = found.filter (fun d => d.departure.isNone) := rfl
    clear_value found gone
    subst hgone
    cases found with
    | none =>
      rw [takeRosterRemove_absent hfound]
      exact hbegin.replied .rosterRemove q (.refused .badArgument)
    | some e =>
      obtain rfl : e.duty = n := duty_number hfound
      rw [takeRosterRemove_found hfound]
      cases hd : e.departure with
      | some x =>
        simp only [Option.filter_some, hd, Option.isNone_some, Bool.false_eq_true, if_false]
        exact hbegin.replied .rosterRemove q (.refused .wrongState)
      | none =>
        simp only [Option.filter_some, hd, Option.isNone_none, if_true]
        rw [postRoster_planned hd]
        exact ((hbegin.dropDuty e.duty).post _ _ _).replied .rosterRemove q .done
  · intro gone
    have hexec : exec (.rosterClear q) s = _ := takeRequest_run (k := .rosterClear) (i := .rosterClear q)
      (by rw [hport]; rfl) rfl rfl ho rfl takeRosterClear
    rw [takeRosterClear_eq] at hexec
    have hcleared := (rosterTaken_none (s.take (.rosterClear q))).onDuties (List.filter Duty.isCalled)
    exact ⟨_, hexec, (hcleared.posts (Posts.foldl (fun _ => posts_one _ _ _) gone)).replied .rosterClear q _⟩

/-! ## ROSTER_AUTO (R152) -/

theorem takeRosterAuto_sets (hgate : (Tbl.find g s.gates).isSome = true) (hst : st = 1 ∨ st = 2) : takeRosterAuto g st s =
    if s.roster.auto g = decide (st = 1) then (s, .done)
    else ((s.onRoster (Roster.setAuto g (decide (st = 1)))).post .roster 3 [.u8 g, .u8 st], .done) := by
  obtain ⟨x, hx⟩ := Option.isSome_iff_exists.mp hgate
  unfold takeRosterAuto
  rw [hx]
  rcases hst with rfl | rfl <;> rfl

theorem takeRosterAuto_bad (h : ¬((st = 1 ∨ st = 2) ∧ (Tbl.find g s.gates).isSome = true)) :
    takeRosterAuto g st s = (s, .refused .badArgument) := by
  unfold takeRosterAuto settingOfCode?
  cases hx : Tbl.find g s.gates with
  | none => rfl
  | some x =>
    rw [hx, Option.isSome_some, and_iff_left rfl, not_or] at h
    rw [if_neg h.1, if_neg h.2]

theorem setAuto_clock (g : Nat) (v : Bool) (r : Roster) : (r.setAuto g v).clock = r.clock := by
  unfold Roster.setAuto
  split <;> rfl

/-- R152: a flag that has its value already stays as it is. -/
theorem setAuto_same {r : Roster} (h : r.auto g = v) : r.setAuto g v = r := by
  unfold Roster.setAuto
  unfold Roster.auto at h
  subst h
  by_cases hg : g = 1 <;> simp [hg]

theorem roster_autoSets : rosterAutoSets := by
  intro q g st s hport ho ok was v
  have hpermits : Kind.rosterAuto.permits q.port = true := by rw [hport]; rfl
  have hok : ok = true ↔ (st = 1 ∨ st = 2) ∧ (Tbl.find g (s.take (.rosterAuto q g st)).gates).isSome = true := by simp [ok]
  clear_value ok
  cases ok with
  | false =>
    obtain ⟨u, hexec, heffect⟩ := refused_badArgument (c := .rosterAuto q g st) hpermits rfl ho rfl
      (takeRosterAuto_bad (hok.not.mp Bool.false_ne_true))
    obtain ⟨hkeeps, hrest⟩ := heffect
    exact ⟨u, hexec, ⟨hkeeps.mono (List.nil_subset _), hrest⟩, hkeeps.2.2 .roster List.not_mem_nil⟩
  | true =>
    obtain ⟨hst, hgate⟩ := hok.mp rfl
    have hcodes : (settingOfCode? st).isSome = true := by rcases hst with rfl | rfl <;> rfl
    have hexec : exec (.rosterAuto q g st) s = _ := takeRequest_run (k := .rosterAuto) (i := .rosterAuto q g st)
      hpermits hcodes rfl ho rfl (takeRosterAuto g st)
    have hbegin := rosterTaken_none (s.take (.rosterAuto q g st))
    have hwas : was = s.roster.auto g := rfl
    clear_value was
    subst hwas
    refine ⟨_, hexec, ?_⟩
    rw [takeRosterAuto_sets hgate hst, State.take_roster]
    by_cases hsame : s.roster.auto g = decide (st = 1)
    · obtain ⟨heffect, hroster⟩ := hbegin.replied .rosterAuto q .done
      have hunchanged : (true && decide (v ≠ s.roster.auto g)) = false := by simp [v, hsame]
      rw [if_pos hsame, hunchanged]
      exact ⟨heffect, hroster.trans (setAuto_same hsame).symm⟩
    · have hset := (hbegin.onRoster (Roster.setAuto g v) (setAuto_clock g v _)).post .roster 3 [.u8 g, .u8 st]
      have hchanged : (true && decide (v ≠ s.roster.auto g)) = true := by simp [v, Ne.symm hsame]
      rw [if_neg hsame, hchanged]
      exact hset.replied .rosterAuto q .done

/-- Settles O36: the entry's place (`insertDuty_between`), the refusals in order (`addRefusal`), and the entries that leave. -/
theorem rosterEntriesComeAndGo : Obligations.RosterEntriesComeAndGo := ⟨roster_adds, roster_removes, roster_autoSets⟩

end

end Sys2Proof.Machine

/-! # A call and its undoing (07 section 7.4; 08 section 8.4) -/

namespace Sys2Proof.Machine

/-- Change the entries of the roster. -/
def State.onDuties (φ : List Duty → List Duty) (s : State) : State := s.onRoster (fun r => { r with duties := φ r.duties })

section

variable {s t u : State} {f n g i siding : Nat} {r : SidingRec} {x : StackRec} {p : StackPurpose} {q : DepartAsk} {a : Ans}
  {why : Reason} {object : List Field}

/-! ## Where a fleet stands once its record has changed -/

theorem tramIn_withRecord {φ : StackRec → StackRec} (hφ : ∀ y, (φ y).fleet = y.fleet) (p : Nat × SidingRec) :
    tramIn f (p.1, withRecord f φ p.2) =
      (tramIn f p).map (fun v => (v.1, withRecord f φ v.2.1, v.2.2.1, φ v.2.2.2)) := by
  have hfleet : ((fun y : StackRec => decide (y.fleet = f)) ∘ fun y => if y.fleet = f then φ y else y) =
      fun y => decide (y.fleet = f) := by
    funext y
    by_cases hy : y.fleet = f <;> simp [hy, hφ]
  unfold tramIn withRecord
  dsimp only
  rw [List.findIdx?_map, hfleet]
  cases hi : p.2.stack.findIdx? (fun y => y.fleet = f) with
  | none => rfl
  | some i =>
    obtain ⟨hlt, hfound, -⟩ := List.findIdx?_eq_some_iff_getElem.mp hi
    have hsame : p.2.stack[i].fleet = f := by simpa using hfound
    simp [List.getElem?_eq_getElem hlt, hsame]

theorem tramIn_number {p : Nat × SidingRec} (h : tramIn f p = some (n, r, i, x)) : p.1 = n := by
  unfold tramIn at h
  simp only [Option.bind_eq_some_iff, Option.map_eq_some_iff, Prod.mk.injEq] at h
  obtain ⟨_, -, _, -, hn, -⟩ := h
  exact hn

/-- A record that changes, its fleet kept, stands where it stood. -/
theorem findTram_onRecord {φ : StackRec → StackRec} (hφ : ∀ y, (φ y).fleet = y.fleet) (h : s.findTram f = some (n, r, i, x))
    (ht : t.stab = (s.onRecord n f φ).stab) : t.findTram f = some (n, withRecord f φ r, i, φ x) := by
  rw [findTram_eq] at h
  rw [findTram_eq, ht]
  change (Tbl.adjust n (withRecord f φ) s.stab.sidings).findSome? (tramIn f) = _
  generalize s.stab.sidings = l at h
  induction l with
  | nil => cases h
  | cons p l ih =>
    unfold Tbl.adjust at ih ⊢
    rw [List.findSome?_cons] at h
    rw [List.map_cons, List.findSome?_cons]
    cases hp : tramIn f p with
    | none =>
      rw [hp] at h
      have hnone : tramIn f (if p.1 = n then (p.1, withRecord f φ p.2) else p) = none := by
        split_ifs
        · rw [tramIn_withRecord hφ, hp, Option.map_none]
        · exact hp
      rw [hnone]
      exact ih h
    | some v =>
      rw [hp] at h
      cases h
      rw [if_pos (tramIn_number hp), tramIn_withRecord hφ, hp, Option.map_some]

theorem withRecord_withRecord {φ ψ : StackRec → StackRec} (hφ : ∀ y, (φ y).fleet = y.fleet) (f : Nat) (r : SidingRec) :
    withRecord f ψ (withRecord f φ r) = withRecord f (fun y => ψ (φ y)) r := by
  unfold withRecord
  rw [List.map_map]
  congr 1
  refine List.map_congr_left fun y _ => ?_
  by_cases hy : y.fleet = f <;> simp [hy, hφ]

theorem onlySiding_trans {r' : SidingRec} (h : OnlySiding n r s t) (h' : OnlySiding n r' t u) : OnlySiding n r' s u := by
  obtain ⟨hput, hshunts, hhanded⟩ := h
  obtain ⟨hput', hshunts', hhanded'⟩ := h'
  refine ⟨fun m => (hput' m).trans ?_, hshunts'.trans hshunts, hhanded'.trans hhanded⟩
  split_ifs with hm
  · rfl
  · exact (hput m).trans (if_neg hm)

theorem onlySiding_congr (h : OnlySiding n r s t) (hs : u.stab = t.stab) : OnlySiding n r s u := by
  unfold OnlySiding
  rw [hs]
  exact h

/-! ## The call and uncall claims (R133) -/

theorem callClaim_refused (h : s.callCheck f = .error a) (p : StackPurpose) : s.callClaim f p = (s, .error a) := by
  unfold State.callClaim
  rw [h]

theorem callClaim_called (h : s.callCheck f = .ok (n, i)) (p : StackPurpose) :
    s.callClaim f p = ((s.callClaim f p).1, .ok n) := by
  unfold State.callClaim
  rw [h]

theorem callClaim_stab (h : s.callCheck f = .ok (n, i)) (p : StackPurpose) :
    (s.callClaim f p).1.stab = (s.markCalled n f p s.stab.handed).stab := by
  unfold State.callClaim
  rw [h]
  exact (acts_report _ .called none).stab

/-- R127: the report of a call does not depend on the claims in flight. -/
theorem reports_callClaim_take (s : State) (c : Instr) (f : Nat) (p : StackPurpose) (cause : StackCause) :
    reports ((s.take c).callClaim f p).1 cause none = reports (s.callClaim f p).1 cause none := by
  have hcheck : (s.take c).callCheck f = s.callCheck f := rfl
  unfold State.callClaim
  rw [hcheck]
  cases s.callCheck f with
  | error a => exact reports_congr (sameYard_take s c) rfl rfl cause none
  | ok v =>
    dsimp only
    rw [reports_report, reports_report]
    exact reports_congr ⟨rfl, rfl, rfl, rfl, rfl⟩ rfl rfl cause none

/-- R133: a tram called for this purpose is called no more. -/
theorem sidingTaken_uncallClaim (h : Stands f n r i x s) (hx : x.state = .called ∧ x.purpose = some p) :
    SidingTaken [.stabling] (reports (s.uncallClaim f p) .uncalled none) (stackNotice n f (i + 1) 2 4) s n
      (withRecord f backToStabled r) (s.uncallClaim f p) := by
  obtain ⟨hfind, hr⟩ := h
  unfold State.uncallClaim
  rw [hfind]
  dsimp only
  rw [if_pos hx]
  exact (((sidingTaken_found hr).onRecord f StackRec.settle).postStack n f (i + 1) (some .stabled) .uncalled).report .uncalled none

/-- R133: a stack record called for a purpose. -/
def StackRec.calledFor (p : StackPurpose) (handed : Bool) (x : StackRec) : StackRec :=
  { x with state := .called, purpose := some p, sinceRestart := handed }

theorem callClaim_stands (h : Stands f n r i x s) (hcheck : s.callCheck f = .ok (n, i)) (p : StackPurpose) :
    Stands f n (withRecord f (StackRec.calledFor p s.stab.handed) r) i (x.calledFor p s.stab.handed) (s.callClaim f p).1 :=
  ⟨findTram_onRecord (φ := StackRec.calledFor p s.stab.handed) (fun _ => rfl) h.1 (callClaim_stab hcheck p),
    ((sidingTaken_callClaim h.2 hcheck p).sidings n).trans (Function.update_self n _ _)⟩

/-! ## The call undone (R156) -/

/-- R155, R156: the entries with the binding of this departure's undone. -/
def DepartAsk.unbind (q : DepartAsk) (l : List Duty) : List Duty :=
  match q.duty with
  | some n => l.map (fun d => if d.duty = n then d.unbind else d)
  | none => l

theorem undoCall_eq (s : State) (q : DepartAsk) (f : Nat) :
    s.undoCall q f = (s.uncallClaim f q.stackPurpose).onDuties q.unbind := by
  unfold State.undoCall DepartAsk.unbind
  cases q.duty <;> rfl

/-- R133, R156: the tram is called, entries change, and the call is undone. -/
theorem undoCall_taken (h : MayBeCalled f siding q.gate i r x s) (φ : List Duty → List Duty) :
    let t := (s.callClaim f q.stackPurpose).1
    let u := (t.onDuties φ).undoCall q f
    RosterTaken [.stabling, .roster] (reports t .called none ++ reports u .uncalled none)
        (fun s => stackNotice siding f (i + 1) 2 4 (stackNotice siding f (i + 1) 3 3 s)) s
        { s.roster with duties := q.unbind (φ s.roster.duties) } u ∧
      OnlySiding siding (withRecord f backToStabled r) s u := by
  intro t u
  obtain ⟨hstands, hcheck, -⟩ := h
  have hcalled := sidingTaken_callClaim hstands.2 hcheck q.stackPurpose
  have hbound : Stands f siding _ i _ (t.onDuties φ) := callClaim_stands hstands hcheck q.stackPurpose
  have huncalled := sidingTaken_uncallClaim hbound ⟨rfl, rfl⟩
  rw [withRecord_withRecord (φ := StackRec.calledFor q.stackPurpose s.stab.handed) (fun _ => rfl)] at huncalled
  have hu : u = ((t.onDuties φ).uncallClaim f q.stackPurpose).onDuties q.unbind := undoCall_eq _ q f
  have hreports : reports u .uncalled none = reports ((t.onDuties φ).uncallClaim f q.stackPurpose) .uncalled none := by
    rw [hu]
    exact reports_congr ⟨rfl, rfl, rfl, rfl, rfl⟩ rfl rfl _ _
  have hbegin := (rosterTaken_none s).mono (parts' := [.stabling, .roster]) (by simp)
  refine ⟨?_, ?_⟩
  · rw [hreports, hu]
    exact (((hbegin.next hcalled.acts).onDuties φ).next huncalled.acts).onDuties q.unbind
  · rw [hu]
    have hbind : OnlySiding siding _ s (t.onDuties φ) := onlySiding_congr (t := t) hcalled.onlySiding rfl
    exact onlySiding_congr (onlySiding_trans hbind huncalled.onlySiding) rfl

/-- R156: such a taking in the words of the statement. -/
theorem undoCall_undone (h : MayBeCalled f siding q.gate i r x s) (φ : List Duty → List Duty) :
    CallUndone f siding i q.stackPurpose r (q.unbind (φ s.roster.duties)) s.claims none s
      (((s.callClaim f q.stackPurpose).1.onDuties φ).undoCall q f) := by
  obtain ⟨htaken, hsiding⟩ := undoCall_taken h φ
  refine ⟨?_, hsiding, htaken.roster⟩
  rw [List.append_assoc]
  exact htaken.effect

/-- R156: within the taking of a DEPART, which is answered. -/
theorem callUndone_replied {c : Instr} {duties : List Duty} (h : CallUndone f siding i p r duties (s.take c).claims none (s.take c) u)
    (k : Kind) (q : Req) (a : Ans) : CallUndone f siding i p r duties (s.claims.erase c) (some (k, q, a)) s (u.reply k q a) := by
  obtain ⟨heffect, hsiding, hroster⟩ := h
  rw [reports_callClaim_take] at heffect
  refine ⟨?_, onlySiding_congr (t := u) hsiding (by simp), (State.reply_roster ..).trans hroster⟩
  rw [reports_reply]
  exact effect_reply k q a (effect_ofTake heffect ((posts_stackNotice _ _ _ _ _).comp (posts_stackNotice _ _ _ _ _)) (by simp))

end

end Sys2Proof.Machine

/-! # The departure route's request (08 section 8.4; 04 sections 4.4, 4.5) -/

namespace Sys2Proof.Machine

/-- The parts that a departure made may change. -/
abbrev departParts : List Part := [.sections, .points, .routes, .stabling, .roster]

/-- R156, R157: the roster block with a departure record made. -/
def DepartAsk.record (q : DepartAsk) (dep : Departure) (ρ : Roster) : Roster :=
  match q.duty with
  | some n => { ρ with duties := ρ.duties.map (fun y => if y.duty = n then { y with departure := some dep, lastRefusal := none } else y) }
  | none => { ρ with fleetDepartures := ρ.fleetDepartures.filter (fun y => y.fleet ≠ dep.fleet) ++ [dep] }

/-- R133, R156: what a departure made comes to from the state in which its tram is called, before any answer. -/
structure Departs (q : DepartAsk) (f siding k i : Nat) (r : SidingRec) (d : RouteDef) (s : State) (ρ : Roster) (u : State) : Prop where
  taken : RosterTaken departParts
    (reports (s.callClaim f q.stackPurpose).1 .called none ++ requestClaims k q.owner (q.purpose f) (some f) d s)
    (fun a => (requestNotices k q.owner (q.purpose f) (some f) d s u (stackNotice siding f (i + 1) 3 3 a)).post .roster 4
      [f16 q.duty, .u16 f, .u8 siding, .u8 q.gate, .u8 k, .u8 q.owner.code, .u8 (requestPlace d s)]) s ρ u
  stands : Requested k q.owner (q.purpose f) (some f) d s u
  onlySiding : OnlySiding siding (withRecord f (StackRec.calledFor q.stackPurpose s.stab.handed) r) s u

section

variable {s t u w : State} {f n k i siding : Nat} {r : SidingRec} {x : StackRec} {q : DepartAsk} {d : RouteDef}
  {why : Reason} {object : List Field} {ρ : Roster}

theorem makeDeparture_eq (s : State) (q : DepartAsk) (dep : Departure) : s.makeDeparture q dep = s.onRoster (q.record dep) := by
  unfold State.makeDeparture DepartAsk.record
  cases q.duty <;> rfl

theorem record_clock (q : DepartAsk) (dep : Departure) (ρ : Roster) : (q.record dep ρ).clock = ρ.clock := by
  unfold DepartAsk.record
  cases q.duty <;> rfl

/-! ## What the request comes to (R60–R66, R156) -/

/-- R156: there is no departure route, or it is refused: the call is undone. -/
theorem requestDeparture_undone (h : departureRefusal n q.gate s = some (why, object)) :
    s.requestDeparture q f n = (s.undoCall q f, ⟨.refused, some why, object⟩) := by
  unfold departureRefusal at h
  unfold State.requestDeparture
  cases hk : s.lookup .departure n q.gate with
  | none =>
    rw [hk] at h
    cases h
    rfl
  | some k =>
    rw [hk] at h
    obtain ⟨d, hd, hrefusal⟩ := Option.bind_eq_some_iff.mp h
    split_ifs at hrefusal with hkind
    dsimp only
    rw [requestRoute_refusal (kinds := [.departure]) hd (by rw [hkind]; rfl) hrefusal]
    rfl

/-- R62–R66, R156: the departure route stands in a slot or in the store. -/
theorem requestDeparture_granted (hk : s.lookup .departure n q.gate = some k)
    (hrequest : s.requestRoute [.departure] ⟨k, q.owner, q.purpose f, some f⟩ = (w, requestGranted d s)) :
    s.requestDeparture q f n =
      ((w.makeDeparture q ⟨f, n, q.gate, k, q.owner, slotTaken d s, .called⟩).post .roster 4
        [f16 q.duty, .u16 f, .u8 n, .u8 q.gate, .u8 k, .u8 q.owner.code, .u8 (requestPlace d s)],
      requestAnswer d [f16 q.duty, .u16 f, .u8 n, .u8 k, .u8 (requestPlace d s)] s) := by
  unfold State.requestDeparture
  rw [hk]
  dsimp only
  rw [hrequest]
  unfold requestGranted requestAnswer requestPlace
  cases slotTaken d s <;> rfl

theorem departureRefusal_sameYard (h : SameYard s t) (n g : Nat) : departureRefusal n g t = departureRefusal n g s :=
  h.congr (φ := departureRefusal n g) rfl

/-- R133, R154–R156: a tram is called, entries change, and its route is requested and not refused. -/
theorem requestDeparture_departs (h : MayDepart f siding q.gate k i r x d s) (φ : List Duty → List Duty) :
    ∃ u, ((s.callClaim f q.stackPurpose).1.onDuties φ).requestDeparture q f siding =
        (u, requestAnswer d [f16 q.duty, .u16 f, .u8 siding, .u8 k, .u8 (requestPlace d s)] s) ∧
      Departs q f siding k i r d s
        (q.record ⟨f, siding, q.gate, k, q.owner, slotTaken d s, .called⟩ { s.roster with duties := φ s.roster.duties }) u := by
  obtain ⟨⟨⟨-, hr⟩, hcheck, -⟩, hk, hd, hkind, hrefusal, hnodup⟩ := h
  have hcalled := sidingTaken_callClaim hr hcheck q.stackPurpose
  have hyard : SameYard s ((s.callClaim f q.stackPurpose).1.onDuties φ) :=
    hcalled.acts.sameYard.trans ⟨rfl, rfl, rfl, rfl, rfl⟩
  have hk' : ((s.callClaim f q.stackPurpose).1.onDuties φ).lookup .departure siding q.gate = some k :=
    (hyard.congr (φ := fun s => s.lookup .departure siding q.gate) rfl).trans hk
  have hd' : ((s.callClaim f q.stackPurpose).1.onDuties φ).routeDef k = some d :=
    (hyard.congr (φ := fun s => s.routeDef k) rfl).trans hd
  obtain ⟨w, hrequest, hdoes, hstands⟩ := requestRoute_requested (kinds := [.departure]) (q := ⟨k, q.owner, q.purpose f, some f⟩) hd'
    (by rw [hkind]; rfl) ((requestRefusal_sameYard hyard k d).trans hrefusal) hnodup
  have hgranted := requestDeparture_granted (q := q) hk' hrequest
  rw [slotTaken_sameYard hyard, hyard.congr (φ := requestPlace d) rfl, makeDeparture_eq,
    hyard.congr (φ := requestAnswer d _) rfl] at hgranted
  have hsame : SameYard w ((w.onRoster (q.record ⟨f, siding, q.gate, k, q.owner, slotTaken d s, .called⟩)).post .roster 4
      [f16 q.duty, .u16 f, .u8 siding, .u8 q.gate, .u8 k, .u8 q.owner.code, .u8 (requestPlace d s)]) := ⟨rfl, rfl, rfl, rfl, rfl⟩
  refine ⟨_, hgranted, ?_, ?_, ?_⟩
  · have hbegin := (rosterTaken_none s).mono (parts' := departParts) (by simp)
    have hdoes := hdoes.acts
    rw [requestClaims_sameYard hyard, requestNotices_sameYard hyard hsame.symm] at hdoes
    exact (((((hbegin.next hcalled.acts).onDuties φ).next hdoes).onRoster _ (record_clock _ _ _)).post _ _ _)
  · rw [← requested_sameYard hyard hsame.symm]
    exact hstands
  · refine onlySiding_congr (t := (s.callClaim f q.stackPurpose).1) hcalled.onlySiding ?_
    exact hdoes.acts.stab

end

end Sys2Proof.Machine

/-! # DEPART: what it is refused for, the tram selected, and the departure made or undone (08 section 8.4) -/

namespace Sys2Proof.Machine

section

variable {s t u : State} {f n g k i siding : Nat} {r : SidingRec} {x : StackRec} {ask : DepartAsk} {d : RouteDef} {e : Duty}
  {why : Reason} {object : List Field} {ρ : Roster} {owner : Owner} {a : Ans} {q : Req} {c : Instr} {least : Option Nat}

/-! ## A departure made, in the words of the statements (R156) -/

theorem Departs.made (h : Departs ask f siding k i r d s ρ u) :
    DepartureMade ask.duty f siding ask.gate k i ask.owner r d s.claims none s u := by
  have heffect := h.taken.effect
  rw [← List.append_assoc] at heffect
  exact ⟨heffect, h.stands, h.onlySiding⟩

/-- R156: within the taking of a DEPART, which is answered. -/
theorem Departs.replied (h : Departs ask f siding k i r d (s.take c) ρ u) (q : Req) (a : Ans) :
    DepartureMade ask.duty f siding ask.gate k i ask.owner r d (s.claims.erase c) (some (.depart, q, a)) s (u.reply .depart q a) ∧
      (u.reply .depart q a).roster = ρ := by
  have heffect := effect_reply .depart q a h.taken.afterTake
  have hyard := sameYard_take s c
  have hreplied := sameYard_reply u .depart q a
  rw [reports_callClaim_take, ← List.append_assoc, requestClaims_sameYard hyard, requestNotices_sameYard hyard hreplied.symm] at heffect
  refine ⟨⟨heffect, ?_, onlySiding_congr (t := u) h.onlySiding (by simp)⟩, (State.reply_roster ..).trans h.taken.roster⟩
  have hstands := h.stands
  rw [requested_sameYard hyard hreplied.symm] at hstands
  exact hstands

/-! ## The tram selected for an open duty (R155) -/

theorem selectable_iff (s : State) (g : Nat) (least : Option Nat) (carried : List Nat) (n m : Nat) (r : SidingRec) (x : StackRec) :
    s.selectable g least carried (n, r) = some (m, x) ↔ m = n ∧ r.stack.getLast? = some x ∧ x.state = .stabled ∧
      x.fleet ∉ carried ∧ (∀ m, least = some m → m ≤ x.length) ∧ r.census = .known ∧ r.blocked = false ∧ r.incoming = none ∧
      ∃ k d, s.lookup .departure n g = some k ∧ Tbl.find k s.desc.routes = some d ∧ s.unavailableObject d = none := by
  have hroute : ((s.lookup .departure n g).bind s.routeDef).any (fun d => (s.unavailableObject d).isNone) = true ↔
      ∃ k d, s.lookup .departure n g = some k ∧ Tbl.find k s.desc.routes = some d ∧ s.unavailableObject d = none := by
    have hdef (k : Nat) : s.routeDef k = Tbl.find k s.desc.routes := rfl
    cases s.lookup .departure n g with
    | none => simp
    | some k => cases hd : Tbl.find k s.desc.routes <;> simp [hdef, hd]
  have hlength (y : StackRec) : least.all (fun m => decide (m ≤ y.length)) = true ↔ ∀ m, least = some m → m ≤ y.length := by
    cases least <;> simp
  unfold State.selectable SidingRec.outermost
  dsimp only
  cases r.stack.getLast? with
  | none => simp
  | some y =>
    simp only [hroute, hlength, Option.ite_none_right_eq_some, Option.some.injEq, Prod.mk.injEq, Bool.not_eq_true',
      Option.isNone_iff_eq_none, List.contains_eq_mem, decide_eq_false_iff_not]
    constructor
    · rintro ⟨hcandidate, rfl, rfl⟩
      exact ⟨rfl, rfl, hcandidate⟩
    · rintro ⟨rfl, rfl, hcandidate⟩
      exact ⟨hcandidate, rfl, rfl⟩

theorem selection_candidates : selectionCandidates := by
  intro g least carried n r s
  split
  · rename_i hnone
    intro x hx
    by_contra hcandidate
    push Not at hcandidate
    obtain ⟨hstate, hcarried, hlength, hcensus, hblocked, hincoming, k, d, hk, hd, havailable⟩ := hcandidate
    have hsome := (selectable_iff s g least carried n n r x).mpr ⟨rfl, hx, hstate, hcarried, hlength, ?_, ?_, ?_, k, d, hk, hd, havailable⟩
    · rw [hnone] at hsome
      cases hsome
    · cases hc : r.census with
      | known => rfl
      | doubt => exact absurd hc hcensus
    · simpa using hblocked
    · simpa using hincoming
  · rename_i m x hsome
    exact (selectable_iff s g least carried n m r x).mp hsome

/-- R155: the candidates are ranked by stabled-at, then by siding. -/
theorem firstRanked_selected (h : IsSelected e f siding r x s) :
    firstRanked (fun p : Nat × StackRec => [p.2.stabledAt.getD 0, p.1])
      (s.stab.sidings.filterMap (s.selectable e.gate e.minLength (s.roster.duties.filterMap Duty.fleet))) = some (siding, x) := by
  obtain ⟨-, hmem, hcandidate, hfirst⟩ := h
  have hlisted := List.mem_filterMap.mpr ⟨(siding, r), hmem, hcandidate⟩
  cases hranked : firstRanked (fun p : Nat × StackRec => [p.2.stabledAt.getD 0, p.1])
      (s.stab.sidings.filterMap (s.selectable e.gate e.minLength (s.roster.duties.filterMap Duty.fleet))) with
  | none =>
    rw [firstRanked_eq_none.mp hranked] at hlisted
    cases hlisted
  | some v =>
    obtain ⟨m, y⟩ := v
    obtain ⟨p, hp, hy⟩ := List.mem_filterMap.mp (firstRanked_mem hranked)
    have hle := firstRanked_le (by simp) hranked (siding, x) hlisted
    rcases hfirst p hp m y hy with ⟨rfl, rfl⟩ | hlater
    · rfl
    · refine absurd hle (not_le.mpr ?_)
      simpa [List.cons_lt_cons_iff] using hlater

theorem selectionClaim_none (h : ∀ p ∈ s.stab.sidings, s.selectable g least (s.roster.duties.filterMap Duty.fleet) p = none)
    (n : Nat) : s.selectionClaim n g least (s.roster.duties.filterMap Duty.fleet) = (s, none) := by
  unfold State.selectionClaim
  rw [List.filterMap_eq_nil_iff.mpr h]
  rfl

theorem selectionClaim_selected (h : IsSelected e f siding r x s) (hcheck : s.callCheck f = .ok (siding, i)) (n : Nat) :
    s.selectionClaim n e.gate e.minLength (s.roster.duties.filterMap Duty.fleet) =
      ((s.callClaim f (.dutyDeparture n)).1, some (f, siding)) := by
  unfold State.selectionClaim
  rw [firstRanked_selected h]
  obtain ⟨rfl, -⟩ := h
  dsimp only
  rw [callClaim_called hcheck]

/-! ## DEPART, by what it comes to (R153–R155) -/

theorem departNamed_refused (h : s.callCheck f = .error a) (ask : DepartAsk) : s.departNamed ask f = (s, a) := by
  unfold State.departNamed
  rw [callClaim_refused h]

theorem departNamed_called (h : s.callCheck f = .ok (siding, i)) (ask : DepartAsk) :
    s.departNamed ask f = (s.callClaim f ask.stackPurpose).1.requestDeparture ask f siding := by
  unfold State.departNamed
  rw [callClaim_called h]

theorem departDuty_absent (h : s.duty n = none) (owner : Owner) : s.departDuty n owner = (s, .refused .badArgument) := by
  unfold State.departDuty
  rw [h]

/-- R153: a DEPART by duty, by its entry. -/
theorem departDuty_found (h : s.duty n = some e) (owner : Owner) : s.departDuty n owner =
    if e.departure.isSome then (s, .refused .inUse [.u16 (e.fleet.getD 65535)])
    else if s.lineHeld e.gate then (s, .refused .lineHeld)
    else match e.fleet with
      | some f => s.departNamed ⟨some n, e.gate, owner⟩ f
      | none => s.departOpen ⟨some n, e.gate, owner⟩ n e.minLength := by
  unfold State.departDuty
  rw [h]
  rfl

section

variable (he : s.duty n = some e) (hd : ¬e.departure.isSome = true) (hheld : ¬s.lineHeld e.gate = true)
include he hd hheld

theorem departDuty_refused (hfleet : e.fleet = some f) (hcheck : s.callCheck f = .error a) (owner : Owner) :
    s.departDuty n owner = (s, a) := by
  rw [departDuty_found he, if_neg hd, if_neg hheld, hfleet]
  exact departNamed_refused hcheck _

theorem departDuty_noTram (hfleet : e.fleet = none)
    (hnone : ∀ p ∈ s.stab.sidings, s.selectable e.gate e.minLength (s.roster.duties.filterMap Duty.fleet) p = none) (owner : Owner) :
    s.departDuty n owner = (s, ⟨.refused, some .noTram, []⟩) := by
  rw [departDuty_found he, if_neg hd, if_neg hheld, hfleet]
  change s.departOpen ⟨some n, e.gate, owner⟩ n e.minLength = _
  unfold State.departOpen
  dsimp only
  rw [selectionClaim_none hnone]
  rfl

end

/-- R155: an entry bound to the tram selected. -/
def Duty.boundTo (f : Nat) (y : Duty) : Duty := { y with fleet := some f, bound := true }

/-- R155: the entries, with a duty bound to the tram selected where it is open. -/
def bindDuty (n f : Nat) (isOpen : Bool) (l : List Duty) : List Duty :=
  if isOpen then l.map (fun y => if y.duty = n then y.boundTo f else y) else l

/-- R153–R155: a DEPART by duty whose tram may be called, named or selected. -/
theorem departDuty_called (he : s.duty n = some e) (hd : e.departure = none) (hcall : MayBeCalled f siding e.gate i r x s)
    (htram : e.fleet = some f ∨ (e.fleet = none ∧ IsSelected e f siding r x s)) (owner : Owner) : s.departDuty n owner =
    ((s.callClaim f (.dutyDeparture n)).1.onDuties (bindDuty n f e.fleet.isNone)).requestDeparture ⟨some n, e.gate, owner⟩ f
      siding := by
  obtain ⟨-, hcheck, hheld⟩ := hcall
  rw [departDuty_found he, hd, hheld]
  rcases htram with hfleet | ⟨hfleet, hselected⟩
  · rw [hfleet]
    exact departNamed_called hcheck _
  · rw [hfleet]
    change s.departOpen ⟨some n, e.gate, owner⟩ n e.minLength = _
    unfold State.departOpen
    dsimp only
    rw [selectionClaim_selected hselected hcheck]
    rfl

/-- R153: the fields of a DEPART by fleet. -/
theorem departFleet_eq (s : State) (f g : Nat) (owner : Owner) : s.departFleet f g owner =
    if f = 0 ∨ 4095 < f ∨ Tbl.find g s.gates = none then (s, .refused .badArgument)
    else if s.lineHeld g then (s, .refused .lineHeld)
    else match s.roster.duties.find? (fun d => d.fleet = some f) with
      | some d => (s, .refused .conflict [.u16 d.duty])
      | none => s.departNamed ⟨none, g, owner⟩ f := by
  have hargs : (!within f 4095 || (Tbl.find g s.gates).isNone) = true ↔ f = 0 ∨ 4095 < f ∨ Tbl.find g s.gates = none := by
    have hrange : within f 4095 = false ↔ f = 0 ∨ 4095 < f := by
      unfold within
      rw [Bool.and_eq_false_iff, decide_eq_false_iff_not, decide_eq_false_iff_not]
      omega
    rw [Bool.or_eq_true, Bool.not_eq_true', hrange, Option.isNone_iff_eq_none, or_assoc]
  unfold State.departFleet
  exact if_congr hargs rfl rfl

/-- R153: DEPART in RUN, from any port. -/
theorem exec_depart {duty fleet gate : Option Nat} (ho : InRun q s)
    (h : takeDepart q.port duty fleet gate (s.take (.depart q duty fleet gate)) = (u, a)) :
    exec (.depart q duty fleet gate) s = .next (u.reply .depart q a).settle := by
  have hexec : exec (.depart q duty fleet gate) s = _ := takeRequest_run (k := .depart) (i := .depart q duty fleet gate) rfl rfl rfl ho
    rfl (takeDepart q.port duty fleet gate)
  rw [h] at hexec
  exact hexec

end

end Sys2Proof.Machine

/-! # DEPART (08 section 8.4) -/

namespace Sys2Proof.Machine

section

variable {s t u : State} {f n g k i siding : Nat} {r : SidingRec} {x : StackRec} {d : RouteDef} {e : Duty} {dep : Departure}
  {why : Reason} {object : List Field} {ρ : Roster} {owner : Owner} {a : Ans} {q : Req}

/-! ## An entry bound, and what becomes of it (R155, R156) -/

/-- R155, R156: a duty's entry as its departure stands; an open duty is bound to the tram selected. -/
def Duty.departs (f : Nat) (isOpen : Bool) (dep : Departure) (y : Duty) : Duty :=
  { y with fleet := if isOpen then some f else y.fleet, bound := isOpen || y.bound, departure := some dep, lastRefusal := none }

theorem record_bindDuty (n f g : Nat) (isOpen : Bool) (owner : Owner) (dep : Departure) (ρ : Roster) :
    DepartAsk.record ⟨some n, g, owner⟩ dep { ρ with duties := bindDuty n f isOpen ρ.duties } =
      { ρ with duties := ρ.duties.map (fun y => if y.duty = n then y.departs f isOpen dep else y) } := by
  unfold DepartAsk.record bindDuty
  cases isOpen with
  | false => rfl
  | true =>
    dsimp only
    rw [if_pos rfl, map_ofDuty_map (φ := Duty.boundTo f) (fun _ => rfl)]
    rfl

/-- R156: an entry whose departure is undone: an open duty is open again, and another keeps no binding. -/
def Duty.undeparted (isOpen : Bool) (y : Duty) : Duty := if isOpen then { y with fleet := none, bound := false } else unbound y

theorem unbind_bindDuty (n f g : Nat) (isOpen : Bool) (owner : Owner) (l : List Duty) :
    DepartAsk.unbind ⟨some n, g, owner⟩ (bindDuty n f isOpen l) =
      l.map (fun y => if y.duty = n then y.undeparted isOpen else y) := by
  unfold DepartAsk.unbind bindDuty
  cases isOpen with
  | false => rfl
  | true =>
    dsimp only
    rw [if_pos rfl, map_ofDuty_map (φ := Duty.boundTo f) (fun _ => rfl)]
    rfl

/-! ## A departure by duty, by fleet (R153–R156) -/

section

variable (he : s.duty n = some e) (hd : e.departure = none)
  (htram : e.fleet = some f ∨ (e.fleet = none ∧ IsSelected e f siding r x s))
include he hd htram

theorem departDuty_departs (hmay : MayDepart f siding e.gate k i r x d s) (owner : Owner) :
    ∃ u, s.departDuty n owner = (u, requestAnswer d [.u16 n, .u16 f, .u8 siding, .u8 k, .u8 (requestPlace d s)] s) ∧
      Departs ⟨some n, e.gate, owner⟩ f siding k i r d s { s.roster with duties := s.roster.duties.map (fun y =>
        if y.duty = n then y.departs f e.fleet.isNone ⟨f, siding, e.gate, k, owner, slotTaken d s, .called⟩ else y) } u := by
  obtain ⟨u, hrequest, hdeparts⟩ := requestDeparture_departs (q := ⟨some n, e.gate, owner⟩) hmay (bindDuty n f e.fleet.isNone)
  rw [record_bindDuty] at hdeparts
  exact ⟨u, (departDuty_called he hd hmay.1 htram owner).trans hrequest, hdeparts⟩

theorem departDuty_undone (hcall : MayBeCalled f siding e.gate i r x s)
    (hrefusal : departureRefusal siding e.gate s = some (why, object)) (owner : Owner) :
    ∃ u, s.departDuty n owner = (u, ⟨.refused, some why, object⟩) ∧
      CallUndone f siding i (.dutyDeparture n) r (s.roster.duties.map (fun y =>
        if y.duty = n then y.undeparted e.fleet.isNone else y)) s.claims none s u := by
  have hundone := undoCall_undone (q := ⟨some n, e.gate, owner⟩) hcall (bindDuty n f e.fleet.isNone)
  rw [unbind_bindDuty] at hundone
  obtain ⟨hstands, hcheck, hheld⟩ := hcall
  have hyard : SameYard s ((s.callClaim f (.dutyDeparture n)).1.onDuties (bindDuty n f e.fleet.isNone)) :=
    (sidingTaken_callClaim hstands.2 hcheck _).acts.sameYard.trans ⟨rfl, rfl, rfl, rfl, rfl⟩
  exact ⟨_, (departDuty_called he hd ⟨hstands, hcheck, hheld⟩ htram owner).trans
    (requestDeparture_undone ((departureRefusal_sameYard hyard _ _).trans hrefusal)), hundone⟩

end

section

variable (hlow : 1 ≤ f) (hhigh : f ≤ 4095) (hgate : (Tbl.find g s.gates).isSome = true)
  (hnone : ∀ y ∈ s.roster.duties, y.fleet ≠ some f)
include hlow hhigh hgate hnone

/-- R153: a DEPART of a fleet that no duty has, which may be called. -/
theorem departFleet_called (hcall : MayBeCalled f siding g i r x s) (owner : Owner) : s.departFleet f g owner =
    (s.callClaim f (.fleetDeparture g)).1.requestDeparture ⟨none, g, owner⟩ f siding := by
  obtain ⟨-, hcheck, hheld⟩ := hcall
  have hargs : ¬(f = 0 ∨ 4095 < f ∨ Tbl.find g s.gates = none) := by
    have hfound := Option.isSome_iff_ne_none.mp hgate
    rintro (h | h | h)
    · omega
    · omega
    · exact hfound h
  have hfree : s.roster.duties.find? (fun d => d.fleet = some f) = none := by simpa using hnone
  rw [departFleet_eq, if_neg hargs, hheld, hfree]
  exact departNamed_called hcheck _

theorem departFleet_departs (hmay : MayDepart f siding g k i r x d s) (owner : Owner) :
    ∃ u, s.departFleet f g owner = (u, requestAnswer d [.u16 65535, .u16 f, .u8 siding, .u8 k, .u8 (requestPlace d s)] s) ∧
      Departs ⟨none, g, owner⟩ f siding k i r d s { s.roster with
        fleetDepartures := s.roster.fleetDepartures.filter (fun y => y.fleet ≠ f) ++
          [⟨f, siding, g, k, owner, slotTaken d s, .called⟩] } u := by
  obtain ⟨u, hrequest, hdeparts⟩ := requestDeparture_departs (q := ⟨none, g, owner⟩) hmay id
  exact ⟨u, (departFleet_called hlow hhigh hgate hnone hmay.1 owner).trans hrequest, hdeparts⟩

theorem departFleet_undone (hcall : MayBeCalled f siding g i r x s)
    (hrefusal : departureRefusal siding g s = some (why, object)) (owner : Owner) :
    ∃ u, s.departFleet f g owner = (u, ⟨.refused, some why, object⟩) ∧
      CallUndone f siding i (.fleetDeparture g) r s.roster.duties s.claims none s u := by
  have hundone := undoCall_undone (q := ⟨none, g, owner⟩) hcall id
  obtain ⟨hstands, hcheck, hheld⟩ := hcall
  have hyard : SameYard s (s.callClaim f (.fleetDeparture g)).1 := (sidingTaken_callClaim hstands.2 hcheck _).acts.sameYard
  exact ⟨_, (departFleet_called hlow hhigh hgate hnone ⟨hstands, hcheck, hheld⟩ owner).trans
    (requestDeparture_undone (q := ⟨none, g, owner⟩) ((departureRefusal_sameYard hyard _ _).trans hrefusal)), hundone⟩

end

/-! ## The statements (R153–R156) -/

theorem depart_refusals : departRefusals := by
  intro q s ho answers refused
  have hanswers {duty fleet gate : Option Nat} {a : Ans} (h : takeDepart q.port duty fleet gate (s.take (.depart q duty fleet gate)) =
      (s.take (.depart q duty fleet gate), a)) : answers (.depart q duty fleet gate) a :=
    ⟨_, exec_depart ho h, effect_answer s _ _ _ _ _⟩
  refine ⟨?_, ?_, ?_⟩
  · intro n c
    cases he : s.roster.duties.find? (fun d => d.duty = n) with
    | none => exact hanswers (departDuty_absent (s := s.take c) he _)
    | some e =>
      have hfound := departDuty_found (s := s.take c) he (portOwner q.port)
      dsimp only
      by_cases hd : e.departure.isSome = true
      · rw [if_pos hd] at hfound ⊢
        exact hanswers hfound
      rw [if_neg hd] at hfound ⊢
      by_cases hheld : s.lineHeld e.gate = true
      · rw [if_pos hheld]
        exact hanswers (hfound.trans (if_pos hheld))
      rw [if_neg hheld]
      cases hfleet : e.fleet with
      | some f => exact fun a hcheck => hanswers (departDuty_refused (s := s.take c) he hd hheld hfleet hcheck _)
      | none => exact fun hnone => hanswers (departDuty_noTram (s := s.take c) he hd hheld hfleet hnone _)
  · intro f g c
    have hfleet := departFleet_eq (s.take c) f g (portOwner q.port)
    by_cases hargs : f = 0 ∨ 4095 < f ∨ Tbl.find g s.gates = none
    · rw [if_pos hargs]
      exact hanswers (hfleet.trans (if_pos hargs))
    rw [if_neg hargs]
    replace hfleet := hfleet.trans (if_neg hargs)
    by_cases hheld : s.lineHeld g = true
    · rw [if_pos hheld]
      exact hanswers (hfleet.trans (if_pos hheld))
    rw [if_neg hheld]
    replace hfleet := hfleet.trans (if_neg hheld)
    rw [State.take_roster] at hfleet
    cases he : s.roster.duties.find? (fun d => d.fleet = some f) with
    | some e =>
      rw [he] at hfleet
      exact hanswers hfleet
    | none =>
      intro a hcheck
      rw [he] at hfleet
      exact hanswers (hfleet.trans (departNamed_refused (s := s.take c) hcheck _))
  · intro duty fleet gate hduty hfleet
    refine hanswers ?_
    rcases duty with _ | n <;> rcases fleet with _ | f <;> rcases gate with _ | g <;> simp_all [takeDepart, Ans.refused]

theorem depart_isMade : departIsMade := by
  intro q f siding g k i r x d s ho hmay owner made
  refine ⟨fun n e he hd hfleet hg => ?_, fun hlow hhigh hgate hnone => ?_⟩
  · subst hg
    obtain ⟨u, hdepart, hdeparts⟩ := departDuty_departs (s := s.take (.depart q (some n) none none)) he hd (.inl hfleet) hmay
      (portOwner q.port)
    rw [hfleet] at hdeparts
    exact ⟨_, exec_depart ho hdepart, hdeparts.replied q _⟩
  · obtain ⟨u, hdepart, hdeparts⟩ := departFleet_departs (s := s.take (.depart q none (some f) (some g))) hlow hhigh hgate hnone hmay
      (portOwner q.port)
    exact ⟨_, exec_depart ho hdepart, hdeparts.replied q _⟩

theorem openDuty_departs : openDutyDeparts := by
  intro q n f siding k i e r x d s ho he hd hfleet hmay hselected owner c
  obtain ⟨u, hdepart, hdeparts⟩ := departDuty_departs (s := s.take c) he hd (.inr ⟨hfleet, hselected⟩) hmay (portOwner q.port)
  rw [hfleet] at hdeparts
  exact ⟨_, exec_depart ho hdepart, hdeparts.replied q _⟩

theorem depart_isUndone : departIsUndone := by
  intro q f siding g i r x why object s hcall hrefusal a undone
  refine ⟨?_, fun ho hlow hhigh hgate hnone => ?_⟩
  · intro n e he hd hg htram duties
    subst hg
    have hduties : s.roster.duties.map (fun y => if y.duty = n then y.undeparted e.fleet.isNone else y) = duties := by
      refine List.map_congr_left fun y _ => ?_
      unfold Duty.undeparted
      cases e.fleet <;> rfl
    refine ⟨fun ho => ?_, fun owner => ?_⟩
    · obtain ⟨u, hdepart, hundone⟩ := departDuty_undone (s := s.take (.depart q (some n) none none)) he hd htram hcall hrefusal
        (portOwner q.port)
      rw [State.take_roster, hduties] at hundone
      exact ⟨_, exec_depart ho hdepart, callUndone_replied hundone .depart q _⟩
    · obtain ⟨u, hdepart, hundone⟩ := departDuty_undone he hd htram hcall hrefusal owner
      rw [hduties] at hundone
      rw [hdepart]
      exact ⟨rfl, hundone⟩
  · obtain ⟨u, hdepart, hundone⟩ := departFleet_undone (s := s.take (.depart q none (some f) (some g))) hlow hhigh hgate hnone hcall
      hrefusal (portOwner q.port)
    exact ⟨_, exec_depart ho hdepart, callUndone_replied hundone .depart q _⟩

/-- Settles O37: the refusals in order (`departDuty_found`, `departFleet_eq`), the tram selected (`firstRanked_selected`), and the
departure made (`requestDeparture_departs`) or undone (`undoCall_taken`). -/
theorem departIsDecided : Obligations.DepartIsDecided :=
  ⟨depart_refusals, depart_isMade, selection_candidates, openDuty_departs, depart_isUndone⟩

end

end Sys2Proof.Machine

/-! # The clock and the minute event (08 sections 8.2, 8.6) -/

namespace Sys2Proof.Machine

section

variable {s t u : State} {f n m k i now siding : Nat} {r : SidingRec} {x : StackRec} {d : RouteDef} {e : Duty} {ρ : Roster} {a : Ans}
  {q : Req} {parts : List Part} {claims : List Instr} {posts : State → State} {answer : Option (Kind × Req × Ans)}
  {test : Duty → State → State}

/-! ## The clock (R150) -/

/-- R150: notices stamped with the minute that the taking sets: the roster block's state is given first. -/
theorem effect_atRoster (h : Effect parts claims posts answer (s.onRoster (fun _ => ρ)) t) (hr : .roster ∈ parts) :
    Effect parts claims (fun x => posts (x.onRoster (fun _ => ρ))) answer s t := by
  obtain ⟨⟨hpending, huptime, hparts⟩, hrest⟩ := h
  have hport (p : Port) : (s.onRoster (fun _ => ρ)).port p = s.port p := port_onRoster s p _
  refine ⟨⟨hpending, huptime, fun y hy => ?_⟩, hrest⟩
  have hsame := hparts y hy
  cases y with
  | roster => exact absurd hr hy
  | _ => exact hsame

/-- R150: the roster block with the clock set and a full minute timer. -/
def Roster.clockSet (m : Nat) (ρ : Roster) : Roster := { ρ with clock := some m, minuteTimer := some 60000 }

theorem takeClockSet_late (h : ¬m ≤ 2879) : takeClockSet m s = (s, .refused .badArgument) := if_pos (Nat.not_le.mp h)

theorem takeClockSet_sets (h : m ≤ 2879) : takeClockSet m s =
    ((s.onRoster (Roster.clockSet m)).post .roster 1
      [.u16 (s.roster.clock.getD 65535), .u16 m], .done) := if_neg (Nat.not_lt.mpr h)

theorem clock_isSet (q : Req) (m : Nat) (s : State) (hport : q.port = .planner) (ho : InRun q s) :
    ∃ u, exec (.clockSet q m) s = .next u.settle ∧
      Effect [.roster] (s.claims.erase (.clockSet q m))
        (fun x => if m ≤ 2879 then
          ({ x with roster := u.roster }).post .roster 1 [.u16 (s.roster.clock.getD 65535), .u16 m] else x)
        (some (.clockSet, q, if m ≤ 2879 then ⟨.done, none, []⟩ else ⟨.refused, some .badArgument, []⟩)) s u ∧
      u.roster = if m ≤ 2879 then { s.roster with clock := some m, minuteTimer := some 60000 } else s.roster := by
  have hexec : exec (.clockSet q m) s = _ := takeRequest_run (k := .clockSet) (i := .clockSet q m) (by rw [hport]; rfl) rfl rfl ho rfl
    (takeClockSet m)
  by_cases hm : m ≤ 2879
  · simp only [if_pos hm]
    rw [takeClockSet_sets hm] at hexec
    have hset := (rosterTaken_none ((s.onRoster (fun _ => s.roster.clockSet m)).take (.clockSet q m))).post .roster 1
      [.u16 (s.roster.clock.getD 65535), .u16 m]
    obtain ⟨u, hu, heffect, hroster⟩ : ∃ u, exec (.clockSet q m) s = .next u.settle ∧ Effect [.roster] (s.claims.erase (.clockSet q m))
        (fun x => x.post .roster 1 [.u16 (s.roster.clock.getD 65535), .u16 m]) (some (.clockSet, q, .done))
        (s.onRoster (fun _ => s.roster.clockSet m)) u ∧ u.roster = s.roster.clockSet m := by
      exact ⟨_, hexec, hset.replied .clockSet q .done⟩
    refine ⟨u, hu, ?_, hroster⟩
    rw [hroster]
    exact effect_atRoster heffect (by simp)
  · simp only [if_neg hm]
    rw [takeClockSet_late hm] at hexec
    exact ⟨_, hexec, (rosterTaken_none (s.take (.clockSet q m))).replied .clockSet q _⟩

theorem exec_minute_unset (h : s.roster.clock = none) : exec .minuteTimerExpiry s = .next s.settle := by
  change execMinuteTimerExpiry s = _
  unfold execMinuteTimerExpiry
  rw [h]
  rfl

theorem exec_minute_rests (h : s.roster.clock = some m) (hm : ¬m < 2879) : exec .minuteTimerExpiry s =
    .next (s.onRoster (fun r => { r with minuteTimer := some 60000 })).settle := by
  change execMinuteTimerExpiry s = _
  unfold execMinuteTimerExpiry
  rw [h]
  exact if_pos (Nat.not_lt.mp hm)

theorem exec_minute_advances (h : s.roster.clock = some m) (hm : m < 2879) : exec .minuteTimerExpiry s = .next
    (((s.roster.duties.filter (fun d => d.departure.isNone)).map Duty.duty).foldl (State.minuteTests (m + 1))
      { s with roster := { s.roster with clock := some (m + 1), minuteTimer := some 60000 } }).settle := by
  have hplanned : (fun d : Duty => !d.isCalled) = fun d => d.departure.isNone := funext fun d => Option.not_isSome d.departure
  change execMinuteTimerExpiry s = _
  unfold execMinuteTimerExpiry State.minuteEvent
  rw [h, hplanned]
  exact if_neg (Nat.not_le.mpr hm)

theorem minute_advances (s : State)
    (h : (∀ d ∈ s.roster.duties, d.departure.isSome) ∨ s.roster.clock = none ∨ s.roster.clock = some 2879) :
    ∃ u, exec .minuteTimerExpiry s = .next u.settle ∧ Effect [.roster] s.claims id none s u ∧
      u.roster = match s.roster.clock with
        | none => s.roster
        | some m => { s.roster with clock := some (if m < 2879 then m + 1 else m), minuteTimer := some 60000 } := by
  cases hclock : s.roster.clock with
  | none => exact ⟨s, exec_minute_unset hclock, effect_none s _, rfl⟩
  | some m =>
    dsimp only
    by_cases hm : m < 2879
    · have hcalled : ∀ d ∈ s.roster.duties, d.departure.isSome := by
        rcases h with h | h | h
        · exact h
        · rw [hclock] at h
          cases h
        · rw [hclock] at h
          cases h
          exact absurd hm (Nat.lt_irrefl _)
      have hnone : s.roster.duties.filter (fun d => d.departure.isNone) = [] :=
        List.filter_eq_nil_iff.mpr fun d hd => by simpa [Option.isSome_iff_ne_none] using hcalled d hd
      have hexec := exec_minute_advances hclock hm
      rw [hnone] at hexec
      rw [if_pos hm]
      exact ⟨_, hexec, effect_onRoster s (fun ρ => { ρ with clock := some (m + 1), minuteTimer := some 60000 }), rfl⟩
    · rw [if_neg hm]
      refine ⟨_, exec_minute_rests hclock hm, effect_onRoster s _, ?_⟩
      rw [← hclock]
      rfl

theorem clock_isSetAndAdvances : clockIsSetAndAdvances := ⟨clock_isSet, minute_advances⟩

/-! ## The auto-call test (R160) -/

theorem autoDue_iff (s : State) (now : Nat) (e : Duty) : s.autoDue now e = true ↔ e.due ≤ now + s.param.callLead ∧
    s.roster.auto e.gate = true ∧ s.lineHeld e.gate = false ∧ s.roster.halt = false := by
  simp [State.autoDue, and_assoc]

theorem autoCall_passed (h : s.autoDue now e = false) : s.autoCall now e = s := by
  unfold State.autoCall
  rw [h]
  rfl

theorem autoCall_made (h : s.autoDue now e = true) {results : List Field} (hdepart : s.departDuty e.duty .auto =
    (t, requestAnswer d results s)) : s.autoCall now e = t := by
  unfold State.autoCall
  rw [if_pos h, hdepart]
  unfold requestAnswer
  cases (slotTaken d s).isSome <;> rfl

theorem autoCall_refused {why : Reason} {l : List Field} (h : s.autoDue now e = true)
    (hdepart : s.departDuty e.duty .auto = (t, ⟨.refused, some why, l⟩)) :
    let noted := t.onDuty e.duty (fun x => { x with lastRefusal := some why })
    s.autoCall now e = if why = .blocked ∧ e.dueNotified = false then
      dueNotice e.duty e.fleet 13 l (noted.onDuty e.duty (fun x => { x with dueNotified := true })) else noted := by
  unfold State.autoCall
  rw [if_pos h, hdepart]
  rfl

theorem minuteEvent_calls : minuteEventCalls :=
  ⟨fun _ _ hclock hm => exec_minute_advances hclock hm,
    fun now e s => ⟨autoDue_iff s now e, autoCall_passed, fun _ _ _ hdue hdepart => autoCall_refused hdue hdepart⟩⟩

theorem autoCall_isRefused : autoCallIsRefused := by
  intro n e s he hd hheld
  have hplanned : ¬e.departure.isSome = true := by simp [hd]
  have hfree : ¬s.lineHeld e.gate = true := by simp [hheld]
  cases hfleet : e.fleet with
  | some f => exact fun a hcheck => departDuty_refused he hplanned hfree hfleet hcheck .auto
  | none => exact fun hnone => departDuty_noTram he hplanned hfree hfleet hnone .auto

theorem autoCall_isMade : autoCallIsMade := by
  intro now n f siding k i e r x d s hdue he hd hmay htram
  obtain rfl : e.duty = n := duty_number he
  obtain ⟨u, hdepart, hdeparts⟩ := departDuty_departs he hd htram hmay .auto
  rw [autoCall_made hdue hdepart]
  exact ⟨hdeparts.made, hdeparts.taken.roster⟩

/-! ## The due test and the late test (R161, R162) -/

/-- R161: where a fleet stands behind others, with those outside it, or is not ready. -/
def standsBack (f : Nat) (s : State) : Option (Nat × List Nat) :=
  match s.findTram f with
  | some (_, r, i, x) =>
    if x.state = .stabled then
      if i + 1 = r.stack.length then none
      else some (13, (((r.stack.drop (i + 1)).reverse).take 5).map StackRec.fleet)
    else some (3, [])
  | none => some (3, [])

/-- R161: what the due test of an entry posts: the fleet, and where it stands. -/
def dueFound (now : Nat) (e : Duty) (s : State) : Option (Nat × Nat × List Nat) :=
  match e.fleet with
  | some f => if e.dueNotified = false ∧ e.due ≤ now + s.param.dueNoticeLead then (standsBack f s).map (fun p => (f, p)) else none
  | none => none

/-- R162: whether the late test of an entry posts. -/
def lateFound (now : Nat) (e : Duty) : Bool := !e.lateNotified && decide (e.due < now)

def dueNotices (n : Nat) (found : Option (Nat × Nat × List Nat)) (s : State) : State :=
  match found with
  | some (f, k, l) => dueNotice n (some f) k (.u8 l.length :: l.map .u16) s
  | none => s

def lateNotices (n : Nat) (e : Duty) (found : Bool) (s : State) : State :=
  if found then s.post .roster 7 [.u16 n, .u16 e.due, .u16 (e.fleet.getD 65535), .u8 ((e.lastRefusal.map Reason.code).getD 0)] else s

theorem standsBack_outermost (h : s.standing f = .outermost) : standsBack f s = none := by
  unfold State.standing at h
  unfold standsBack
  cases hfind : s.findTram f with
  | none => rw [hfind] at h; cases h
  | some v =>
    rw [hfind] at h
    dsimp only at h ⊢
    split_ifs at h with hstabled houter
    rw [if_pos hstabled, if_pos houter]

theorem standsBack_blocked {l : List Nat} (h : s.standing f = .blocked l) : standsBack f s = some (13, l) := by
  unfold State.standing at h
  unfold standsBack
  cases hfind : s.findTram f with
  | none => rw [hfind] at h; cases h
  | some v =>
    rw [hfind] at h
    dsimp only at h ⊢
    split_ifs at h with hstabled houter
    cases h
    rw [if_pos hstabled, if_neg houter]
    rfl

theorem standsBack_notReady (h : s.standing f = .notReady) : standsBack f s = some (3, []) := by
  unfold State.standing at h
  unfold standsBack
  cases hfind : s.findTram f with
  | none => rfl
  | some v =>
    rw [hfind] at h
    dsimp only at h ⊢
    split_ifs at h with hstabled houter
    rw [if_neg hstabled]

theorem dueTest_eq (now : Nat) (e : Duty) (s : State) : s.dueTest now e = match dueFound now e s with
    | some (f, k, l) => dueNotice e.duty (some f) k (.u8 l.length :: l.map .u16) (s.onDuty e.duty (fun x => { x with dueNotified := true }))
    | none => s := by
  unfold State.dueTest dueFound
  cases e.fleet with
  | none => rfl
  | some f =>
    dsimp only
    by_cases hdue : e.dueNotified = false ∧ e.due ≤ now + s.param.dueNoticeLead
    · rw [if_pos hdue, if_pos hdue]
      cases hstands : s.standing f with
      | outermost => rw [standsBack_outermost hstands]; rfl
      | blocked l =>
        rw [standsBack_blocked hstands, Option.map_some]
        dsimp only
        unfold State.postDueBlocked dueNotice fList16 fList
        rw [List.length_map]
        rfl
      | notReady => rw [standsBack_notReady hstands]; rfl
    · rw [if_neg hdue, if_neg hdue]

/-- R161: an entry whose due test has posted, or not. -/
def Duty.dueTested (posted : Bool) (y : Duty) : Duty := { y with dueNotified := y.dueNotified || posted }

/-- R162: an entry whose late test has posted, or not. -/
def Duty.lateTested (posted : Bool) (y : Duty) : Duty := { y with lateNotified := y.lateNotified || posted }

/-- The roster block with the entry of one duty changed. -/
def Roster.onDuty (n : Nat) (φ : Duty → Duty) (ρ : Roster) : Roster :=
  { ρ with duties := ρ.duties.map (fun y => if y.duty = n then φ y else y) }

theorem Roster.onDuty_onDuty {φ ψ : Duty → Duty} (hφ : ∀ y, (φ y).duty = y.duty) (n : Nat) (ρ : Roster) :
    (ρ.onDuty n φ).onDuty n ψ = ρ.onDuty n (fun y => ψ (φ y)) :=
  congrArg (fun l => { ρ with duties := l }) (map_ofDuty_map hφ n ρ.duties)

theorem Roster.onDuty_same {φ : Duty → Duty} (hφ : ∀ y, φ y = y) (n : Nat) (ρ : Roster) : ρ.onDuty n φ = ρ :=
  congrArg (fun l => { ρ with duties := l }) (map_ofDuty_same hφ n ρ.duties)

theorem posts_dueNotices (n : Nat) (found : Option (Nat × Nat × List Nat)) : Posts (dueNotices n found) := by
  unfold dueNotices
  cases found with
  | none => exact .none
  | some v => exact posts_one _ _ _

theorem dueTest_taken (now : Nat) (e : Duty) (s : State) :
    RosterTaken [.roster] [] (dueNotices e.duty (dueFound now e s)) s
      (s.roster.onDuty e.duty (Duty.dueTested (dueFound now e s).isSome)) (s.dueTest now e) ∧
    ∀ y, s.duty e.duty = some y → (s.dueTest now e).duty e.duty = some (y.dueTested (dueFound now e s).isSome) := by
  have hbegin := rosterTaken_none s
  rw [dueTest_eq]
  cases dueFound now e s with
  | none =>
    have hsame (y : Duty) : y.dueTested false = y := by simp [Duty.dueTested]
    refine ⟨?_, fun y hy => hy.trans (congrArg some (hsame y).symm)⟩
    rw [Option.isSome_none, Roster.onDuty_same hsame]
    exact hbegin
  | some v =>
    have hset (y : Duty) : { y with dueNotified := true } = y.dueTested true := by simp [Duty.dueTested]
    simp only [hset, Option.isSome_some]
    exact ⟨(hbegin.onDuty e.duty (Duty.dueTested true)).posts (posts_dueNotices e.duty (some v)),
      fun y hy => duty_onDuty (fun _ => rfl) hy⟩

theorem lateTest_taken (now : Nat) (e : Duty) (s : State) :
    RosterTaken [.roster] [] (lateNotices e.duty e (lateFound now e)) s
      (s.roster.onDuty e.duty (Duty.lateTested (lateFound now e))) (s.lateTest now e) := by
  have hbegin := rosterTaken_none s
  have hfound : lateFound now e = decide (e.lateNotified = false ∧ e.due < now) := by simp [lateFound]
  unfold State.lateTest
  rw [hfound]
  by_cases hlate : e.lateNotified = false ∧ e.due < now
  · have hset (y : Duty) : { y with lateNotified := true } = y.lateTested true := by simp [Duty.lateTested]
    rw [if_pos hlate, decide_eq_true hlate]
    simp only [hset]
    exact (hbegin.onDuty e.duty (Duty.lateTested true)).post _ _ _
  · have hsame (y : Duty) : y.lateTested false = y := by simp [Duty.lateTested]
    rw [if_neg hlate, decide_eq_false hlate, Roster.onDuty_same hsame]
    exact hbegin

/-! ## The tests of one entry (R160–R162) -/

theorem ifPlanned_absent (h : s.duty n = none) : s.ifPlanned n test = s := by
  unfold State.ifPlanned
  rw [h]

theorem ifPlanned_called (h : s.duty n = some e) (hd : e.departure.isSome = true) : s.ifPlanned n test = s := by
  unfold State.ifPlanned
  rw [h]
  exact if_pos hd

theorem ifPlanned_planned (h : s.duty n = some e) (hd : ¬e.departure.isSome = true) : s.ifPlanned n test = test e s := by
  unfold State.ifPlanned
  rw [h]
  exact if_neg hd

/-- R161, R162: the due test, and then the late test of the entry as the due test left it. -/
theorem dueAndLate_tested (he : s.duty n = some e) (hd : ¬e.departure.isSome = true) (now : Nat) :
    DueAndLateTests now n e s ((s.ifPlanned n (State.dueTest now)).ifPlanned n (State.lateTest now)) := by
  obtain rfl : e.duty = n := duty_number he
  obtain ⟨hdue, hduty⟩ := dueTest_taken now e s
  have hlate : RosterTaken [.roster] [] (lateNotices e.duty e (lateFound now e)) (s.dueTest now e)
      ((s.dueTest now e).roster.onDuty e.duty (Duty.lateTested (lateFound now e))) _ :=
    lateTest_taken now (e.dueTested (dueFound now e s).isSome) (s.dueTest now e)
  rw [ifPlanned_planned he hd, ifPlanned_planned (hduty e he) hd]
  have hboth := hdue.then hlate
  rw [hdue.roster, Roster.onDuty_onDuty (φ := Duty.dueTested _) (fun _ => rfl)] at hboth
  exact hboth.unsent

theorem minuteEvent_tests : minuteEventTests := by
  intro now n s entry
  have hrest (v : State) (e : Option Duty) (h : entry v = e) : v.duty n = e := h
  cases he : entry s with
  | none =>
    have hs := hrest s none he
    unfold State.minuteTests
    dsimp only
    rw [ifPlanned_absent hs, ifPlanned_absent hs, ifPlanned_absent hs]
  | some e =>
    have hs := hrest s _ he
    dsimp only
    by_cases hd : e.departure.isSome = true
    · rw [if_pos hd]
      unfold State.minuteTests
      rw [ifPlanned_called hs hd, ifPlanned_called hs hd, ifPlanned_called hs hd]
    rw [if_neg hd]
    have htests : s.minuteTests now n =
        ((s.autoCall now e).ifPlanned n (State.dueTest now)).ifPlanned n (State.lateTest now) := by
      unfold State.minuteTests
      rw [ifPlanned_planned hs hd]
    cases hy : entry (s.autoCall now e) with
    | none =>
      have hcalled := hrest _ none hy
      dsimp only
      rw [htests, ifPlanned_absent hcalled, ifPlanned_absent hcalled]
    | some y =>
      have hcalled := hrest _ _ hy
      dsimp only
      by_cases hyd : y.departure.isSome = true
      · rw [if_pos hyd, htests, ifPlanned_called hcalled hyd, ifPlanned_called hcalled hyd]
      · rw [if_neg hyd, htests]
        exact dueAndLate_tested hcalled hyd now

/-- Settles O35: the clock (`effect_atRoster`), the auto-call as a DEPART by duty (`departDuty_departs`), and the due and late tests. -/
theorem clockAndMinuteEvent : Obligations.ClockAndMinuteEvent :=
  ⟨clock_isSetAndAdvances, minuteEvent_calls, minuteEvent_tests, autoCall_isMade, autoCall_isRefused⟩

end

end Sys2Proof.Machine

/-! # The halt flag and a restart at the roster block (08 sections 8.1, 8.9) -/

namespace Sys2Proof.Machine

/-- An operation that reads of the roster block the clock alone, and leaves the block. -/
def ReadsClock (op : State → State) : Prop :=
  ∀ (s : State) (ρ : Roster), ρ.clock = s.roster.clock →
    op (s.onRoster (fun _ => ρ)) = (op s).onRoster (fun _ => ρ) ∧ (op s).roster = s.roster

/-- R165: what undoing departures comes to: in the stabling block, where it leaves the shunt table and the hand-over. -/
structure Undoes (s t : State) : Prop where
  touches : Touches [.stabling] s t
  shunts : t.stab.shunts = s.stab.shunts
  handed : t.stab.handed = s.stab.handed

/-- R165: one entry of the roster at a restart, of the other blocks: the claims and the alarm of its departure, and its notice. -/
def State.undoDuty (t : State) (y : Duty) : State :=
  match y.departure with
  | none => t
  | some d =>
    (t.dropDeparture (.dutyDeparture y.duty) d).post .roster 2
      [.u16 y.duty, .u16 y.due, .u8 y.gate, .u16 (((restartedDuty y).getD y).fleet.getD 65535),
        .u8 (if ((restartedDuty y).getD y).departure.isSome then 2 else 1), .u8 5]

/-- R165: the roster block with its entries restarted. -/
def Roster.restarted (ρ : Roster) : Roster := { ρ with duties := ρ.duties.filterMap restartedDuty }

section

variable {s t u : State} {op op' : State → State} {c : Instr} {f n : Nat} {p : StackPurpose} {d : Departure} {y : Duty} {ρ : Roster}

/-! ## What reads the clock alone -/

theorem ReadsClock.then (h : ReadsClock op) (h' : ReadsClock op') : ReadsClock (fun s => op' (op s)) := by
  intro s ρ hρ
  obtain ⟨hop, hroster⟩ := h s ρ hρ
  obtain ⟨hop', hroster'⟩ := h' (op s) ρ (hρ.trans (congrArg Roster.clock hroster.symm))
  exact ⟨(congrArg op' hop).trans hop', hroster'.trans hroster⟩

theorem readsClock_foldl {α : Type} {step : State → α → State} (h : ∀ a, ReadsClock (fun s => step s a)) (l : List α) :
    ReadsClock (fun s => l.foldl step s) := by
  induction l with
  | nil => exact fun _ _ _ => ⟨rfl, rfl⟩
  | cons a l ih => exact (h a).then ih

theorem readsClock_post (g : Group) (k : Nat) (fs : List Field) : ReadsClock (State.post g k fs) := by
  intro s ρ hρ
  have hminute : (s.onRoster (fun _ => ρ)).minute = s.minute := hρ
  unfold State.post
  rw [hminute]
  exact ⟨rfl, rfl⟩

theorem readsClock_send (c : Instr) : ReadsClock (State.send c) := fun _ _ _ => ⟨rfl, rfl⟩

theorem readsClock_onSiding (n : Nat) (φ : SidingRec → SidingRec) : ReadsClock (State.onSiding n φ) := fun _ _ _ => ⟨rfl, rfl⟩

theorem readsClock_report (cause : StackCause) (g : Option Nat) : ReadsClock (State.report cause g) := fun s ρ hρ =>
  readsClock_foldl (fun g' => readsClock_send (.stackingReport g' (s.stackReport cause g))) (Tbl.keys s.gates) s ρ hρ

theorem readsClock_postSiding (n : Nat) (cause : StackCause) : ReadsClock (State.postSiding n cause) := by
  intro s ρ hρ
  have hstab : (s.onRoster (fun _ => ρ)).stab = s.stab := rfl
  unfold State.postSiding
  rw [hstab]
  cases Tbl.find n s.stab.sidings with
  | none => exact ⟨rfl, rfl⟩
  | some r => exact readsClock_post _ _ _ s ρ hρ

theorem readsClock_uncallClaim (f : Nat) (p : StackPurpose) : ReadsClock (State.uncallClaim f p) := by
  intro s ρ hρ
  have hfind : (s.onRoster (fun _ => ρ)).findTram f = s.findTram f := rfl
  unfold State.uncallClaim
  rw [hfind]
  cases s.findTram f with
  | none => exact ⟨rfl, rfl⟩
  | some v =>
    dsimp only
    split_ifs
    · exact (((readsClock_onSiding _ _).then (readsClock_post _ _ _)).then (readsClock_report _ _)) s ρ hρ
    · exact ⟨rfl, rfl⟩

theorem readsClock_doubtClaim (n : Nat) (cause : StackCause) : ReadsClock (State.doubtClaim n cause) := by
  intro s ρ hρ
  have hstab : (s.onRoster (fun _ => ρ)).stab = s.stab := rfl
  unfold State.doubtClaim State.setDoubt
  rw [hstab]
  cases Tbl.find n s.stab.sidings with
  | none => exact ⟨rfl, rfl⟩
  | some r =>
    dsimp only
    split_ifs
    · exact (((readsClock_onSiding _ _).then (readsClock_postSiding _ _)).then (readsClock_report _ _)) s ρ hρ
    · exact ⟨rfl, rfl⟩

theorem readsClock_dropDeparture (p : StackPurpose) (d : Departure) : ReadsClock (State.dropDeparture p d) := by
  intro s ρ hρ
  unfold State.dropDeparture
  cases d.progress with
  | called => exact readsClock_uncallClaim _ _ s ρ hρ
  | entered => exact ((readsClock_uncallClaim _ _).then (readsClock_doubtClaim _ _)) s ρ hρ
  | pastMouth => exact readsClock_send _ s ρ hρ

theorem readsClock_restartFleet (d : Departure) : ReadsClock (fun s => s.restartFleet d) := readsClock_dropDeparture _ d

/-! ## What undoing departures leaves (R131, R133, R137) -/

theorem undoes_refl (s : State) : Undoes s s := ⟨touches_none s _, rfl, rfl⟩

theorem Undoes.trans (h : Undoes s t) (h' : Undoes t u) : Undoes s u :=
  ⟨h.touches.next h'.touches, h'.shunts.trans h.shunts, h'.handed.trans h.handed⟩

theorem undoes_foldl {α : Type} {step : State → α → State} (h : ∀ s a, Undoes s (step s a)) (l : List α) (s : State) :
    Undoes s (l.foldl step s) := by
  induction l generalizing s with
  | nil => exact undoes_refl s
  | cons a l ih => exact (h s a).trans (ih _)

/-- Operations that leave the stabling block. -/
theorem Touches.undoes (h : Touches [] s t) : Undoes s t :=
  ⟨h.mono (List.nil_subset _), congrArg Stabling.shunts h.stab, congrArg Stabling.handed h.stab⟩

theorem undoes_onSiding (s : State) (n : Nat) (φ : SidingRec → SidingRec) : Undoes s (s.onSiding n φ) :=
  ⟨(acts_onSiding s n φ).touches, rfl, rfl⟩

theorem undoes_uncallClaim (s : State) (f : Nat) (p : StackPurpose) : Undoes s (s.uncallClaim f p) := by
  unfold State.uncallClaim
  cases s.findTram f with
  | none => exact undoes_refl s
  | some v =>
    dsimp only
    split_ifs
    · exact ((undoes_onSiding s _ _).trans (acts_postStack _ _ _ _ _ _).touches.undoes).trans (touches_report _ _ _).undoes
    · exact undoes_refl s

theorem undoes_doubtClaim (s : State) (n : Nat) (cause : StackCause) : Undoes s (s.doubtClaim n cause) := by
  cases hr : Tbl.find n s.stab.sidings with
  | none =>
    rw [doubtClaim_absent hr]
    exact undoes_refl s
  | some r =>
    by_cases hknown : r.census = .known
    · have htaken := sidingTaken_doubtClaim hr hknown cause
      exact ⟨touches_doubtClaim s n cause, htaken.shunts, htaken.handed⟩
    · rw [doubtClaim_doubtful hr hknown]
      exact undoes_refl s

theorem undoes_dropDeparture (p : StackPurpose) (d : Departure) (s : State) : Undoes s (s.dropDeparture p d) := by
  unfold State.dropDeparture
  cases d.progress with
  | called => exact undoes_uncallClaim _ _ _
  | entered => exact (undoes_uncallClaim _ _ _).trans (undoes_doubtClaim _ _ _)
  | pastMouth => exact (acts_send s _).touches.undoes

theorem undoes_undoDuty (s : State) (y : Duty) : Undoes s (s.undoDuty y) := by
  unfold State.undoDuty
  cases y.departure with
  | none => exact undoes_refl s
  | some d => exact (undoes_dropDeparture _ d s).trans (acts_post _ _ _ _).touches.undoes

theorem Undoes.claims (h : Undoes s t) (hc : c ∈ s.claims) : c ∈ t.claims := by
  obtain ⟨_, _, hacts⟩ := h.touches
  rw [hacts.claims]
  exact List.mem_append_left _ hc

/-- R165: the alarm of a departure past the mouth. -/
theorem dropDeparture_raises (h : d.progress = .pastMouth) (p : StackPurpose) (s : State) :
    Instr.alarmRaise (.departureAbandoned d.fleet) ∈ (s.dropDeparture p d).claims := by
  unfold State.dropDeparture
  rw [h]
  exact List.mem_append_right _ List.mem_cons_self

theorem undoDuty_raises (hd : y.departure = some d) (h : d.progress = .pastMouth) (s : State) :
    Instr.alarmRaise (.departureAbandoned d.fleet) ∈ (s.undoDuty y).claims := by
  unfold State.undoDuty
  rw [hd]
  exact dropDeparture_raises h _ s

/-- What one step of a walk sends is in flight at its end. -/
theorem mem_claims_foldl {α : Type} {step : State → α → State} (hstep : ∀ s a, Undoes s (step s a)) {a : α}
    (hc : ∀ s, c ∈ (step s a).claims) {l : List α} (ha : a ∈ l) (s : State) : c ∈ (l.foldl step s).claims := by
  induction l generalizing s with
  | nil => cases ha
  | cons b l ih =>
    rcases List.mem_cons.mp ha with rfl | ha
    · exact (undoes_foldl hstep l _).claims (hc s)
    · exact ih ha _

/-! ## One entry after another (R165) -/

/-- The entry of a duty that no other entry has, changed or removed. -/
theorem map_ofDuty_between {φ : Duty → Duty} {pre l : List Duty} (hpre : ∀ a ∈ pre, a.duty ≠ y.duty) (hl : ∀ b ∈ l, b.duty ≠ y.duty) :
    (pre ++ y :: l).map (fun a => if a.duty = y.duty then φ a else a) = pre ++ φ y :: l := by
  have hsame {m : List Duty} (h : ∀ a ∈ m, a.duty ≠ y.duty) : m.map (fun a => if a.duty = y.duty then φ a else a) = m :=
    (List.map_congr_left fun a ha => if_neg (h a ha)).trans (List.map_id m)
  rw [List.map_append, List.map_cons, hsame hpre, hsame hl, if_pos rfl]

theorem filter_ofDuty_between {pre l : List Duty} (hpre : ∀ a ∈ pre, a.duty ≠ y.duty) (hl : ∀ b ∈ l, b.duty ≠ y.duty) :
    (pre ++ y :: l).filter (fun a => a.duty ≠ y.duty) = pre ++ l := by
  have hsame {m : List Duty} (h : ∀ a ∈ m, a.duty ≠ y.duty) : m.filter (fun a => a.duty ≠ y.duty) = m :=
    List.filter_eq_self.mpr fun a ha => decide_eq_true (h a ha)
  rw [List.filter_append, List.filter_cons_of_neg (by simp), hsame hpre, hsame hl]

theorem restartedDuty_planned (h : y.departure = none) : restartedDuty y = some y := by
  unfold restartedDuty
  rw [h]

theorem restartedDuty_pastMouth (h : y.departure = some d) (hd : d.progress = .pastMouth) : restartedDuty y = none := by
  unfold restartedDuty
  rw [h]
  exact if_pos hd

theorem restartedDuty_returned (h : y.departure = some d) (hd : d.progress ≠ .pastMouth) : restartedDuty y = some y.planAgain := by
  unfold restartedDuty
  rw [h]
  exact if_neg hd

theorem restartDuty_planned (h : y.departure = none) : s.restartDuty y = s := by
  unfold State.restartDuty
  rw [h]

theorem restartDuty_pastMouth (h : y.departure = some d) (hd : d.progress = .pastMouth) : s.restartDuty y =
    (((s.dropDeparture (.dutyDeparture y.duty) d).dropDuty y.duty)).postRoster y .restart := by
  unfold State.restartDuty
  rw [h]
  exact if_pos hd

theorem restartDuty_returned (h : y.departure = some d) (hd : d.progress ≠ .pastMouth) : s.restartDuty y =
    ((s.dropDeparture (.dutyDeparture y.duty) d).onDuty y.duty (fun _ => y.planAgain)).postRoster y.planAgain .restart := by
  unfold State.restartDuty
  rw [h]
  dsimp only
  rw [if_neg hd, unbind_planAgain]

/-- R165: an entry's restart is what it does to the other blocks and what becomes of the entry. -/
theorem restartDuty_between {pre l : List Duty} (hclock : ρ.clock = t.roster.clock) (hρ : ρ.duties = pre ++ y :: l)
    (hpre : ∀ a ∈ pre, a.duty ≠ y.duty) (hl : ∀ b ∈ l, b.duty ≠ y.duty) : (t.onRoster (fun _ => ρ)).restartDuty y =
    (t.undoDuty y).onRoster (fun _ => { ρ with duties := (pre ++ (restartedDuty y).toList) ++ l }) := by
  unfold State.undoDuty
  cases hy : y.departure with
  | none =>
    have hsame : ({ ρ with duties := (pre ++ [y]) ++ l } : Roster) = ρ := by rw [List.append_assoc, List.singleton_append, ← hρ]
    rw [restartDuty_planned hy, restartedDuty_planned hy, Option.toList_some, hsame]
  | some d =>
    obtain ⟨hdrop, hroster⟩ := readsClock_dropDeparture (.dutyDeparture y.duty) d t ρ hclock
    have hpost (m : List Duty) (fs : List Field) := (readsClock_post .roster 2 fs (t.dropDeparture (.dutyDeparture y.duty) d)
      { ρ with duties := m } (hclock.trans (congrArg Roster.clock hroster.symm))).1
    dsimp only
    by_cases hd : d.progress = .pastMouth
    · have hdropped : ((t.dropDeparture (.dutyDeparture y.duty) d).onRoster (fun _ => ρ)).dropDuty y.duty =
          (t.dropDeparture (.dutyDeparture y.duty) d).onRoster (fun _ => { ρ with duties := (pre ++ []) ++ l }) := by
        rw [List.append_nil, ← filter_ofDuty_between hpre hl, ← hρ]
        rfl
      rw [restartDuty_pastMouth hy hd, hdrop, hdropped, restartedDuty_pastMouth hy hd, postRoster_called hy, Option.getD_none, hy]
      exact hpost _ _
    · have hreturned : ((t.dropDeparture (.dutyDeparture y.duty) d).onRoster (fun _ => ρ)).onDuty y.duty (fun _ => y.planAgain) =
          (t.dropDeparture (.dutyDeparture y.duty) d).onRoster (fun _ => { ρ with duties := (pre ++ [y.planAgain]) ++ l }) := by
        rw [List.append_assoc, List.singleton_append, ← map_ofDuty_between (φ := fun _ => y.planAgain) hpre hl, ← hρ]
        rfl
      rw [restartDuty_returned hy hd, hdrop, hreturned, restartedDuty_returned hy hd, postRoster_planned rfl, Option.getD_some]
      exact hpost _ _

theorem readsClock_undoDuty (y : Duty) : ReadsClock (fun s => s.undoDuty y) := by
  intro s ρ hρ
  unfold State.undoDuty
  cases y.departure with
  | none => exact ⟨rfl, rfl⟩
  | some d => exact ((readsClock_dropDeparture _ d).then (readsClock_post _ _ _)) s ρ hρ

theorem restartedDuty_number {z : Duty} (h : restartedDuty y = some z) : z.duty = y.duty := by
  cases hy : y.departure with
  | none =>
    rw [restartedDuty_planned hy] at h
    cases h
    rfl
  | some d =>
    by_cases hd : d.progress = .pastMouth
    · rw [restartedDuty_pastMouth hy hd] at h
      cases h
    · rw [restartedDuty_returned hy hd] at h
      cases h
      rfl

/-- R165: the entries, in roster order. -/
theorem foldl_restartDuty {pre l : List Duty} (hclock : ρ.clock = t.roster.clock) (hρ : ρ.duties = pre ++ l)
    (hpre : ∀ a ∈ pre, ∀ b ∈ l, a.duty ≠ b.duty) (hl : (l.map Duty.duty).Nodup) :
    l.foldl State.restartDuty (t.onRoster (fun _ => ρ)) =
      (l.foldl State.undoDuty t).onRoster (fun _ => { ρ with duties := pre ++ l.filterMap restartedDuty }) := by
  induction l generalizing t ρ pre with
  | nil =>
    rw [List.filterMap_nil, ← hρ]
    rfl
  | cons y l ih =>
    obtain ⟨hy, hrest⟩ := List.nodup_cons.mp hl
    have hothers (b : Duty) (hb : b ∈ l) : b.duty ≠ y.duty := fun h => hy (h ▸ List.mem_map_of_mem hb)
    have hstep := restartDuty_between hclock hρ (fun a ha => hpre a ha y List.mem_cons_self) hothers
    have hfront : ∀ a ∈ pre ++ (restartedDuty y).toList, ∀ b ∈ l, a.duty ≠ b.duty := by
      intro a ha b hb
      rcases List.mem_append.mp ha with ha | ha
      · exact hpre a ha b (List.mem_cons_of_mem _ hb)
      · rw [restartedDuty_number (Option.mem_toList.mp ha)]
        exact (hothers b hb).symm
    have hwalk := ih (t := t.undoDuty y) (ρ := { ρ with duties := (pre ++ (restartedDuty y).toList) ++ l })
      (hclock.trans (congrArg Roster.clock (readsClock_undoDuty y t ρ hclock).2.symm)) rfl hfront hrest
    rw [List.foldl_cons, hstep, hwalk, List.filterMap_cons]
    cases restartedDuty y <;> simp

/-! ## The statements (R149, R165) -/

theorem exec_rosterRestart (s : State) (hnodup : (s.roster.duties.map Duty.duty).Nodup) : exec .rosterRestart s =
    .next (((s.roster.fleetDepartures.foldl State.restartFleet (s.roster.duties.foldl State.undoDuty (s.take .rosterRestart))).onRoster
      (fun _ => { s.roster with duties := s.roster.duties.filterMap restartedDuty, fleetDepartures := [] })).send
        (.restartTakenReport .roster)).settle := by
  have hduties : s.roster.duties.foldl State.restartDuty (s.take .rosterRestart) =
      (s.roster.duties.foldl State.undoDuty (s.take .rosterRestart)).onRoster (fun _ => s.roster.restarted) :=
    foldl_restartDuty (t := s.take .rosterRestart) (ρ := s.roster) (pre := []) rfl rfl (by simp) hnodup
  have hroster : (s.roster.duties.foldl State.undoDuty (s.take .rosterRestart)).roster = s.roster :=
    (readsClock_foldl readsClock_undoDuty s.roster.duties (s.take .rosterRestart) s.roster rfl).2
  change execRosterRestart s = _
  unfold execRosterRestart
  dsimp only
  rw [State.take_roster, hduties]
  generalize s.roster.duties.foldl State.undoDuty (s.take .rosterRestart) = t at hroster
  have hfleets : s.roster.fleetDepartures.foldl State.restartFleet (t.onRoster (fun _ => s.roster.restarted)) =
      (s.roster.fleetDepartures.foldl State.restartFleet t).onRoster (fun _ => s.roster.restarted) :=
    (readsClock_foldl readsClock_restartFleet _ t s.roster.restarted (congrArg Roster.clock hroster).symm).1
  have hlist : (t.onRoster (fun _ => s.roster.restarted)).roster.fleetDepartures = s.roster.fleetDepartures := rfl
  rw [hlist, hfleets]
  rfl

/-- Settles O39: an entry at a restart (`restartDuty_between`), and the walk over the entries (`foldl_restartDuty`). -/
theorem rosterHaltAndRestart : Obligations.RosterHaltAndRestart := by
  refine ⟨fun b s => ⟨_, rfl, ?_⟩, fun s hnodup => ⟨_, exec_rosterRestart s hnodup, ?_⟩⟩
  · exact ((rosterTaken_none (s.take (.rosterHaltReport b))).onRoster (fun r => { r with halt := b })).takenUnsent
  have hduties := undoes_foldl undoes_undoDuty s.roster.duties (s.take .rosterRestart)
  have hfleets := undoes_foldl (fun t d => undoes_dropDeparture (.fleetDeparture d.gate) d t) s.roster.fleetDepartures
    (s.roster.duties.foldl State.undoDuty (s.take .rosterRestart))
  have hundoes := hduties.trans hfleets
  have halarm : ∀ d, (∃ e ∈ s.roster.duties, e.departure = some d) ∨ d ∈ s.roster.fleetDepartures → d.progress = .pastMouth →
      Instr.alarmRaise (.departureAbandoned d.fleet) ∈
        (s.roster.fleetDepartures.foldl State.restartFleet (s.roster.duties.foldl State.undoDuty (s.take .rosterRestart))).claims := by
    rintro d (⟨e, he, hd⟩ | hd) hpast
    · exact hfleets.claims (mem_claims_foldl undoes_undoDuty (undoDuty_raises hd hpast) he _)
    · exact mem_claims_foldl (fun t d => undoes_dropDeparture (.fleetDeparture d.gate) d t)
        (dropDeparture_raises hpast (.fleetDeparture d.gate)) hd _
  obtain ⟨sent, posts, hacts⟩ := hundoes.touches
  have htaken := ((((rosterTaken_none (s.take .rosterRestart)).mono (parts' := [.stabling, .roster]) (by simp)).next hacts).onRoster
    (fun _ => { s.roster with duties := s.roster.duties.filterMap restartedDuty, fleetDepartures := [] })).send
    (.restartTakenReport .roster)
  obtain ⟨hkeeps, -, -, hanswered⟩ := htaken.afterTake
  refine ⟨hkeeps, hanswered, rfl, List.getLast?_concat, hundoes.shunts, hundoes.handed, ⟨rfl, rfl, fun p => ?_⟩,
    fun d hd hpast => List.mem_append_left _ (halarm d hd hpast)⟩
  rw [port_send, port_onRoster]
  exact ⟨rfl, rfl⟩

end

end Sys2Proof.Machine

/-! # A ROUTE_DEF payload as it is written (R180; 09 section 9.7) -/

namespace Sys2Proof.Machine

section

variable {e : Element} {f : Flank} {st : Setting} {d : RouteDef} {n : Nat}

/-- A setting whose point is in its range is written as its number. -/
theorem toByte_toNat (h : isIn st.point 1 32 = true) : (Setting.toByte st.point st.position).toNat = settingNumber st.point st.position := by
  obtain ⟨n, pos⟩ := st
  simp only [isIn, Bool.and_eq_true, decide_eq_true_eq] at h
  rw [Setting.toByte, BitVec.toNat_ofNat]
  cases pos <;> simp [settingNumber] <;> omega

/-- A number is written in the byte that fits it. -/
theorem ofNat_toNat_of_isIn {n lo hi : Nat} (h : isIn n lo hi = true) (hhi : hi < 256) : (BitVec.ofNat 8 n).toNat = n := by
  simp only [isIn, Bool.and_eq_true, decide_eq_true_eq] at h
  rw [BitVec.toNat_ofNat, Nat.mod_eq_of_lt (by omega)]

/-- So is an optional one, absent as 0. -/
theorem ofNat_toNat_of_isInOpt {o : Option Nat} {lo hi : Nat} (h : isInOpt o lo hi = true) (hhi : hi < 256) :
    (BitVec.ofNat 8 (o.getD 0)).toNat = o.getD 0 := by
  cases o with
  | none => rfl
  | some n => exact ofNat_toNat_of_isIn h hhi

theorem elementBytes_numbers (h : ElementFits e) : e.bytes.map BitVec.toNat = elementNumbers e := by
  obtain ⟨hsect, -, hpoints⟩ := h
  simp only [Element.bytes, elementNumbers, List.map_cons, List.map_map, ofNat_toNat_of_isIn hsect (by decide)]
  exact congrArg _ (List.map_congr_left fun st hst => toByte_toNat (hpoints st hst))

theorem flankBytes_numbers (h : FlankFits f) :
    [Setting.toByte f.point f.position, BitVec.ofNat 8 f.protects].map BitVec.toNat = flankNumbers f := by
  obtain ⟨hpoint, hprotects⟩ := h
  simp only [flankNumbers, List.map_cons, List.map_nil, ofNat_toNat_of_isIn hprotects (by decide),
    toByte_toNat (st := ⟨f.point, f.position⟩) hpoint]

/-- The payload of a route that the layout can carry has the numbers of 09 section 9.7. -/
theorem encodeRouteDef_numbers (h : fitsLayout n d = true) : (encodeRouteDef n d).map BitVec.toNat = routeLayout n d := by
  obtain ⟨hload, hpath, hflank⟩ := (fitsLayout_iff n d).mp h
  simp only [RouteDef.loadOk, decide_eq_true_eq, inRange?_eq] at hload
  obtain ⟨hn, hn', ho, ho', hfrom, hto, happ, hdest, hlen, hlen', hflen⟩ := hload
  have hfromTop : d.kind.fromTop < 256 := by cases d.kind <;> decide
  have htoTop : d.kind.toTop < 256 := by cases d.kind <;> decide
  have hkind : (BitVec.ofNat 8 d.kind.code).toNat = d.kind.code := by cases d.kind <;> rfl
  have hcounts : (BitVec.ofNat 8 (d.path.length + 16 * d.flank.length)).toNat = d.flank.length * 16 + d.path.length := by
    rw [BitVec.toNat_ofNat]
    omega
  have hpathBytes : (d.path.flatMap Element.bytes).map BitVec.toNat = d.path.flatMap elementNumbers := by
    rw [List.map_flatMap]
    exact List.flatMap_congr fun e he => elementBytes_numbers (hpath e he)
  have hflankBytes : (d.flank.flatMap (fun f => [Setting.toByte f.point f.position, BitVec.ofNat 8 f.protects])).map BitVec.toNat =
      d.flank.flatMap flankNumbers := by
    rw [List.map_flatMap]
    exact List.flatMap_congr fun f hf => flankBytes_numbers (hflank f hf)
  rw [routeLayout_eq, encodeRouteDef, List.map_append, List.map_append, hpathBytes, hflankBytes]
  simp only [List.map_cons, List.map_nil, hkind, hcounts, ofNat_toNat_of_isInOpt hfrom hfromTop, ofNat_toNat_of_isInOpt hto htoTop,
    ofNat_toNat_of_isInOpt happ (by decide), ofNat_toNat_of_isInOpt hdest (by decide), BitVec.toNat_ofNat]
  rw [Nat.mod_eq_of_lt (by omega : n < 2 ^ 8), Nat.mod_eq_of_lt (by omega : d.origin < 2 ^ 8)]

end

/-- Settles O60: what is written has the layout's numbers (`encodeRouteDef_numbers`), and these are read as the route
(`routePayload_read`). -/
theorem routeDefReadsBack : Obligations.RouteDefReadsBack :=
  fun n d h => (routePayload_read (encodeRouteDef n d) n d).mpr ⟨h, encodeRouteDef_numbers h⟩

end Sys2Proof.Machine

/-! # Gap, break and the end of a frame at a port (09 sections 9.2, 9.3, 9.6) -/

namespace Sys2Proof.Machine

section

variable {s : State} {p : Port} {y : PortState} {f : PortState → PortState}

/-- A taking that changes one port, by what the change makes of that port. -/
theorem takes_onPort (hy : f (s.port p) = y) :
    ∃ u, done (s.onPort p f) = .next u.settle ∧ u.claims = s.claims ∧ OnlyPort p y s u :=
  ⟨s.onPort p f, rfl, State.onPort_claims s p f, hy ▸ onlyPort_onPort s p f⟩

end

/-- Settles O48: each of the three changes its port alone (`takes_onPort`), by what it makes of the receiver or the frame sent. -/
theorem lineEventsAtAPort : Obligations.LineEventsAtAPort := by
  refine fun p s => ⟨takes_onPort ?_, takes_onPort rfl, takes_onPort ?_⟩
  · cases h : (s.port p).receiver <;> simp
  · rcases s.port p with ⟨_, _, _, _, _, _ | (_ | _), _, _, _, _, _⟩ <;> rfl

end Sys2Proof.Machine

/-! # The records of the ten tables (09 section 9.5, R178) -/

namespace Sys2Proof.Machine

section

variable {α : Type} (s : State)

/-! ## Fields (09 section 9.7) -/

theorem f8_eq (o : Option Nat) : f8 o = numberOr0 o := by cases o <;> rfl
theorem f16_eq (o : Option Nat) : f16 o = numberOrFFFF o := by cases o <;> rfl
theorem purposeFields_eq (x : Purpose) : x.fields = purposeLink x := by cases x <;> rfl
theorem levelCode_eq (l : Occ) : l.code = if l = .clear then 1 else 2 := by cases l <;> rfl

/-! ## The records, table by table -/

/-- R2, R31: in RUN the record of the occupancy monitor with its gate and siding, in CONFIG the definition. -/
theorem sectionRecord_eq : s.sectionRecord = sectionTableRecord s := by
  funext n d
  unfold State.sectionRecord sectionTableRecord sectionFields pendingFields
  simp only [f8_eq, f16_eq, levelCode_eq]
  cases Tbl.find n s.sections with
  | none => rfl
  | some r => cases hp : r.pending <;> simp [hp, fFlag, flagField, flagCode]

/-- R2, R51: in RUN the record of the point controller, in CONFIG the definition. -/
theorem pointRecord_eq : s.pointRecord = pointTableRecord s := by
  funext n d
  unfold State.pointRecord pointTableRecord
  cases Tbl.find n s.points with
  | none => simp only [f8_eq]
  | some r =>
    dsimp only
    rw [pointFields_eq, ← f8_eq, ← f16_eq]
    cases r.firstFailure <;> rfl

/-- R71: the aspect of an entry's origin signal. -/
theorem entryAspect_eq (e : RouteEntry) : s.entryAspect e = (Tbl.find e.route s.desc.routes).any (fun d => s.aspect d.origin) := by
  unfold State.entryAspect State.routeDef
  cases Tbl.find e.route s.desc.routes <;> rfl

/-- R55, R80: a route table entry with the aspect of its signal. -/
theorem entryFields_eq (slot : Nat) (e : RouteEntry) : entryFields slot e (s.entryAspect e) = entryRecord s slot e := by
  unfold entryFields entryRecord fList8 fList
  rw [f16_eq, purposeFields_eq, entryAspect_eq]
  cases e.timer <;> simp [aspectCode, Causes.byte]

theorem storeFields_eq (pos : Nat) (e : StoreEntry) :
    storeFields pos e = [.u8 pos, .u8 e.route, .u8 e.owner.code] ++ purposeLink e.purpose ++ [numberOrFFFF e.tram, .u32 e.timer] := by
  rw [← f16_eq, ← purposeFields_eq]
  rfl

/-- 07 section 7.1: the fields of a siding. -/
theorem sidingFields_eq (n : Nat) (r : SidingRec) : sidingFields (s.freeLength r) n r =
    [.u8 n, .u8 r.mouth, .u8 r.body, .u16 r.length, .u8 r.abilities.byte, .u8 (if r.census = .known then 1 else 2),
      flagField r.blocked, numberOr0 r.incoming, .u16 (r.length - (r.stack.map (fun x => x.length + s.param.spacing)).sum)] := by
  have hcensus : r.census.code = if r.census = .known then 1 else 2 := by cases r.census <;> rfl
  rw [← f8_eq, ← hcensus]
  rfl

/-- 09 section 9.7: the codes of the states and the purposes of a stack record. -/
theorem stackFields_eq : stackFields = stackRecord := by
  funext pos ⟨fleet, length, mandatory, wanted, state, entered, stabledAt, purpose, _⟩
  unfold stackFields stackRecord
  simp only [f16_eq]
  cases state <;> rcases purpose with _ | (_ | _ | _ | _) <;> rfl

/-- 06 section 6.1: the codes of the marks and the states of an arrival record. -/
theorem arrivalFields_eq : arrivalFields = arrivalRecord := by
  funext pos a
  unfold arrivalFields arrivalRecord
  simp only [f8_eq, f16_eq]
  cases a.mark <;> cases a.state <;> rfl

theorem departureFields_eq : departureFields = departureRecord := by
  funext d
  unfold departureFields departureRecord
  rw [f8_eq]
  cases d.progress <;> rfl

/-- R157: a roster entry, with the departure record of one that is CALLED. -/
theorem dutyFields_eq : dutyFields = rosterRecord := by
  funext ⟨duty, due, gate, fleet, minLength, bound, dueNotified, lateNotified, lastRefusal, departure⟩
  unfold dutyFields rosterRecord
  simp only [← f8_eq, ← f16_eq, departureFields_eq]
  cases departure <;> rfl

theorem shuntFields_eq : shuntFields = shuntRecord := by
  funext h e
  have howner : shuntOwnerCode e.owner = if e.owner = .planner then 1 else 2 := by cases e.owner <;> rfl
  have hphase : e.phase.code = phaseOf e := by unfold phaseOf; cases e.phase <;> rfl
  unfold shuntFields shuntRecord
  rw [f8_eq, howner, hphase]
  cases e.standing <;> rfl

/-! ## What a read finds (R178) -/

/-- The record of lowest number at or above an index is the first of those with such a number. -/
theorem fromIndex_eq (k : Nat) (t : Tbl α) : Tbl.fromIndex k t = (t.filter (fun p => k ≤ p.1)).head? :=
  List.head?_filter.symm

/-- A position among the roster entries and, after these, the fleet departures. -/
theorem rosterRead_eq (duties : List Duty) (fleets : List Departure) (i : Nat) :
    (if i ≤ duties.length then listRecord (fun _ d => dutyFields d) duties i
      else (fleets[i - duties.length - 1]?).map (fun d => (i, departureFields d))) =
    listRecord (fun _ f => f) (duties.map rosterRecord ++ fleets.map departureRecord) i := by
  unfold listRecord
  by_cases h0 : i = 0
  · subst h0
    rfl
  simp only [if_neg h0]
  by_cases hi : i ≤ duties.length
  · rw [if_pos hi, List.getElem?_append_left (by rw [List.length_map]; omega), List.getElem?_map, Option.map_map]
    simp only [dutyFields_eq]
    rfl
  · rw [if_neg hi, List.getElem?_append_right (by rw [List.length_map]; omega), List.getElem?_map, Option.map_map,
      List.length_map, show i - 1 - duties.length = i - duties.length - 1 by omega]
    simp only [departureFields_eq]
    rfl

theorem tables_read : tableRecords := by
  rintro s ⟨table, x, i⟩
  unfold State.readTable recordAt
  cases table with
  | sections => simp only [fromIndex_eq, sectionRecord_eq]
  | points => simp only [fromIndex_eq, pointRecord_eq]
  | routeTable => simp only [fromIndex_eq, entryFields_eq]
  | routeStore => simp only [listRecord, storeFields_eq]
  | stack =>
    dsimp only
    cases Tbl.find x s.stab.sidings with
    | none => rfl
    | some r =>
      simp only [sidingFields_eq, stackFields_eq]
      rfl
  | arrivals =>
    dsimp only
    rw [arrivalFields_eq]
    cases Tbl.find x s.gates <;> rfl
  | roster => exact rosterRead_eq s.roster.duties s.roster.fleetDepartures i
  | shunts => simp only [fromIndex_eq, shuntFields_eq]
  | alarms =>
    unfold listRecord
    dsimp only
    congr 2
    funext a
    rw [alarmFields, f16_eq]
    cases a.state <;> rfl
  | catalogue => rfl

end

/-! # The requests that a port answers itself (09 sections 9.4, 9.5, 9.6) -/

/-- A request that the port answers at once: what the answer is, and what becomes of the port, but for the answer path and the
request in hand, which are as the answer leaves them. -/
def AnswersAtOnce (q : Req) (s : State) (c : Instr) (k : Kind) (a : Ans) (f : PortState → PortState) : Prop :=
  ∃ u, exec c s = .next u.settle ∧ KeepsAllBut [.ports] s u ∧ u.claims = s.claims.erase c ∧
    Answered (some (k, q, a)) s u ∧ (∀ p, p ≠ q.port → u.port p = s.port p) ∧
    (u.port q.port).aside = (f (s.port q.port)).aside ∧ (u.port q.port).notices = (f (s.port q.port)).notices ∧
    (u.port q.port).noticesLost = (f (s.port q.port)).noticesLost

/-- What R177 refuses a TABLE_SELECT for, by the table's code. -/
def tableRefusal (s : State) (t qu i : Nat) : Option Reason :=
  if ¬ (1 ≤ t ∧ t ≤ 10) ∨ (i = 0 ∧ t ≠ 5) then some .badArgument
  else if s.op = .config ∧ t ≠ 1 ∧ t ≠ 2 ∧ t ≠ 10 then some .wrongState
  else if (t = 5 ∧ Tbl.find qu s.desc.sidings = none) ∨ (t = 6 ∧ Tbl.find qu s.desc.gates = none) then some .badArgument
  else none

section

variable {q : Req} {s : State} {c : Instr} {k : Kind} {a : Ans} {f : PortState → PortState}

/-! ## Answers at once (log entry 17) -/

/-- The port's own requests may come from every port, in either state. -/
theorem exec_ofPortOwned {owner : State → State × Ans} (hx : exec c s = takeRequest c k q s owner) (hk : k.ownedByPort = true)
    (hc : c.codesOk = true) (hg : c.gateNamed = none) :
    exec c s = done ((owner (s.take c)).1.reply k q (owner (s.take c)).2) := by
  have hkind : k.permits q.port = true ∧ k.loads = false := by
    cases k with
    | status | subscribe | portReset | tableSelect | tableNext => exact ⟨rfl, rfl⟩
    | _ => cases hk
  obtain ⟨hpermits, hloads⟩ := hkind
  rw [hx]
  apply takeRequest_admitted
  · simp [State.portCheck, hpermits, hc, hg]
  · simp [State.stateCheck, hloads, hk]

/-- A change of a port that leaves the answer path and the request in hand. -/
theorem effect_onPort (s : State) (c : Instr) (p : Port) (hpath : (f (s.port p)).path = (s.port p).path)
    (hhand : (f (s.port p)).inHand = (s.port p).inHand) :
    Effect [.ports] (s.claims.erase c) (State.onPort p f) none s ((s.take c).onPort p f) := by
  have hport (p' : Port) : ((s.take c).onPort p f).port p' = (s.onPort p f).port p' := by
    by_cases h : p' = p
    · rw [h, State.onPort_same, State.onPort_same, port_take]
    · rw [State.onPort_other _ h, State.onPort_other _ h, port_take]
  refine ⟨keepsAllBut_of_bare (by simp), by simp, fun p' => by rw [hport]; exact ⟨rfl, rfl⟩, fun p' => ?_⟩
  unfold NoAnswerAt
  rw [hport]
  by_cases h : p' = p
  · subst h
    rw [State.onPort_same]
    exact ⟨hpath, hhand⟩
  · rw [State.onPort_other _ h]
    exact ⟨rfl, rfl⟩

theorem answersAtOnce_onPort (hx : exec c s = done (((s.take c).onPort q.port f).reply k q a))
    (hpath : (f (s.port q.port)).path = (s.port q.port).path) (hhand : (f (s.port q.port)).inHand = (s.port q.port).inHand) :
    AnswersAtOnce q s c k a f := by
  obtain ⟨hkeeps, hclaims, hnotes, hanswered⟩ := effect_reply k q a (effect_onPort s c q.port hpath hhand)
  obtain ⟨hnotices, hlost⟩ := hnotes q.port
  rw [State.onPort_same] at hnotices hlost
  refine ⟨_, hx, hkeeps, hclaims, hanswered, fun p hp => ?_, ?_, hnotices, hlost⟩
  · rw [port_reply, if_neg hp, State.onPort_other _ hp, port_take]
  · rw [aside_reply, State.onPort_same, port_take]

theorem onPort_id (s : State) (p : Port) : s.onPort p id = s := by cases p <;> rfl

/-- An answer that changes nothing else at its port. -/
theorem answersAtOnce_unchanged (hx : exec c s = done ((s.take c).reply k q a)) : AnswersAtOnce q s c k a id :=
  answersAtOnce_onPort (by rw [onPort_id]; exact hx) rfl rfl

/-! ## STATUS and SUBSCRIBE (R174, R176) -/

theorem status_answers (q : Req) (s : State) : AnswersAtOnce q s (.status q) .status
    ⟨.done, none, [.u8 (if s.op = .config then 1 else 2), .u8 (if s.sup.halt then 2 else 1), .u8 (s.heldByte 1),
      .u8 (s.heldByte 2), .u8 s.sup.alarms.length, .u8 (if s.sup.overflow then 2 else 1),
      .u8 (if (s.port q.port).noticesLost then 2 else 1), .u8 (if (s.port q.port).lineError then 2 else 1),
      .u16 (s.roster.clock.getD 65535)]⟩
    (fun p => { p with noticesLost := false, lineError := false }) := by
  have hop : s.op.code = if s.op = .config then 1 else 2 := by cases s.op <;> rfl
  have hx := exec_ofPortOwned (c := .status q) (k := .status) (s := s) rfl rfl rfl rfl
  refine answersAtOnce_onPort ?_ rfl rfl
  rw [hx, ← hop]
  simp only [takeStatus, port_take]
  rfl

/-- R176: the answer gives back the byte of the request, whose bit 7 is clear. -/
theorem groupsByte_ofByte {g : Byte} (h : g.toNat < 128) : (Groups.ofByte g).byte = g.toNat := by
  have hbit (i : Nat) : g.getLsbD i = decide (g.toNat / 2 ^ i % 2 = 1) := by
    rw [BitVec.getLsbD, Nat.testBit_eq_decide_div_mod_eq]
  have hterm (x m : Nat) : (if x % 2 = 1 then m else 0) = m * (x % 2) := by
    rcases Nat.mod_two_eq_zero_or_one x with hx | hx <;> simp [hx]
  simp only [Groups.ofByte, Groups.byte, hbit, decide_eq_true_eq, hterm]
  omega

theorem subscribe_answers (q : Req) (s : State) {g : Byte} (h : g.toNat < 128) :
    AnswersAtOnce q s (.subscribe q g) .subscribe ⟨.done, none, [.u8 g.toNat]⟩
      (fun p => { p with subscription := Groups.ofByte g }) := by
  have hx := exec_ofPortOwned (c := .subscribe q g) (k := .subscribe) (s := s) rfl rfl (decide_eq_true h) rfl
  refine answersAtOnce_onPort ?_ rfl rfl
  rw [hx]
  simp only [takeSubscribe, groupsByte_ofByte h]
  rfl

/-! ## PORT_RESET (R179) -/

/-- What a port reset by request leaves of its port, with its answer: the answer and the request in hand are its own where it is
itself in hand. -/
theorem reset_answer (x : PortState) (tag : Byte) (a : Ans) (kind : Byte) :
    let own : Bool := x.awaits kind tag
    let y : PortState := (x.reset own).answer kind tag a
    y.path = (x.path.filter (fun b => !b.busy)).map (fun b => if b.ofHand then { b with dropped := true } else b) ++
      [⟨kind, tag, a, false, own, own && x.inHand.any InHand.dropped⟩] ∧
    y.inHand = x.inHand.map (fun h => if own then { h with answered := true } else { h with dropped := true }) := by
  have hawaits (own : Bool) : (x.reset own).awaits kind tag = x.awaits kind tag := by
    cases own <;> cases hx : x.inHand <;> simp [awaits_eq, PortState.reset, hx]
  dsimp only
  rw [answer_path, answer_inHand, hawaits]
  cases x.awaits kind tag <;> simp [PortState.reset]

theorem portReset_taken (q : Req) (s : State) :
    let own : Bool := (s.port q.port).inHand.any (InHand.isFor .portReset q)
    ∃ u, exec (.portReset q) s = .next u.settle ∧ KeepsAllBut [.ports] s u ∧ u.claims = s.claims.erase (.portReset q) ∧
      (∀ p, p ≠ q.port → u.port p = s.port p) ∧ u.port q.port = ((s.port q.port).reset own).answer 0x03 q.tag .done := by
  have hown : (s.port q.port).inHand.any (InHand.isFor .portReset q) = (s.port q.port).awaits 0x03 q.tag :=
    (awaits_eq _ _ _).symm
  dsimp only
  rw [hown]
  refine ⟨_, exec_ofPortOwned (c := .portReset q) (k := .portReset) rfl rfl rfl rfl, keepsAllBut_of_bare ?_, ?_, fun p hp => ?_, ?_⟩
  · simp [takePortReset]
  · simp [takePortReset]
  · rw [port_reply, if_neg hp, takePortReset, State.onPort_other _ hp, port_take]
  · rw [port_reply, if_pos rfl, takePortReset, State.onPort_same, port_take]
    rfl

/-! ## TABLE_SELECT (R177) -/

/-- R177: the tables in the order of their codes. -/
def tableOf (t : Nat) : TableName :=
  ([.sections, .points, .routeTable, .routeStore, .stack, .arrivals, .roster, .shunts, .alarms, .catalogue] : List TableName).getD
    (t - 1) .sections

theorem tableOf_code {t : Nat} (h1 : 1 ≤ t) (h10 : t ≤ 10) : (tableOf t).code = t := by
  interval_cases t <;> rfl

theorem takeTableSelect_eq (p : Port) (T : TableName) (qu i : Nat) (s : State) :
    takeTableSelect p T.code qu i s =
      match tableRefusal s T.code qu i with
      | some r => (s, .refused r)
      | none => (s.onPort p (fun x => { x with cursor := some ⟨T, qu, i⟩ }), .done) := by
  have hT : TableName.ofCode? T.code = some T := by cases T <;> rfl
  have hcode : 1 ≤ T.code ∧ T.code ≤ 10 := by cases T <;> decide
  have hstack : T = .stack ↔ T.code = 5 := by cases T <;> decide
  have harrivals : T = .arrivals ↔ T.code = 6 := by cases T <;> decide
  have hconfig : T.inConfig = false ↔ T.code ≠ 1 ∧ T.code ≠ 2 ∧ T.code ≠ 10 := by cases T <;> decide
  unfold takeTableSelect tableRefusal
  rw [hT]
  simp only [hcode, ne_eq, hstack, harrivals, Bool.not_eq_true', hconfig, Option.isNone_iff_eq_none, and_self, not_true_eq_false,
    false_or]
  split_ifs <;> rfl

/-- A table code that is not given is refused by the port's check, every other refusal is the port's own. -/
theorem tableSelect_refused {t qu i : Nat} {r : Reason} (h : tableRefusal s t qu i = some r) :
    AnswersAtOnce q s (.tableSelect q t qu i) .tableSelect ⟨.refused, some r, []⟩ id := by
  refine answersAtOnce_unchanged ?_
  by_cases ht : 1 ≤ t ∧ t ≤ 10
  · obtain ⟨h1, h10⟩ := ht
    have hx := exec_ofPortOwned (c := .tableSelect q t qu i) (k := .tableSelect) (s := s) rfl rfl (decide_eq_true ⟨h1, h10⟩) rfl
    have howner := takeTableSelect_eq q.port (tableOf t) qu i (s.take (.tableSelect q t qu i))
    rw [tableOf_code h1 h10, show tableRefusal (s.take (.tableSelect q t qu i)) t qu i = some r from h] at howner
    rw [hx, howner]
    rfl
  · obtain rfl : r = .badArgument := by simpa [tableRefusal, ht] using h.symm
    have hcodes : (Instr.tableSelect q t qu i).codesOk = false := decide_eq_false ht
    exact takeRequest_refused s _ (.inl (by simp [State.portCheck, Kind.permits, hcodes]))

theorem tableSelect_done {t qu i : Nat} (h : tableRefusal s t qu i = none) :
    AnswersAtOnce q s (.tableSelect q t qu i) .tableSelect ⟨.done, none, []⟩
      (fun x => { x with cursor := some ⟨tableOf t, qu, i⟩ }) := by
  have ht : 1 ≤ t ∧ t ≤ 10 := by
    by_contra ht
    simp [tableRefusal, ht] at h
  obtain ⟨h1, h10⟩ := ht
  have hx := exec_ofPortOwned (c := .tableSelect q t qu i) (k := .tableSelect) (s := s) rfl rfl (decide_eq_true ⟨h1, h10⟩) rfl
  have howner := takeTableSelect_eq q.port (tableOf t) qu i (s.take (.tableSelect q t qu i))
  rw [tableOf_code h1 h10, show tableRefusal (s.take (.tableSelect q t qu i)) t qu i = none from h] at howner
  refine answersAtOnce_onPort ?_ rfl rfl
  rw [hx, howner]
  rfl

/-! ## TABLE_NEXT (R178) -/

/-- A read finds no record before the cursor's index. -/
theorem readTable_index {c : Cursor} {i : Nat} {fields : List Field} (h : s.readTable c = some (i, fields)) : c.index ≤ i := by
  have hnumbered {α : Type} {t : Tbl α} {φ : Nat × α → List Field}
      (h : (Tbl.fromIndex c.index t).map (fun p => (p.1, φ p)) = some (i, fields)) : c.index ≤ i := by
    obtain ⟨p, hp, he⟩ := Option.map_eq_some_iff.mp h
    cases he
    exact of_decide_eq_true (List.find?_some (p := fun p : Nat × α => decide (c.index ≤ p.1)) hp)
  have hlisted {α : Type} {l : List α} {φ : Nat → α → List Field} (h : listRecord φ l c.index = some (i, fields)) : c.index ≤ i := by
    unfold listRecord at h
    split_ifs at h
    obtain ⟨x, -, he⟩ := Option.map_eq_some_iff.mp h
    cases he
    exact le_rfl
  obtain ⟨table, x, j⟩ := c
  cases table with
  | sections => exact hnumbered h
  | points => exact hnumbered h
  | routeTable => exact hnumbered h
  | shunts => exact hnumbered h
  | routeStore => exact hlisted h
  | alarms => exact hlisted h
  | roster => exact hlisted ((rosterRead_eq _ _ _).symm.trans h)
  | stack =>
    unfold State.readTable at h
    dsimp only at h
    split at h
    · split_ifs at h with hj
      · exact hj ▸ Nat.zero_le i
      · exact hlisted h
    · cases h
  | arrivals =>
    unfold State.readTable at h
    dsimp only at h
    split at h
    · exact hlisted h
    · cases h
  | catalogue =>
    unfold State.readTable at h
    dsimp only at h
    split_ifs at h with hj
    obtain ⟨d, -, he⟩ := Option.map_eq_some_iff.mp h
    cases he
    exact hj

theorem exec_tableNext {p : State} (h : takeTableNext q.port (s.take (.tableNext q)) = (p, a)) :
    exec (.tableNext q) s = done (p.reply .tableNext q a) := by
  rw [exec_ofPortOwned (c := .tableNext q) (k := .tableNext) (owner := takeTableNext q.port) rfl rfl rfl rfl, h]

theorem tableNext_noCursor (h : (s.port q.port).cursor = none) :
    AnswersAtOnce q s (.tableNext q) .tableNext ⟨.refused, some .wrongState, []⟩ id := by
  refine answersAtOnce_unchanged (exec_tableNext ?_)
  rw [takeTableNext, port_take, h]
  rfl

theorem tableNext_end {c : Cursor} (h : (s.port q.port).cursor = some c) (hr : s.readTable c = none) :
    AnswersAtOnce q s (.tableNext q) .tableNext ⟨.done, none, [.u8 0]⟩ id := by
  refine answersAtOnce_unchanged (exec_tableNext ?_)
  rw [takeTableNext, port_take, h]
  dsimp only
  rw [show (s.take (.tableNext q)).readTable c = none from hr]
  rfl

theorem tableNext_record {c : Cursor} {i : Nat} {fields : List Field} (h : (s.port q.port).cursor = some c)
    (hr : s.readTable c = some (i, fields)) :
    AnswersAtOnce q s (.tableNext q) .tableNext ⟨.done, none, .u8 c.table.code :: .u8 i :: fields⟩
      (fun x => { x with cursor := some { c with index := i + 1 } }) := by
  refine answersAtOnce_onPort (exec_tableNext ?_) rfl rfl
  rw [takeTableNext, port_take, h]
  dsimp only
  rw [show (s.take (.tableNext q)).readTable c = some (i, fields) from hr]
  rfl

end

/-- R174, R176 to R179: the port's own requests, one after another. -/
theorem ownRequests_answered : portsAnswerTheirOwnRequests := by
  intro q s
  refine ⟨status_answers q s, fun g hg => subscribe_answers q s hg, ?_, fun t qu i => ?_, ?_⟩
  · obtain ⟨u, hx, hkeeps, hclaims, hothers, hport⟩ := portReset_taken q s
    obtain ⟨hpath, hhand⟩ := reset_answer (s.port q.port) q.tag .done 0x03
    have hown : (s.port q.port).awaits 0x03 q.tag = (s.port q.port).inHand.any (InHand.isFor .portReset q) := awaits_eq _ _ _
    rw [hown] at hpath hhand
    refine ⟨u, hx, hkeeps, hclaims, hothers, ?_⟩
    rw [hport, aside_answer, answer_notices, answer_noticesLost]
    exact ⟨rfl, rfl, rfl, hpath, hhand⟩
  · intro why
    have hwhy : tableRefusal s t qu i = why := rfl
    clear_value why
    cases why with
    | some r => exact tableSelect_refused hwhy
    | none => exact tableSelect_done hwhy
  · dsimp only
    cases hc : (s.port q.port).cursor with
    | none => exact tableNext_noCursor hc
    | some c =>
      dsimp only
      cases hr : s.readTable c with
      | none => exact tableNext_end hc hr
      | some x => exact ⟨readTable_index hr, tableNext_record hc hr⟩

/-- Settles O47: each request as the port takes it (`exec_ofPortOwned`), and each table's records (`tables_read`). -/
theorem portsAnswerTheirOwnRequests : Obligations.PortsAnswerTheirOwnRequests := ⟨ownRequests_answered, tables_read⟩

end Sys2Proof.Machine

/-! # The payload of each kind (R171, R181; 09 section 9.7) -/

namespace Sys2Proof.Machine

section

variable {q : Req} {k : Kind} {l : List Byte}

theorem isSome_ofCheck {α : Type} (c : Prop) [Decidable c] (x : α) : (if c then some x else none).isSome = decide c := by
  split_ifs with h <;> simp [h]

/-! ## Fields -/

theorem opt8_eq_present8 (b : Byte) : opt8 b = present8 b := by
  have hzero : b.toNat = 0 ↔ b = 0 := by rw [BitVec.toNat_eq]; rfl
  simp only [opt8, present8, hzero]

theorem opt16_eq_present16 (hi lo : Byte) : opt16 hi lo = present16 hi lo := by
  have hall : u16 hi lo = 65535 ↔ hi = 0xFF ∧ lo = 0xFF := by
    have := hi.isLt
    have := lo.isLt
    rw [BitVec.toNat_eq, BitVec.toNat_eq, u16]
    change _ ↔ hi.toNat = 255 ∧ lo.toNat = 255
    omega
  simp only [opt16, present16, hall]
  rfl

/-! ## YARD_PARAMS -/

/-- A bit of the presence mask lies in its low byte or its high one. -/
theorem mask_testBit (hi lo : Byte) (i : Nat) : (u16 hi lo).testBit i = if i < 8 then lo.getLsbD i else hi.getLsbD (i - 8) := by
  rw [u16, Nat.mul_comm, Nat.testBit_two_pow_mul_add (i := 8) _ lo.isLt]
  rfl

theorem decodeParams_isSome : (decodeParams l).isSome =
    (decide (l.length = 20) && decide (((l[0]?).map BitVec.toNat).getD 0 < 0x40)) := by
  by_cases hlen : l.length = 20
  · match l, hlen with
    | [m1, m0, _, _, _, _, _, _, _, _, _, _, _, _, _, _, _, _, _, _], _ =>
      have hmask : u16 m1 m0 < 16384 ↔ m1.toNat < 0x40 := by
        have := m0.isLt
        rw [u16]
        omega
      by_cases h : m1.toNat < 0x40 <;> simp [decodeParams, hmask, h]
  · have hnone : decodeParams l = none := by
      unfold decodeParams
      split
      · exact absurd rfl hlen
      · rfl
    simp [hnone, hlen]

/-! ## CENSUS_SET -/

/-- A census list decodes where it is made of entries of five bytes. -/
theorem decodeCensus_length : ∀ l : List Byte,
    (decodeCensus l).map List.length = if l.length % 5 = 0 then some (l.length / 5) else none
  | [] | [_] | [_, _] | [_, _, _] | [_, _, _, _] => rfl
  | f1 :: f0 :: len :: mand :: want :: rest => by
    have hrest : (decodeCensus (f1 :: f0 :: len :: mand :: want :: rest)).map List.length =
        ((decodeCensus rest).map List.length).map (· + 1) := by
      rw [decodeCensus, Option.map_map, Option.map_map]
      rfl
    rw [hrest, decodeCensus_length rest]
    simp only [List.length_cons, Nat.add_assoc, Nat.reduceAdd, Nat.add_mod_right, Nat.add_div_right _ (Nat.succ_pos 4)]
    split_ifs <;> rfl

theorem censusSet_isSome (sd cnt : Byte) (rest : List Byte) : (decodeRequest .censusSet q (sd :: cnt :: rest)).isSome =
    (decide (cnt.toNat ≤ 12) && decide (rest.length = 5 * cnt.toNat)) := by
  have hlength := decodeCensus_length rest
  unfold decodeRequest
  dsimp only
  cases hd : decodeCensus rest with
  | none =>
    rw [hd] at hlength
    have hodd : rest.length % 5 ≠ 0 := fun h => by simp [h] at hlength
    have hne : rest.length ≠ 5 * cnt.toNat := by omega
    simp [hne]
  | some es =>
    rw [hd, Option.map_some] at hlength
    have hfive : rest.length = 5 * es.length := by
      split_ifs at hlength with h
      rw [Option.some.injEq] at hlength
      omega
    have hcount : rest.length = 5 * cnt.toNat ↔ es.length = cnt.toNat := by omega
    simp only [isSome_ofCheck, hcount, Bool.decide_and]
    exact Bool.and_comm _ _

/-- Entries as they are written are read back. -/
theorem decodeCensus_entries (es : List CensusEntry) (h : ∀ x ∈ es, x.fleet < 65536 ∧ x.length < 256) :
    decodeCensus (es.flatMap (fun x =>
      [BitVec.ofNat 8 (x.fleet / 256), BitVec.ofNat 8 x.fleet, BitVec.ofNat 8 x.length, x.mandatory, x.wanted])) = some es := by
  induction es with
  | nil => rfl
  | cons x es ih =>
    obtain ⟨⟨hfleet, hlength⟩, hes⟩ := List.forall_mem_cons.mp h
    have hu : u16 (BitVec.ofNat 8 (x.fleet / 256)) (BitVec.ofNat 8 x.fleet) = x.fleet := by
      rw [u16, BitVec.toNat_ofNat, BitVec.toNat_ofNat]
      omega
    have hl : (BitVec.ofNat 8 x.length).toNat = x.length := by
      rw [BitVec.toNat_ofNat]
      omega
    simp only [List.flatMap_cons, List.cons_append, List.nil_append, decodeCensus, ih hes, hu, hl, Option.map_some]

/-! ## SECTION_FORCE, GATE_DEF, ROUTE_DEF, ALARM_ACK -/

theorem sectionForce_isSome (st sc : Byte) : (decodeRequest .sectionForce q [st, sc]).isSome = isIn st.toNat 1 2 := by
  rw [← setting_isSome]
  unfold decodeRequest
  dsimp only
  cases settingOfCode? st.toNat with
  | none => rfl
  | some on => cases on <;> rfl

theorem gateDef_isSome (g sg rd cnt : Byte) (rest : List Byte) : (decodeRequest .gateDef q (g :: sg :: rd :: cnt :: rest)).isSome =
    (isIn cnt.toNat 1 4 && decide (rest.length = cnt.toNat + 1)) := by
  unfold decodeRequest
  dsimp only
  cases hlast : rest.getLast? with
  | none =>
    rw [List.getLast?_eq_none_iff.mp hlast]
    simp
  | some out =>
    simp only [isSome_ofCheck, isIn, Bool.decide_and]
    exact Bool.and_comm _ _

theorem routeDef_isSome (l : List Byte) : (decodeRequest .routeDef q l).isSome = isIn l.length 9 56 := by
  unfold decodeRequest
  dsimp only
  rw [isSome_ofCheck, Bool.decide_and]
  rfl

/-- The object of an ALARM_ACK is one byte but for three alarm kinds (R185, R188). -/
theorem alarmAck_isSome_short (pos kd o : Byte) : (decodeRequest .alarmAck q [pos, kd, o]).isSome =
    if kd.toNat = 6 ∨ kd.toNat = 7 ∨ kd.toNat = 10 then false else true := by
  unfold decodeRequest
  dsimp only
  split_ifs <;> rfl

theorem alarmAck_isSome_long (pos kd o1 o0 : Byte) : (decodeRequest .alarmAck q [pos, kd, o1, o0]).isSome =
    if kd.toNat = 6 ∨ kd.toNat = 7 ∨ kd.toNat = 10 then true else false := by
  unfold decodeRequest
  dsimp only
  by_cases h6 : kd.toNat = 6
  · simp [h6]
  · simp only [h6, if_false, false_or, isSome_ofCheck]
    simp

/-! ## Which payloads are of their kind -/

theorem payload_isSome (k : Kind) (l : List Byte) : (decodeRequest k q l).isSome = payloadFits k l := by
  cases k with
  | status | portReset | tableNext | configCommit | rosterClear | halt | haltRelease | restart | alarmAckAll =>
    match l with
    | [] => rfl
    | _ :: _ => rfl
  | subscribe | sectionQuery | pointBlock | pointRestore | pointQuery | routeSet | routeCancel | routeResume
  | routeForceRelease | arrivalResume | gateHold | gateRelease | gateClearOverrun | lineHold | lineRelease
  | sidingBlock | sidingUnblock | sidingDoubt | shuntCancel =>
    match l with
    | [] | [_] => rfl
    | _ :: _ :: _ => rfl
  | headshuntDef | pointThrow | arrivalDiscard | sidingAbilities | shuntRetarget | clockSet | rosterRemove | rosterAuto =>
    match l with
    | [] | [_] | [_, _] => rfl
    | _ :: _ :: _ :: _ => rfl
  | tableSelect | pointDef | shunt =>
    match l with
    | [] | [_] | [_, _] | [_, _, _] => rfl
    | _ :: _ :: _ :: _ :: _ => rfl
  | sectionDef | depart =>
    match l with
    | [] | [_] | [_, _] | [_, _, _] | [_, _, _, _] | [_, _, _, _, _] => rfl
    | _ :: _ :: _ :: _ :: _ :: _ :: _ => rfl
  | sidingDef | arrivalAdd =>
    match l with
    | [] | [_] | [_, _] | [_, _, _] | [_, _, _, _] | [_, _, _, _, _] | [_, _, _, _, _, _] => rfl
    | _ :: _ :: _ :: _ :: _ :: _ :: _ :: _ => rfl
  | arrivalIdentify =>
    match l with
    | [] | [_] | [_, _] | [_, _, _] | [_, _, _, _] | [_, _, _, _, _] | [_, _, _, _, _, _] | [_, _, _, _, _, _, _] => rfl
    | _ :: _ :: _ :: _ :: _ :: _ :: _ :: _ :: _ => rfl
  | rosterAdd =>
    match l with
    | [] | [_] | [_, _] | [_, _, _] | [_, _, _, _] | [_, _, _, _, _] | [_, _, _, _, _, _] | [_, _, _, _, _, _, _]
    | [_, _, _, _, _, _, _, _] => rfl
    | _ :: _ :: _ :: _ :: _ :: _ :: _ :: _ :: _ :: _ => rfl
  | sectionForce =>
    match l with
    | [] | [_] => rfl
    | [st, sc] => exact sectionForce_isSome st sc
    | _ :: _ :: _ :: _ => rfl
  | gateDef =>
    match l with
    | [] | [_] | [_, _] | [_, _, _] => rfl
    | g :: sg :: rd :: cnt :: rest =>
      rw [gateDef_isSome]
      refine congrArg (isIn cnt.toNat 1 4 && ·) (decide_eq_decide.mpr ?_)
      change _ ↔ rest.length + 4 = 5 + cnt.toNat
      omega
  | routeDef => exact routeDef_isSome l
  | yardParams =>
    exact (Option.isSome_map (f := Instr.yardParams q)).trans decodeParams_isSome
  | censusSet =>
    match l with
    | [] | [_] => rfl
    | sd :: cnt :: rest =>
      rw [censusSet_isSome]
      have hlen : rest.length = 5 * cnt.toNat ↔ (sd :: cnt :: rest).length = 2 + 5 * cnt.toNat := by
        simp only [List.length_cons]
        omega
      have hcount : decide (cnt.toNat ≤ 12) = (decide (2 ≤ (sd :: cnt :: rest).length) && isIn cnt.toNat 0 12) := by
        simp [isIn]
      exact congrArg₂ (· && ·) hcount (decide_eq_decide.mpr hlen)
  | alarmAck =>
    match l with
    | [] | [_] => rfl
    | [_, b] => exact (ite_self false).symm
    | [_, b, _] => exact alarmAck_isSome_short _ b _
    | [_, b, _, _] => exact alarmAck_isSome_long _ b _ _
    | _ :: b :: _ :: _ :: _ :: rest => exact (ite_self false).symm

/-! ## What the fields stand for -/

/-- The approach sections of a GATE_DEF are counted before them (R8). -/
theorem gateDef_fields (a b c d : Byte) {sects : List Byte} (h1 : 1 ≤ sects.length) (h4 : sects.length ≤ 4) :
    decodeRequest .gateDef q ([a, b, c, BitVec.ofNat 8 sects.length] ++ sects ++ [d]) =
      some (.gateDef q a.toNat b.toNat c.toNat (sects.map BitVec.toNat) d.toNat) := by
  have hcount : (BitVec.ofNat 8 sects.length).toNat = sects.length := by
    rw [BitVec.toNat_ofNat]
    omega
  have hcheck : (sects ++ [d]).length = (BitVec.ofNat 8 sects.length).toNat + 1 ∧ 1 ≤ (BitVec.ofNat 8 sects.length).toNat ∧
      (BitVec.ofNat 8 sects.length).toNat ≤ 4 := by
    rw [hcount]
    exact ⟨List.length_append, h1, h4⟩
  change decodeRequest .gateDef q (a :: b :: c :: BitVec.ofNat 8 sects.length :: (sects ++ [d])) = _
  unfold decodeRequest
  simp only [List.getLast?_concat, List.dropLast_concat, if_pos hcheck]

theorem yardParams_fields (m1 m0 o1 o0 cc cd f1 f0 tr s1 s0 rw sp r1 r0 cb hm cl dl ip : Byte) (h : m1.toNat < 0x40) :
    let given (i v : Nat) : Option Nat := if (if i < 8 then m0.getLsbD i else m1.getLsbD (i - 8)) then some v else none
    decodeRequest .yardParams q [m1, m0, o1, o0, cc, cd, f1, f0, tr, s1, s0, rw, sp, r1, r0, cb, hm, cl, dl, ip] =
      some (.yardParams q ⟨given 0 (wide o1 o0), given 1 cc.toNat, given 2 cd.toNat, given 3 (wide f1 f0), given 4 tr.toNat,
        given 5 (wide s1 s0), given 6 rw.toNat, given 7 sp.toNat, given 8 (wide r1 r0), given 9 cb.toNat, given 10 hm.toNat,
        given 11 cl.toNat, given 12 dl.toNat, given 13 ip.toNat⟩) := by
  have hmask : u16 m1 m0 < 16384 := by
    have := m0.isLt
    rw [u16]
    omega
  have hgiven (i v : Nat) : maskedField (u16 m1 m0) i v =
      if (if i < 8 then m0.getLsbD i else m1.getLsbD (i - 8)) then some v else none := by
    rw [maskedField, mask_testBit]
  change (decodeParams _).map (Instr.yardParams q) = _
  rw [decodeParams, if_pos hmask]
  simp only [hgiven]
  rfl

theorem censusSet_fields (a : Byte) {es : List CensusEntry} (hlen : es.length ≤ 12)
    (h : ∀ x ∈ es, x.fleet < 65536 ∧ x.length < 256) :
    decodeRequest .censusSet q ([a, BitVec.ofNat 8 es.length] ++ es.flatMap (fun x =>
      [BitVec.ofNat 8 (x.fleet / 256), BitVec.ofNat 8 x.fleet, BitVec.ofNat 8 x.length, x.mandatory, x.wanted])) =
      some (.censusSet q a.toNat es) := by
  have hcount : (BitVec.ofNat 8 es.length).toNat = es.length := by
    rw [BitVec.toNat_ofNat]
    omega
  change decodeRequest .censusSet q (a :: BitVec.ofNat 8 es.length :: es.flatMap _) = _
  unfold decodeRequest
  dsimp only
  rw [decodeCensus_entries es h, hcount]
  exact if_pos ⟨rfl, hlen⟩

theorem alarmAck_oneByte (pos kd o : Byte) (h : kd.toNat ∉ [6, 7, 10]) :
    decodeRequest .alarmAck q [pos, kd, o] = some (.alarmAck q pos.toNat kd.toNat o.toNat none) :=
  if_neg (by simpa using h)

theorem alarmAck_fleet (pos kd o1 o0 : Byte) (h : kd.toNat ∈ [7, 10]) :
    decodeRequest .alarmAck q [pos, kd, o1, o0] = some (.alarmAck q pos.toNat kd.toNat (wide o1 o0) none) := by
  have hkind : kd.toNat = 7 ∨ kd.toNat = 10 := by simpa using h
  have h6 : kd.toNat ≠ 6 := by omega
  exact (if_neg h6).trans (if_pos hkind)

theorem alarmAck_section (pos kd o1 o0 : Byte) (h : kd.toNat = 6) :
    decodeRequest .alarmAck q [pos, kd, o1, o0] = some (.alarmAck q pos.toNat 6 o1.toNat (some o0.toNat)) := if_pos h

end

/-- R171, R181: the payloads, kind by kind in the order of the kind table. -/
theorem payload_read : payloadFields := by
  intro q a b c d e f g h
  simp only [← opt8_eq_present8, ← opt16_eq_present16]
  exact ⟨payload_isSome, rfl, rfl, rfl, rfl, rfl, rfl, rfl, rfl, fun _ h1 h4 => gateDef_fields a b c d h1 h4, rfl,
    fun _ h9 h56 => if_pos ⟨h9, h56⟩, yardParams_fields, rfl, rfl, rfl, rfl, rfl, rfl, rfl, rfl, rfl, rfl, rfl, rfl, rfl, rfl, rfl,
    rfl, rfl, rfl, rfl, rfl, rfl, fun _ hlen hes => censusSet_fields a hlen hes, rfl, rfl, rfl, rfl, rfl, rfl, rfl, rfl, rfl, rfl,
    rfl, rfl, rfl, rfl, rfl, rfl, rfl, alarmAck_oneByte a b c, alarmAck_fleet a b c d, alarmAck_section a b c d⟩

end Sys2Proof.Machine

/-! # Characters at a receiver, and the frame that they make (09 sections 9.2, 9.3) -/

namespace Sys2Proof.Machine

/-- One character of a port's line, with the hand-over that may follow it. -/
def State.takeChar (p : Port) (s : State) (c : LineChar) : State := (s.onPort p (PortState.receive c)).handOver p

/-- Bytes since SYNC that make no whole frame yet: a LENGTH within its bounds, and fewer bytes after it than it asks for. -/
def Unfinished (bytes : List Byte) : Prop :=
  ∀ len rest, bytes = len :: rest → 2 ≤ len.toNat ∧ len.toNat ≤ 58 ∧ rest.length < len.toNat + 2

/-- A port whose frame is discarded (R168). -/
def PortState.discarded (q : PortState) : PortState := { q with receiver := .hunt, lineError := true }

section

variable {s : State} {p : Port} {q : PortState} {b len : Byte} {got rest : List Byte}

/-! ## One character (R167, R168) -/

theorem receive_hunt (h : q.receiver = .hunt) (good : Bool) : q.receive ⟨b, good⟩ =
    if good = true ∧ b = 0xA5 then { q with receiver := .frame [] } else q := by
  unfold PortState.receive
  rw [h]

theorem receive_framingError (h : q.receiver = .frame got) : q.receive ⟨b, false⟩ = q.discarded := by
  unfold PortState.receive
  rw [h]
  rfl

/-- A byte in a frame: a bad LENGTH, the last byte of the frame, or another that joins it. -/
theorem receive_frame (h : q.receiver = .frame got) (hbytes : got ++ [b] = len :: rest) : q.receive ⟨b, true⟩ =
    if rest = [] ∧ (len.toNat < 2 ∨ 58 < len.toNat) then q.discarded
    else if rest.length = len.toNat + 2 then
      (checkFrame (len :: rest)).elim q.discarded (fun f => ({ q with receiver := .hunt }).acceptFrame f)
    else { q with receiver := .frame (len :: rest) } := by
  unfold PortState.receive
  rw [h]
  dsimp only
  rw [hbytes]
  simp only [List.length_cons, List.headD_cons, Bool.not_true, Bool.false_eq_true, if_false, Nat.add_eq_right,
    List.length_eq_zero_iff, Nat.add_right_cancel_iff (n := 1) (k := len.toNat + 2)]
  cases checkFrame (len :: rest) <;> rfl

/-- A byte after which the frame is not yet whole joins it. -/
theorem receive_joins (h : q.receiver = .frame got) (hu : Unfinished (got ++ [b])) :
    q.receive ⟨b, true⟩ = { q with receiver := .frame (got ++ [b]) } := by
  obtain ⟨len, rest, hbytes⟩ := List.exists_cons_of_ne_nil (l := got ++ [b]) (by simp)
  obtain ⟨h2, h58, hrest⟩ := hu len rest hbytes
  rw [receive_frame h hbytes, if_neg (by omega), if_neg (by omega), hbytes]

/-- The byte that makes a frame whole has it checked. -/
theorem receive_last (h : q.receiver = .frame got) (hbytes : got ++ [b] = len :: rest) (h2 : 2 ≤ len.toNat) (h58 : len.toNat ≤ 58)
    (hrest : rest.length = len.toNat + 2) : q.receive ⟨b, true⟩ =
      (checkFrame (len :: rest)).elim q.discarded (fun f => ({ q with receiver := .hunt }).acceptFrame f) := by
  rw [receive_frame h hbytes, if_neg (by omega), if_pos hrest]

/-- R168: a frame is checked by the CRC over LENGTH through its last byte. -/
theorem checkFrame_none (h : rest.length = len.toNat + 2)
    (hcrc : (len :: rest).drop (len.toNat + 1) ≠ crcBytes ((len :: rest).take (len.toNat + 1))) : checkFrame (len :: rest) = none := by
  unfold checkFrame
  rw [List.length_cons, h, show len.toNat + 2 + 1 - 2 = len.toNat + 1 by omega]
  exact if_neg hcrc

theorem checkFrame_some (len kind tag : Byte) (payload : List Byte) :
    checkFrame (len :: kind :: tag :: payload ++ crcBytes (len :: kind :: tag :: payload)) = some ⟨kind, tag, payload⟩ := by
  have hcrc : (crcBytes (len :: kind :: tag :: payload)).length = 2 := rfl
  unfold checkFrame
  rw [List.length_append, hcrc, Nat.add_sub_cancel, List.take_left, List.drop_left]
  exact if_pos rfl

/-! ## Characters one after another -/

/-- A character that leaves a port with nothing to hand on is received, and no more. -/
theorem takeChar_busy {c : LineChar} (h : ((s.port p).receive c).Busy) : s.takeChar p c = s.onPort p (PortState.receive c) :=
  handOver_none (by rw [State.onPort_same]; exact h)

theorem onPort_onPort (s : State) (p : Port) (f g : PortState → PortState) : (s.onPort p f).onPort p g = s.onPort p (fun x => g (f x)) := by
  cases p <;> rfl

theorem onPort_congr {f g : PortState → PortState} (h : f (s.port p) = g (s.port p)) : s.onPort p f = s.onPort p g := by
  cases p <;> simp only [State.onPort, State.port] at h ⊢ <;> rw [h]

theorem Unfinished.of_append {l m : List Byte} (h : Unfinished (l ++ m)) : Unfinished l := by
  rintro len rest rfl
  obtain ⟨h2, h58, hlt⟩ := h len (rest ++ m) rfl
  exact ⟨h2, h58, by rw [List.length_append] at hlt; omega⟩

/-- Bytes that make no whole frame yet join it, one after another. -/
theorem foldl_takeChar_joins {l : List Byte} (h : (s.port p).receiver = .frame got) (hb : (s.port p).Busy) (hu : Unfinished (got ++ l)) :
    (frameChars l).foldl (State.takeChar p) s = s.onPort p (fun x => { x with receiver := .frame (got ++ l) }) := by
  induction l generalizing s got with
  | nil =>
    rw [List.append_nil, ← h]
    exact (onPort_id s p).symm.trans (onPort_congr rfl)
  | cons b l ih =>
    have hjoin : (s.port p).receive ⟨b, true⟩ = { s.port p with receiver := .frame (got ++ [b]) } :=
      receive_joins h (Unfinished.of_append (m := l) (by simpa using hu))
    have htake : s.takeChar p ⟨b, true⟩ = s.onPort p (fun x => { x with receiver := .frame (got ++ [b]) }) := by
      rw [takeChar_busy (by rw [hjoin]; exact hb)]
      exact onPort_congr hjoin
    change (frameChars l).foldl (State.takeChar p) (s.takeChar p ⟨b, true⟩) = _
    rw [htake, ih (got := got ++ [b]) (by rw [State.onPort_same]) (by rw [State.onPort_same]; exact hb) (by simpa using hu),
      onPort_onPort]
    simp only [List.append_assoc, List.singleton_append]

/-! ## Whole frames (R168, R170, R171) -/

/-- A frame of bytes with good stop bits at a receiver in HUNT: its bytes join one after another, and the last has it checked. -/
theorem foldl_takeChar_frame {crc : List Byte} (h : (s.port p).receiver = .hunt) (hb : (s.port p).Busy) (hcrc : crc.length = 2)
    (h2 : 2 ≤ len.toNat) (h58 : len.toNat ≤ 58) (hrest : rest.length = len.toNat) :
    (frameChars (0xA5 :: (len :: rest) ++ crc)).foldl (State.takeChar p) s =
      (s.onPort p (fun x => (checkFrame (len :: rest ++ crc)).elim { x with lineError := true }
        (fun f => x.acceptFrame f))).handOver p := by
  obtain ⟨c1, c2, rfl⟩ := List.length_eq_two.mp hcrc
  have hsync : (s.port p).receive ⟨0xA5, true⟩ = { s.port p with receiver := .frame [] } := by
    rw [receive_hunt h, if_pos ⟨rfl, rfl⟩]
  have hfirst : s.takeChar p ⟨0xA5, true⟩ = s.onPort p (fun x => { x with receiver := .frame [] }) := by
    rw [takeChar_busy (by rw [hsync]; exact hb)]
    exact onPort_congr hsync
  have hu : Unfinished ([] ++ (len :: rest ++ [c1])) := by
    rintro _ _ ⟨⟩
    have hlength : (rest ++ [c1]).length < len.toNat + 2 := by
      rw [List.length_append, hrest]
      exact Nat.lt_succ_self _
    exact ⟨h2, h58, hlength⟩
  have hjoins := foldl_takeChar_joins (s := s.onPort p (fun x => { x with receiver := .frame [] })) (p := p)
    (by rw [State.onPort_same]) (by rw [State.onPort_same]; exact hb) hu
  have hchars : frameChars (0xA5 :: (len :: rest) ++ [c1, c2]) = ⟨0xA5, true⟩ :: (frameChars (len :: rest ++ [c1]) ++ [⟨c2, true⟩]) := by
    simp [frameChars]
  have hlast : PortState.receive ⟨c2, true⟩ { s.port p with receiver := .frame ([] ++ (len :: rest ++ [c1])) } =
      (checkFrame (len :: rest ++ [c1, c2])).elim { s.port p with lineError := true } (fun f => (s.port p).acceptFrame f) := by
    have hhunt : { s.port p with receiver := .hunt } = s.port p := by rw [← h]
    have hdiscarded : (s.port p).discarded = { s.port p with lineError := true } := by rw [PortState.discarded, ← h]
    rw [receive_last (len := len) (rest := rest ++ [c1, c2]) rfl (by simp) h2 h58 (by rw [List.length_append, hrest]; rfl)]
    change (checkFrame _).elim (s.port p).discarded (fun f => PortState.acceptFrame f { s.port p with receiver := .hunt }) = _
    rw [hhunt, hdiscarded]
    rfl
  rw [hchars, List.foldl_cons, hfirst, List.foldl_append, hjoins, onPort_onPort]
  change ((s.onPort p _).onPort p (PortState.receive ⟨c2, true⟩)).handOver p = _
  rw [onPort_onPort]
  exact congrArg (State.handOver p) (onPort_congr hlast)

theorem acceptFrame_inHand (f : Frame) (x : PortState) : (x.acceptFrame f).inHand = x.inHand := by
  unfold PortState.acceptFrame
  split_ifs <;> rfl

theorem acceptFrame_first (f : Frame) {x : PortState} (h : x.queue = []) : x.acceptFrame f = { x with queue := [f] } := by
  unfold PortState.acceptFrame
  rw [h]
  rfl

theorem keepsAllBut_onPort_iff (g : PortState → PortState) {u : State} :
    KeepsAllBut [.ports] (s.onPort p g) u ↔ KeepsAllBut [.ports] s u :=
  ⟨(keepsAllBut_of_bare (bare_onPort s p g)).trans, (keepsAllBut_of_bare (bare_onPort s p g).symm).trans⟩

theorem others_onPort_iff (g : PortState → PortState) {u : State} :
    (∀ p', p' ≠ p → u.port p' = (s.onPort p g).port p') ↔ ∀ p', p' ≠ p → u.port p' = s.port p' :=
  forall₂_congr fun _ hp => by rw [State.onPort_other s hp]

theorem onlyPort_onPort_iff (g : PortState → PortState) {y : PortState} {u : State} :
    OnlyPort p y (s.onPort p g) u ↔ OnlyPort p y s u := by
  unfold OnlyPort
  rw [keepsAllBut_onPort_iff, others_onPort_iff]

/-- A frame that joins an empty queue with no request in hand is handed on as the oldest request. -/
theorem handsOn_acceptFrame (f : Frame) (hin : (s.port p).inHand = none) (hq : (s.port p).queue = []) :
    HandsOn p f [] s ((s.onPort p (PortState.acceptFrame f)).handOver p) := by
  have hport : (s.onPort p (PortState.acceptFrame f)).port p = { s.port p with queue := [f] } := by
    rw [State.onPort_same, acceptFrame_first f hq]
  have h := handsOn_handOver (s := s.onPort p (PortState.acceptFrame f)) (p := p) (f := f) (rest := [])
    (by rw [hport]; exact hin) (by rw [hport])
  unfold HandsOn at h ⊢
  simp only [hport, State.onPort_claims, State.onPort_op, State.onPort_desc, onlyPort_onPort_iff, keepsAllBut_onPort_iff,
    others_onPort_iff] at h
  exact h

/-! ## The takings of a line's characters -/

/-- The bytes of a request frame after SYNC, up to its CRC. -/
def requestBytes (kind tag : Byte) (payload : List Byte) : List Byte := BitVec.ofNat 8 (payload.length + 2) :: kind :: tag :: payload

theorem requestBytes_length {payload : List Byte} (h : payload.length ≤ 56) :
    (BitVec.ofNat 8 (payload.length + 2)).toNat = payload.length + 2 := by
  rw [BitVec.toNat_ofNat]
  omega

theorem exec_frame {kind tag : Byte} {payload crc : List Byte} (hlen : payload.length ≤ 56) (h : (s.port p).receiver = .hunt)
    (hb : (s.port p).Busy) (hcrc : crc.length = 2) :
    exec (.controlFrame p (frameChars (0xA5 :: requestBytes kind tag payload ++ crc))) s =
      done ((s.onPort p (fun x => (checkFrame (requestBytes kind tag payload ++ crc)).elim { x with lineError := true }
        (fun f => x.acceptFrame f))).handOver p) := by
  have hlength := requestBytes_length hlen
  exact congrArg done (foldl_takeChar_frame h hb hcrc (by omega) (by omega) hlength.symm)

theorem exec_goodFrame {kind tag : Byte} {payload : List Byte} (hlen : payload.length ≤ 56) (h : (s.port p).receiver = .hunt)
    (hb : (s.port p).Busy) :
    exec (.controlFrame p (frameChars (0xA5 :: requestBytes kind tag payload ++ crcBytes (requestBytes kind tag payload)))) s =
      done ((s.onPort p (PortState.acceptFrame ⟨kind, tag, payload⟩)).handOver p) := by
  rw [exec_frame hlen h hb rfl, requestBytes, checkFrame_some]
  rfl

/-- A frame behind a request in hand only changes what waits at its port. -/
theorem goodFrame_waits {kind tag : Byte} {payload : List Byte} (hlen : payload.length ≤ 56) (h : (s.port p).receiver = .hunt)
    (hin : (s.port p).inHand.isSome) :
    exec (.controlFrame p (frameChars (0xA5 :: requestBytes kind tag payload ++ crcBytes (requestBytes kind tag payload)))) s =
      done (s.onPort p (PortState.acceptFrame ⟨kind, tag, payload⟩)) := by
  have hstays : ((s.onPort p (PortState.acceptFrame ⟨kind, tag, payload⟩)).port p).inHand.isSome := by
    rw [State.onPort_same, acceptFrame_inHand]
    exact hin
  rw [exec_goodFrame hlen h (.inl hin), handOver_none (.inl hstays)]

/-- A frame whose CRC does not match is discarded. -/
theorem badFrame_discarded {kind tag : Byte} {payload crc : List Byte} (hlen : payload.length ≤ 56) (h : (s.port p).receiver = .hunt)
    (hb : (s.port p).Busy) (hcrc : crc.length = 2) (hne : crc ≠ crcBytes (requestBytes kind tag payload)) :
    exec (.controlFrame p (frameChars (0xA5 :: requestBytes kind tag payload ++ crc))) s =
      done (s.onPort p (fun x => { x with lineError := true })) := by
  have hlength := requestBytes_length hlen
  have hcut : (BitVec.ofNat 8 (payload.length + 2)).toNat + 1 = (requestBytes kind tag payload).length := by
    rw [hlength]
    rfl
  have hnone : checkFrame (requestBytes kind tag payload ++ crc) = none := by
    refine checkFrame_none (rest := kind :: tag :: payload ++ crc) (by simp [hcrc, hlength]) ?_
    change (requestBytes kind tag payload ++ crc).drop _ ≠ crcBytes ((requestBytes kind tag payload ++ crc).take _)
    rw [hcut, List.drop_left, List.take_left]
    exact hne
  rw [exec_frame hlen h hb hcrc, hnone, handOver_none (by rw [State.onPort_same]; exact hb)]
  rfl

/-- A character that leaves its port with nothing to hand on. -/
theorem takes_char {c : LineChar} {y : PortState} (hy : (s.port p).receive c = y) (hb : y.Busy) :
    ∃ u, exec (.controlFrame p [c]) s = .next u.settle ∧ u.claims = s.claims ∧ OnlyPort p y s u := by
  have hx : exec (.controlFrame p [c]) s = done (s.onPort p (PortState.receive c)) :=
    congrArg done (takeChar_busy (by rw [hy]; exact hb))
  rw [hx]
  exact takes_onPort hy

end

/-- R168, R170, R171: the frame is queued, answered BUSY or discarded behind a request in hand, and handed on with none. -/
theorem frame_received : framesAreReceived := by
  intro p kind tag payload s hlen hhunt
  refine ⟨fun hin => ?_, fun hin hq => ?_, fun crc hcrc hne hb => ?_⟩
  · dsimp only
    have hx := goodFrame_waits (kind := kind) (tag := tag) hlen hhunt hin
    exact ⟨_, hx, State.onPort_claims _ _ _, onlyPort_onPort s p _⟩
  · dsimp only
    have hx := exec_goodFrame (kind := kind) (tag := tag) hlen hhunt (.inr hq)
    have hhands := handsOn_acceptFrame ⟨kind, tag, payload⟩ hin hq
    generalize (s.onPort p (PortState.acceptFrame ⟨kind, tag, payload⟩)).handOver p = u at hx hhands
    have hqueue (i : Option InHand) (l : List Answer) :
        ({ s.port p with queue := [], inHand := i, path := l } : PortState) = { s.port p with inHand := i, path := l } := by
      rw [← hq]
    have htakes {claims : List Instr} {y y' : PortState} (hy : y' = y) (h : u.claims = claims ∧ OnlyPort p y' s u) :
        ∃ u, exec (.controlFrame p (frameChars (0xA5 :: requestBytes kind tag payload ++
            crcBytes (requestBytes kind tag payload)))) s = .next u.settle ∧ u.claims = claims ∧ OnlyPort p y s u :=
      ⟨u, hx, hy ▸ h⟩
    unfold HandsOn at hhands
    dsimp only at hhands
    cases hk : Kind.ofCode? kind.toNat with
    | none =>
      rw [hk] at hhands
      exact htakes (hqueue _ _) hhands
    | some k =>
      rw [hk] at hhands
      dsimp only at hhands ⊢
      cases hm : mayMake p kind.toNat with
      | false =>
        rw [hm] at hhands
        exact htakes (hqueue _ _) hhands
      | true =>
        rw [hm] at hhands
        simp only [Bool.not_true, Bool.false_eq_true, if_false] at hhands ⊢
        cases hd : decodeRequest k ⟨p, tag⟩ payload with
        | none =>
          rw [hd] at hhands
          exact htakes (hqueue _ _) hhands
        | some c =>
          rw [hd] at hhands
          dsimp only at hhands ⊢
          generalize (!c.codesOk || _) = bad at hhands ⊢
          cases bad with
          | true => exact htakes (hqueue _ _) hhands
          | false =>
            intro h5
            simp only [Bool.false_eq_true, if_false, if_pos h5] at hhands
            exact htakes (hqueue _ _) hhands
  · exact ⟨_, badFrame_discarded hlen hhunt hb hcrc hne, State.onPort_claims _ _ _,
      onlyPort_onPort s p (fun x => { x with lineError := true })⟩

/-- R167, R168: a character in HUNT, and a byte of a frame by what it leaves of the frame. -/
theorem character_received : receiverTakesACharacter := by
  intro p b good s hb
  dsimp only
  cases h : (s.port p).receiver with
  | hunt =>
    refine takes_char (receive_hunt h good) ?_
    split_ifs <;> exact hb
  | frame got =>
    dsimp only
    cases good with
    | false => exact takes_char (receive_framingError h) hb
    | true =>
      rw [if_neg (by decide)]
      intro len rest hbytes
      refine ⟨fun hrest hlen => ?_, fun h2 h58 => ⟨fun hlt => ?_, fun hend hcrc => ?_⟩⟩
      · exact takes_char ((receive_frame h hbytes).trans (if_pos ⟨hrest, hlen⟩)) hb
      · refine takes_char (receive_joins h ?_) hb
        rw [hbytes]
        rintro _ _ ⟨⟩
        exact ⟨h2, h58, hlt⟩
      · rw [hbytes] at hcrc
        refine takes_char (y := (s.port p).discarded) ?_ hb
        rw [receive_last h hbytes h2 h58 hend, checkFrame_none hend hcrc]
        rfl

/-- Settles O49: a whole frame (`foldl_takeChar_frame`, `handsOn_acceptFrame`), one character (`receive_frame`), and the payloads. -/
theorem framesAreReceived : Obligations.FramesAreReceived := ⟨frame_received, character_received, payload_read⟩

end Sys2Proof.Machine
